-- ==== Sys2Proof/Word.lean ====
section
/-! DEFINITION. The word types of the NZ262 and the integer operations of R8 (00_scope.md). -/

namespace Sys2Proof

/-- One byte of a record, a packet or a memory. -/
abbrev Byte := BitVec 8

/-- A 32-bit register value (R9). -/
abbrev Word := BitVec 32

/-- `floor_div(a, b)` of R8, for `b > 0`. -/
def floorDiv (a b : Int) : Int := Int.fdiv a b

/-- `round_half_even` of R8, of the exact rational `num / den` with `den > 0`. -/
def roundHalfEven (num : Int) (den : Nat) : Int :=
  let q := Int.fdiv num den
  let r := (num - q * den).toNat
  if 2 * r < den then q
  else if den < 2 * r then q + 1
  else if q % 2 = 0 then q else q + 1

/-- `sat(x, lo, hi)` of R8. -/
def sat (x lo hi : Int) : Int := if x < lo then lo else if hi < x then hi else x

/-- `shr_round(x, n)` of R8: `(x + 2^(n-1)) >> n` with an arithmetic shift; a shift by 0 leaves `x`. -/
def shrRound (x : Int) (n : Nat) : Int :=
  if n = 0 then x else Int.fdiv (x + 2 ^ (n - 1)) (2 ^ n)

/-- The quotient rounded up, for `b > 0`. -/
def ceilDiv (a b : Nat) : Nat := (a + b - 1) / b

end Sys2Proof
end

