-- ==== Sys2Proof/Syntax.lean ====
section
/-! DEFINITION. The commands of the block: one constructor of `Instr` per row of spec/opcode_table.json,
and the operand types they carry. -/

namespace Sys2Proof

/-- The master identities of Table 16-2, and the configuration load (master code 15, Table 2-9). A peer part shows its Requester ID (R345). -/
inductive Master where
  | m0 | m1 | m2 | aoc | debug | h0 | h1 | h2 | h3 | peer (rid : Nat) | load
deriving DecidableEq, Repr

/-- Where a Polcon packet came from: a submission queue (R49) or a shared mailbox (R355). -/
inductive Origin where
  | queue  (q : Nat)
  | shared (k : Nat)
deriving DecidableEq, Repr

/-- A fetched Polcon packet (R54): its fetch number, its origin, the identity it is performed as, and its bytes. -/
structure Packet where
  id    : Nat
  org   : Origin
  fn    : Master
  bytes : List Byte
deriving DecidableEq, Repr

/-- What host memory answers to a read of the part: the bytes, or an error completion (R53, R226). -/
inductive HostRead where
  | failed
  | bytes (bs : List Byte)
deriving DecidableEq, Repr

/-- The content of the boot flash's two image slots (R29). -/
structure Flash where
  slotA : List Byte
  slotB : List Byte
deriving DecidableEq, Repr

/-- What asks for a wake (R34): `WAKE_N`, or a request kept from a power-down. -/
inductive WakeSource where
  | wakeN | kept
deriving DecidableEq, Repr

/-- What resets a PCIe function (R378). -/
inductive FnReset where
  | flr | hot | linkDown
deriving DecidableEq, Repr

/-- One DIMM as found at bring-up (R234, R247): its SPD data and the read-back test of R247. -/
structure DimmFound where
  present  : Bool
  ddr5Ok   : Bool
  x8       : Bool
  dens32   : Bool
  twoRank  : Bool
  spdCrc   : Nat
  testOk   : Bool
deriving DecidableEq, Repr

/-- The PTP message types the part handles (R265, R267, R269). -/
inductive PtpKind where
  | sync | followUp | delayReq | delayResp | pdelayReq | pdelayResp | pdelayRespFollowUp | announce | management
deriving DecidableEq, Repr

/-- The port states of IEEE 1588 that the rules name (R268, R269). -/
inductive PtpState where
  | disabled | listening | master | passive | uncalibrated | slave
deriving DecidableEq, Repr

/-- A clock as an Announce shows it (R265, IEEE 1588-2019): the grandmaster's attributes, the steps to it, and the sender. `quality` is
clockClass, clockAccuracy and offsetScaledLogVariance, most significant first; `utc` is currentUtcOffset. -/
structure PtpClock where
  prio1    : Nat
  quality  : Nat
  prio2    : Nat
  identity : Nat
  steps    : Nat
  sender   : Nat
  utc      : Int
deriving DecidableEq, Repr

/-- A received PTP message: type, domain, the time it carries (in 2^-16 ns), its correctionField (2^-16 ns), whether its sender is
one-step, and the clock that an Announce shows. -/
structure PtpMsg where
  kind    : PtpKind
  domain  : Nat
  origin  : Int
  corr    : Int
  oneStep : Bool
  clock   : PtpClock
deriving DecidableEq, Repr

/-- One transfer's result of an eye scan (R248): pass bits of the read and write planes. -/
structure EyeResult where
  passes : List Bool
deriving DecidableEq, Repr

/-- A frame that a timing port receives, after its two addresses: its Ethertype and its payload (R264, R270). -/
structure EthFrame where
  etherType : Nat
  bytes     : List Byte
deriving DecidableEq, Repr

/-- A strobe that the watchdog finds high: its group, and whether the level at its ball stays high for a further 4 ns (R197). -/
structure StuckStrobe where
  group : Fin 16
  stays : Bool
deriving DecidableEq, Repr

/-- A COMPRESS: its packet, and whether the self-verify of its encode agrees where it runs on engine 0 (R213, R215). The segments of
one on engine 1 bring theirs with RLE1_ITEM. -/
structure CompressRun where
  pk     : Packet
  agrees : Bool
deriving DecidableEq, Repr

/-- An access to BAR0: a read, or a write with its bytes (R372). -/
inductive Access where
  | read
  | write (data : List Byte)
deriving DecidableEq, Repr

/-- What the TAP does (R369): an instruction is loaded at Update-IR; the data register it selects is captured, shifted by the bits of TDI, first
bit first, and updated; or TRST_N or Test-Logic-Reset resets it. -/
inductive TapEvent where
  | load (code : Byte)
  | scan (tdi : List Bool)
  | reset
deriving DecidableEq, Repr

/-- The commands: one constructor per row of spec/opcode_table.json. -/
inductive Instr where
  /-- NOP (R59) -/
  | nop (pk : Packet)
  /-- IDENT (R387) -/
  | ident (pk : Packet)
  /-- MODE_ARM (R42) -/
  | modeArm (pk : Packet)
  /-- HOLD (R69) -/
  | hold (pk : Packet)
  /-- CLEAR_HOLD (R340) -/
  | clearHold (pk : Packet)
  /-- STANDBY (R309) -/
  | standby (pk : Packet)
  /-- STATUS (R387) -/
  | status (pk : Packet)
  /-- CLAIM (R37) -/
  | claim (pk : Packet)
  /-- JOB_OPEN (R61) -/
  | jobOpen (pk : Packet)
  /-- STRIPE_ADMIT (R62) -/
  | stripeAdmit (pk : Packet)
  /-- STRIPE_ARM (R67) -/
  | stripeArm (pk : Packet)
  /-- STRIPE_CANCEL (R68) -/
  | stripeCancel (pk : Packet)
  /-- JOB_CLOSE (R61) -/
  | jobClose (pk : Packet)
  /-- HOLE_READ (R72) -/
  | holeRead (pk : Packet)
  /-- UPLOAD (R60) -/
  | upload (pk : Packet) (host : HostRead)
  /-- RELEASE (R60) -/
  | release (pk : Packet)
  /-- VERIFY (R59) -/
  | verify (pk : Packet)
  /-- CELL_QUERY (R59) -/
  | cellQuery (pk : Packet)
  /-- CAL_LOAD (R150) -/
  | calLoad (pk : Packet)
  /-- GEN_RETIRE (R153) -/
  | genRetire (pk : Packet)
  /-- HEAT_LOAD (R137) -/
  | heatLoad (pk : Packet)
  /-- FACET_LOAD (R181) -/
  | facetLoad (pk : Packet)
  /-- GEN_QUERY (R156) -/
  | genQuery (pk : Packet)
  /-- CHECK_RUN (R144) -/
  | checkRun (pk : Packet)
  /-- CHECK_READ (R148) -/
  | checkRead (pk : Packet)
  /-- CAL_BUILD (R149) -/
  | calBuild (pk : Packet)
  /-- AXIS_CONFIG (R283) -/
  | axisConfig (pk : Packet)
  /-- AXIS_MOVE (R287) -/
  | axisMove (pk : Packet)
  /-- AXIS_STOP (R293) -/
  | axisStop (pk : Packet)
  /-- AXIS_RESUME (R294) -/
  | axisResume (pk : Packet)
  /-- AXIS_HOME (R297) -/
  | axisHome (pk : Packet)
  /-- AXIS_STATUS (R59) -/
  | axisStatus (pk : Packet)
  /-- RAIL_STATUS (R59) -/
  | railStatus (pk : Packet)
  /-- SNAPSHOT_READ (R316) -/
  | snapshotRead (pk : Packet)
  /-- HEATER_SET (R317) -/
  | heaterSet (pk : Packet)
  /-- HEATER_STATUS (R59) -/
  | heaterStatus (pk : Packet)
  /-- TIME_READ (R59) -/
  | timeRead (pk : Packet)
  /-- TIME_STEP (R258) -/
  | timeStep (pk : Packet)
  /-- TIME_INCR (R255) -/
  | timeIncr (pk : Packet)
  /-- PTP_STATUS (R59) -/
  | ptpStatus (pk : Packet)
  /-- FX_STATUS (R75) -/
  | fxStatus (pk : Packet)
  /-- FX_LOAD (R75) -/
  | fxLoad (pk : Packet) (host : HostRead)
  /-- FX_STRIPE (R75) -/
  | fxStripe (pk : Packet)
  /-- FX_ABORT (R75) -/
  | fxAbort (pk : Packet)
  /-- FX_HOLES (R75) -/
  | fxHoles (pk : Packet)
  /-- FX_TIME (R75) -/
  | fxTime (pk : Packet)
  /-- FX_RAILS (R75) -/
  | fxRails (pk : Packet)
  /-- FX_MOVE (R75) -/
  | fxMove (pk : Packet)
  /-- FX_HALT (R75) -/
  | fxHalt (pk : Packet)
  /-- FX_HEAT (R75) -/
  | fxHeat (pk : Packet)
  /-- FX_FAULTS (R75) -/
  | fxFaults (pk : Packet)
  /-- FX_FAULT_ACK (R75) -/
  | fxFaultAck (pk : Packet)
  /-- RESERVED_OPCODE (R59) -/
  | reservedOpcode (pk : Packet)
  /-- FAULT_READ (R334) -/
  | faultRead (pk : Packet)
  /-- FAULT_ACK (R330) -/
  | faultAck (pk : Packet)
  /-- INJECT (R341) -/
  | inject (pk : Packet)
  /-- SEVERITY_SET (R329) -/
  | severitySet (pk : Packet)
  /-- COMPRESS (R218) -/
  | compress (run : CompressRun)
  /-- EYE_SCAN (R248) -/
  | eyeScan (pk : Packet)
  /-- MEM_STATUS (R252) -/
  | memStatus (pk : Packet)
  /-- PACKET_FETCH (R52) -/
  | packetFetch (rd : HostRead)
  /-- REPLY_WRITE (R51) -/
  | replyWrite (q : Fin 16) (ok : Bool)
  /-- CMD_SQ_TAIL_WRITE (R50) -/
  | cmdSqTailWrite (m : Master) (q : Fin 16) (v : Word)
  /-- CMD_CQ_HEAD_WRITE (R51) -/
  | cmdCqHeadWrite (m : Master) (q : Fin 16) (v : Word)
  /-- CMD_QCTL_EN_WRITE (R53) -/
  | cmdQctlEnWrite (m : Master) (q : Fin 16) (v : Word)
  /-- REGISTER_WRITE (R10) -/
  | registerWrite (m : Master) (off : Nat) (v : Word)
  /-- BAD_ACCESS (R372) -/
  | badAccess (m : Master) (off : Nat) (size : Nat) (acc : Access)
  /-- CLM_CLAIM (R38) -/
  | clmClaim (m : Master) (n : Fin 5) (owner res : Byte)
  /-- CLM_RELEASE (R38) -/
  | clmRelease (m : Master) (n : Fin 5) (owner res : Byte)
  /-- GLB_LOCK_WRITE (R377) -/
  | glbLockWrite (m : Master) (v : Word)
  /-- WARM_RESET (R379) -/
  | warmReset (m : Master) (key : Byte)
  /-- COLD_RESET (R379) -/
  | coldReset (m : Master) (key : Byte)
  /-- TIM_NOW_SEC_LO_READ (R256) -/
  | timNowSecLoRead (m : Master)
  /-- TIM_INCR_HI_WRITE (R255) -/
  | timIncrHiWrite (m : Master) (v : Word)
  /-- TIM_STEP_NS_WRITE (R258) -/
  | timStepNsWrite (m : Master) (v : Word)
  /-- STEP_APPLY (R258) -/
  | stepApply
  /-- TIM_KEY_WRITE (R260) -/
  | timKeyWrite (m : Master) (v : Word)
  /-- KEY_EXPIRY (R260) -/
  | keyExpiry
  /-- DMA_GO (R225) -/
  | dmaGo (m : Master) (n : Fin 12)
  /-- DMA_ABORT (R225) -/
  | dmaAbort (m : Master) (n : Fin 12)
  /-- DMA_RESUME (R226) -/
  | dmaResume (m : Master) (n : Fin 12)
  /-- DMA_EVM_SW (R227) -/
  | dmaEvmSw (m : Master) (v : Word)
  /-- RAS_FP_PEAK_CLR (R114) -/
  | rasFpPeakClr (m : Master) (v : Word)
  /-- ESC_SLIP_PEAK_CLR (R171) -/
  | escSlipPeakClr (m : Master) (v : Word)
  /-- PAD_TJ_PEAK_CLR (R368) -/
  | padTjPeakClr (m : Master) (v : Word)
  /-- RLE_POOL_CLR (R216) -/
  | rlePoolClr (m : Master) (v : Word)
  /-- DOS_PROBE_ARM (R375) -/
  | dosProbeArm (m : Master) (v : Word)
  /-- BAL_CFG_WRITE (R186) -/
  | balCfgWrite (m : Master) (v : Word)
  /-- BAL_SPARE_WRITE (R204) -/
  | balSpareWrite (m : Master) (n : Fin 4) (v : Word)
  /-- BAL_CUT_CLEAR (R198) -/
  | balCutClear (m : Master) (v : Word)
  /-- MBX_POST (R347) -/
  | mbxPost (m : Master) (ch : Fin 48) (v : Word)
  /-- MBX_DONE (R347) -/
  | mbxDone (m : Master) (ch : Fin 48) (v : Word)
  /-- MBX_RING (R353) -/
  | mbxRing (m : Master) (r : Fin 11) (v : Word)
  /-- MBX_ALIVE_WRITE (R344) -/
  | mbxAliveWrite (m : Master) (v : Word)
  /-- MBX_LOCK_WRITE (R346) -/
  | mbxLockWrite (m : Master) (v : Word)
  /-- REPLY_WINDOW_EXPIRY (R349) -/
  | replyWindowExpiry (ch : Fin 48) (slot : Fin 8)
  /-- MOVE_WDOG (R344) -/
  | moveWdog (core : Fin 3)
  /-- MBX_SHM_LOCK_READ (R354) -/
  | mbxShmLockRead (m : Master) (k : Fin 4)
  /-- MBX_SHM_LOCK_RELEASE (R354) -/
  | mbxShmLockRelease (m : Master) (k : Fin 4) (v : Word)
  /-- MBX_SHM_GO (R355) -/
  | mbxShmGo (m : Master) (k : Fin 4) (v : Word)
  /-- SHM_REPLY (R355) -/
  | shmReply (k : Fin 4)
  /-- FUNCTION_RESET (R378) -/
  | functionReset (f : Fin 4) (kind : FnReset)
  /-- ALWAYS_ON_POWER_UP (R33) -/
  | alwaysOnPowerUp (flash : Flash)
  /-- WAKE (R34) -/
  | wake (src : WakeSource)
  /-- AOC_SCHEDULE_ENTRY (R34) -/
  | aocScheduleEntry (toStandby : Bool)
  /-- MAIN_UP (R35) -/
  | mainUp
  /-- PERST_N_RELEASE (R35) -/
  | perstNRelease
  /-- CONFIG_LOAD (R33) -/
  | configLoad (flash : Flash)
  /-- DDR5_BRING_UP (R247) -/
  | ddr5BringUp (found : List DimmFound)
  /-- ZERO_FILL_DONE (R36) -/
  | zeroFillDone
  /-- SEQ_SYNC_RISE (R302) -/
  | seqSyncRise
  /-- RAIL_START (R303) -/
  | railStart (n : Fin 24)
  /-- PG_RISE (R303) -/
  | pgRise (n : Fin 24)
  /-- DEBOUNCE_DONE (R303) -/
  | debounceDone (n : Fin 24)
  /-- PGTO_EXPIRY (R304) -/
  | pgtoExpiry (n : Fin 24)
  /-- PG_FALL (R305) -/
  | pgFall (rails : BitVec 24)
  /-- POWER_DOWN_START (R309) -/
  | powerDownStart
  /-- ADC_SCAN (R314) -/
  | adcScan (volts : List Int)
  /-- DISTO_EXPIRY (R310) -/
  | distoExpiry (n : Fin 24)
  /-- STANDBY_ENTRY (R312) -/
  | standbyEntry
  /-- T_OPEN_REACHED (R43) -/
  | tOpenReached
  /-- RUN_SYNC_FALL (R43) -/
  | runSyncFall
  /-- ARM_DONE (R43) -/
  | armDone
  /-- ARMED_EDGE (R44) -/
  | armedEdge
  /-- COMMIT_STEP_OPEN (R44) -/
  | commitStepOpen
  /-- COMMIT_EDGE (R44) -/
  | commitEdge
  /-- UNARMED_STEP_END (R43) -/
  | unarmedStepEnd
  /-- WINDOW_EXPIRY (R45) -/
  | windowExpiry
  /-- GUARD_END (R45) -/
  | guardEnd
  /-- RUN_SYNC_LONG_LOW (R46) -/
  | runSyncLongLow
  /-- HEARTBEAT_SEND (R270) -/
  | heartbeatSend
  /-- HEARTBEAT_RECEIVE (R270) -/
  | heartbeatReceive (port : Fin 2) (srcMac : Nat) (frame : EthFrame)
  /-- HB_LOSS (R270) -/
  | hbLoss (i : Fin 64)
  /-- DUP_EXPIRY (R270) -/
  | dupExpiry
  /-- QUIET_PERIOD_END (R339) -/
  | quietPeriodEnd
  /-- AUTO_RECOVERY (R339) -/
  | autoRecovery
  /-- PLINK_FRAME (R160) -/
  | plinkFrame (stamp : Nat) (syms : List Byte)
  /-- PLINK_LOCK_CHANGE (R160) -/
  | plinkLockChange (up : Bool)
  /-- ENCODER_SAMPLE (R163) -/
  | encoderSample (t : Nat) (delta : Int) (illegal : Bool)
  /-- SAMPLE_SLOT_MISSING (R174) -/
  | sampleSlotMissing
  /-- DECISION (R166) -/
  | decision
  /-- SHOT_FIRE (R169) -/
  | shotFire
  /-- STALL (R175) -/
  | stall
  /-- BACK_CHANNEL_SEND (R162) -/
  | backChannelSend
  /-- SOS0_EDGE (R179) -/
  | sos0Edge (t : Nat)
  /-- SOS1_EDGE (R180) -/
  | sos1Edge (t : Nat)
  /-- SOS_WINDOW_EXPIRY (R179) -/
  | sosWindowExpiry
  /-- HIT_COMPUTE_DONE (R139) -/
  | hitComputeDone
  /-- FRAME_LATE_CHECK (R191) -/
  | frameLateCheck (left : Bool)
  /-- GROUP_STROBE_RISE (R193) -/
  | groupStrobeRise (g : Fin 16)
  /-- GROUP_STROBE_FALL (R194) -/
  | groupStrobeFall (g : Fin 16)
  /-- STROBE_WATCHDOG (R197) -/
  | strobeWatchdog (g : StuckStrobe)
  /-- IDLE_FRAME_SEND (R190) -/
  | idleFrameSend
  /-- SHOT_STATUS (R203) -/
  | shotStatus (n : Fin 4) (blk : BitVec 64)
  /-- HEALTH (R201) -/
  | health (n : Fin 4) (blk : BitVec 64)
  /-- STATUS_MISSING (R202) -/
  | statusMissing
  /-- BACKCH_LOCK_LOSS (R202) -/
  | backchLockLoss (n : Fin 4)
  /-- BIN_FETCH (R98) -/
  | binFetch (errs : List (Nat × Nat))
  /-- LINE_RENDER (R107) -/
  | lineRender
  /-- LINE_COMMIT (R115) -/
  | lineCommit (verifyOk : Bool)
  /-- READY_BY_WAIT_END (R154) -/
  | readyByWaitEnd (pk : Packet)
  /-- WAIT_US_EXPIRY (R154) -/
  | waitUsExpiry (pk : Packet)
  /-- GEN_FILL_DONE (R151) -/
  | genFillDone (n : Fin 6)
  /-- CHECK_PATTERN_SHOT (R142) -/
  | checkPatternShot
  /-- READING_DONE (R143) -/
  | readingDone (volts : List Int)
  /-- CHECK_RUN_END (R148) -/
  | checkRunEnd
  /-- DMA_BURST (R223) -/
  | dmaBurst (n : Fin 12) (host : HostRead) (errs : List (Nat × Nat))
  /-- DESCRIPTOR_DONE (R224) -/
  | descriptorDone (n : Fin 12)
  /-- DMA_HALT (R226) -/
  | dmaHalt (n : Fin 12) (wr : Bool) (cause : Fin 16) (addr : Nat)
  /-- EVENT_PULSE (R227) -/
  | eventPulse (src : Fin 64)
  /-- RLE1_ITEM (R216) -/
  | rle1Item (verifyOk : Bool)
  /-- SNAPSHOT_WAIT_EXPIRY (R217) -/
  | snapshotWaitExpiry
  /-- COMPRESS_DONE (R218) -/
  | compressDone
  /-- FAULT_RAISE (R327) -/
  | faultRaise (src : Nat)
  /-- WIRE_FAULT (R326) -/
  | wireFault (src : Nat)
  /-- LEVEL_CONDITION_END (R330) -/
  | levelConditionEnd (src : Nat)
  /-- INJECTION_EXPIRY (R341) -/
  | injectionExpiry (src : Nat)
  /-- ALIVE_TOGGLE (R337) -/
  | aliveToggle
  /-- LOCK_WAIT_EXPIRY (R272) -/
  | lockWaitExpiry (g : Fin 6)
  /-- LOSS_OF_REFERENCE (R275) -/
  | lossOfReference (g : Fin 6)
  /-- COAST_END (R275) -/
  | coastEnd (g : Fin 6)
  /-- SHOT_CLOCK_LIMIT (R277) -/
  | shotClockLimit
  /-- CLK_COAST_LIMIT (R276) -/
  | clkCoastLimit (g : Fin 6)
  /-- LINK_COAST (R276) -/
  | linkCoast
  /-- SSC_STOP (R274) -/
  | sscStop
  /-- SYNC_IN_RISE (R281) -/
  | syncInRise (e : Fin 16)
  /-- PPS_EDGE (R280) -/
  | ppsEdge
  /-- TIMEKEEPER_TICK (R254) -/
  | timekeeperTick
  /-- CRYSTAL_EDGE (R262) -/
  | crystalEdge
  /-- TRIM_MEASURE (R262) -/
  | trimMeasure (trim : BitVec 24)
  /-- PTP_MESSAGE_RECEIVE (R265) -/
  | ptpMessageReceive (p : Fin 2) (e : Fin 16) (msg : PtpMsg)
  /-- PTP_MESSAGE_SEND (R267) -/
  | ptpMessageSend (p : Fin 2) (e : Fin 16) (kind : PtpKind)
  /-- ANNOUNCE_TIMEOUT (R269) -/
  | announceTimeout (p : Fin 2)
  /-- PTP_MSG_WAIT_EXPIRY (R269) -/
  | ptpMsgWaitExpiry (p : Fin 2) (kind : PtpKind)
  /-- REFRESH_DUE (R243) -/
  | refreshDue (c : Fin 4) (rank : Fin 2) (ages : Option Nat × Option Nat)
  /-- SCRUB_READ (R240) -/
  | scrubRead (errs : List (Nat × Nat)) (overwritten : Bool)
  /-- DIMM_TEMP_READ (R249) -/
  | dimmTempRead (c : Fin 4) (temp : Option Int)
  /-- ALERT_N (R250) -/
  | alertN (c : Fin 4)
  /-- MICROSTEP (R286) -/
  | microstep (a : Fin 8)
  /-- COARSE_STEP_EDGE (R290) -/
  | coarseStepEdge (a : Fin 8) (forward : Bool) (ticks : Nat)
  /-- LOADFB_PULSE (R292) -/
  | loadfbPulse (a : Fin 8)
  /-- LIMIT_ACTIVE (R296) -/
  | limitActive (a : Fin 8) (positive : Bool) (active : Bool)
  /-- HOME_EDGE (R297) -/
  | homeEdge (a : Fin 8) (active : Bool)
  /-- HOLDDLY_EXPIRY (R291) -/
  | holddlyExpiry (a : Fin 8)
  /-- HEATER_CONTROL_PERIOD (R319) -/
  | heaterControlPeriod (z : Fin 6)
  /-- PWM_PERIOD (R320) -/
  | pwmPeriod (z : Fin 6)
  /-- JTAG_INSTRUCTION (R370) -/
  | jtagInstruction (ev : TapEvent)
  /-- ALWAYS_ON_POWER_LOSS (R18) -/
  | alwaysOnPowerLoss
  /-- STEP_CLOSING_RISE (R45) -/
  | stepClosingRise
  /-- HOST_CLEAR_SERVICE_ENTRY (R340) -/
  | hostClearServiceEntry
  /-- EYE_SCAN_DONE (R248) -/
  | eyeScanDone (res : EyeResult)
  /-- LANE_RATE_CHANGE_DONE (R186) -/
  | laneRateChangeDone
  /-- TP_LINK_CHANGE (R264) -/
  | tpLinkChange (p : Fin 2) (up : Bool)
  /-- FUNCTION_D3HOT_CHANGE (R351) -/
  | functionD3hotChange (f : Fin 4) (d3 : Bool)
  /-- MBX_DBMASK_WRITE (R351) -/
  | mbxDbmaskWrite (m : Master) (i : Fin 11) (v : Word)
  /-- WARM_RESET_WAIT_EXPIRY (R379) -/
  | warmResetWaitExpiry
deriving DecidableEq, Repr

end Sys2Proof
end

