-- ==== Sys2Proof/Machine/Bits.lean ====
section
/-! DEFINITION. Bit fields (R9), little-endian bytes (R54), and the two's-complement readings of R7. -/

namespace Sys2Proof.Machine

/-- `n` bits of `w` from bit `lo` up: the field [lo+n-1:lo] of R9. -/
def bits (w lo n : Nat) : Nat := w / 2 ^ lo % 2 ^ n

/-- Bit `k` of `w`. -/
def bitAt (w k : Nat) : Bool := w.testBit k

/-- `w` with the field of `n` bits from bit `lo` up set to `v` (modulo 2^n). -/
def setBits (w lo n v : Nat) : Nat :=
  w / 2 ^ (lo + n) * 2 ^ (lo + n) + v % 2 ^ n * 2 ^ lo + w % 2 ^ lo

/-- `w` with bit `k` set to `b`. -/
def setBit (w k : Nat) (b : Bool) : Nat := setBits w k 1 (if b then 1 else 0)

/-- A Bool as the bit that shows it. -/
def bit (b : Bool) : Nat := if b then 1 else 0

/-- The bits of `keep` from `a`, the others from `b`, over 32 bits. -/
def mergeBits (keep a b : Nat) : Nat := (a &&& keep) ||| (b &&& (0xFFFFFFFF - keep % 0x100000000))

/-- The two's-complement value of the low `n` bits of `v` (R7). -/
def signed (n v : Nat) : Int :=
  let w := v % 2 ^ n
  if w < 2 ^ (n - 1) then (w : Int) else (w : Int) - 2 ^ n

/-- The low `n` bits of the two's-complement form of `v` (R7). -/
def unsigned (n : Nat) (v : Int) : Nat := (v % (2 ^ n : Int)).toNat

/-- `n` little-endian bytes of `v`. -/
def leBytes : Nat → Nat → List Byte
  | 0, _ => []
  | n + 1, v => BitVec.ofNat 8 v :: leBytes n (v / 256)

/-- The value of little-endian bytes. -/
def leNat : List Byte → Nat
  | [] => 0
  | b :: t => b.toNat + 256 * leNat t

/-- The value of big-endian bytes. -/
def beNat (bs : List Byte) : Nat := bs.foldl (fun a b => 256 * a + b.toNat) 0

/-- `n` big-endian bytes of `v`. -/
def beBytes (n v : Nat) : List Byte := (leBytes n v).reverse

/-- `n` bytes from offset `o`. -/
def slice (bs : List Byte) (o n : Nat) : List Byte := (bs.drop o).take n

/-- The unsigned little-endian field of `n` bytes at offset `o`; bytes beyond the end read as 0. -/
def getU (bs : List Byte) (o n : Nat) : Nat := leNat (slice bs o n)

/-- The signed little-endian field of `n` bytes at offset `o`. -/
def getS (bs : List Byte) (o n : Nat) : Int := signed (8 * n) (getU bs o n)

/-- Signed little-endian bytes. -/
def leBytesS (n : Nat) (v : Int) : List Byte := leBytes n (unsigned (8 * n) v)

/-- `n` zero bytes. -/
def zeros (n : Nat) : List Byte := List.replicate n 0#8

/-- The first offset at or after `o` (counting `i` up from it) that holds a byte that is not 0. -/
def firstNonZero (o : Nat) : List Byte → Option Nat
  | [] => none
  | b :: t => if b = 0#8 then firstNonZero (o + 1) t else some o

/-- The bytes `bs` written over `l` from position `o`. -/
def patch (l : List Byte) (o : Nat) (bs : List Byte) : List Byte :=
  l.take o ++ zeros (o - l.length) ++ bs ++ l.drop (o + bs.length)

/-- Addition that saturates at `top`. -/
def satAdd (top a b : Nat) : Nat := if top ≤ a + b then top else a + b

/-- `List.set` with a function, leaving the list when the index is beyond its end. -/
def updAt {α : Type} (l : List α) (i : Nat) (f : α → α) : List α :=
  match l, i with
  | [], _ => []
  | a :: t, 0 => f a :: t
  | a :: t, i + 1 => a :: updAt t i f

/-- Sums of naturals and of integers. -/
def sumN (l : List Nat) : Nat := l.foldl (· + ·) 0
/-- The sum of integers. -/
def sumI (l : List Int) : Int := l.foldl (· + ·) 0

/-- The nearer end of the range for a value outside it: the reading of a field "taken as the nearest limit". -/
def clampN (v lo hi : Nat) : Nat := if v < lo then lo else if hi < v then hi else v

/-- The lowest set bit index below `n`, if any. -/
def lowBit (w : Nat) : Nat → Option Nat
  | 0 => none
  | n + 1 => match lowBit w n with
    | some k => some k
    | none => if bitAt w n then some n else none

end Sys2Proof.Machine
end

