-- ==== Sys2Proof/Machine/Crc.lean ====
section
/-! DEFINITION. The checksums of the manual: CRC-32C (R77), CRC-32 (R189), CRC-16 (Table 8-1) and CRC-8 (Table 8-5), and
the RS(10,8) code of the job store (R236, R237). -/

namespace Sys2Proof.Machine

/-- `n` steps of a reflected CRC with polynomial `poly`. -/
def crcSteps (poly : Nat) : Nat → Nat → Nat
  | 0, c => c
  | n + 1, c => crcSteps poly n (if c % 2 = 1 then (c / 2) ^^^ poly else c / 2)

/-- A reflected 32-bit CRC over bytes, from a running value. -/
def crcRefl (poly : Nat) (c : Nat) : List Byte → Nat
  | [] => c
  | b :: t => crcRefl poly (crcSteps poly 8 (c ^^^ b.toNat)) t

/-- CRC-32C (R77): reflected polynomial 0x82F6_3B78, initial value 0xFFFF_FFFF, final inversion. -/
def crc32c (bs : List Byte) : Nat := 0xFFFFFFFF ^^^ crcRefl 0x82F63B78 0xFFFFFFFF bs

/-- CRC-32 of IEEE 802.3 (R189): reflected polynomial 0xEDB8_8320. -/
def crc32 (bs : List Byte) : Nat := 0xFFFFFFFF ^^^ crcRefl 0xEDB88320 0xFFFFFFFF bs

/-- `n` steps of an unreflected CRC of `w` bits. -/
def crcUp (w poly : Nat) : Nat → Nat → Nat
  | 0, c => c
  | n + 1, c => crcUp w poly n (if bitAt c (w - 1) then ((2 * c) % 2 ^ w) ^^^ poly else 2 * c % 2 ^ w)

/-- CRC-16 of a PLINK frame (Table 8-1): polynomial 0x1021, initial value 0xFFFF. -/
def crc16 (bs : List Byte) : Nat := bs.foldl (fun c b => crcUp 16 0x1021 8 (c ^^^ (b.toNat * 256))) 0xFFFF

/-- CRC-8 of a DEFL frame (Table 8-5): polynomial 0x07, initial value 0. -/
def crc8 (bs : List Byte) : Nat := bs.foldl (fun c b => crcUp 8 0x07 8 (c ^^^ b.toNat)) 0

/-- Multiplication by α in GF(16) with field polynomial x⁴ + x + 1 (R236). -/
def gfTimesAlpha (a : Nat) : Nat := if 8 ≤ a then (2 * a % 16) ^^^ 3 else 2 * a

/-- α^k in GF(16). -/
def gfPow : Nat → Nat
  | 0 => 1
  | k + 1 => gfTimesAlpha (gfPow k)

/-- Multiplication in GF(16), by the bits of `b`. -/
def gfMul (a b : Nat) : Nat :=
  (if bitAt b 0 then a else 0) ^^^ (if bitAt b 1 then gfTimesAlpha a else 0) ^^^
  (if bitAt b 2 then gfTimesAlpha (gfTimesAlpha a) else 0) ^^^
  (if bitAt b 3 then gfTimesAlpha (gfTimesAlpha (gfTimesAlpha a)) else 0)

/-- c(x) at a point, by Horner from s_0 (R236). -/
def gfEval (x : Nat) (c : List Nat) : Nat := c.foldl (fun a s => gfMul a x ^^^ s) 0

/-- The two check symbols of eight data symbols (R236): the remainder by g(x) = x² + α⁵x + α³. -/
def rsCheck (d : List Nat) : Nat × Nat :=
  d.foldl (fun (r : Nat × Nat) s =>
    let f := s ^^^ r.1
    (r.2 ^^^ gfMul f (gfPow 5), gfMul f (gfPow 3))) (0, 0)

/-- What the decoder of R237 makes of a received codeword of ten symbols. -/
inductive RsResult where
  | clean | corrected (sym : Nat) (data : List Nat) | uncorrectable
deriving DecidableEq, Repr

/-- The decoder of R237: in correct-one mode a single-symbol error is corrected; in detect-only mode none is. -/
def rsDecode (correctOne : Bool) (c : List Nat) : RsResult :=
  let s1 := gfEval (gfPow 1) c
  let s2 := gfEval (gfPow 2) c
  if s1 = 0 ∧ s2 = 0 then .clean
  else if !correctOne then .uncorrectable
  else
    match (List.range 10).find? (fun i => gfMul s1 (gfPow (9 - i)) == s2 && !(s1 == 0)) with
    | none => .uncorrectable
    | some i =>
      match (List.range 16).find? (fun e => gfMul e (gfPow (9 - i)) == s1) with
      | none => .uncorrectable
      | some e => .corrected i (updAt c i (fun v => v ^^^ e))

end Sys2Proof.Machine
end

