-- ==== Sys2Proof/Config.lean ====
section
/-! DEFINITION. What the manual leaves open: free values, and the decoders of image sections whose byte format no rule
gives. Every constant here is opaque: no proof can see a value of it. -/

namespace Sys2Proof

/-- The n-th free value: a value that a rule leaves open (log entry 3). -/
opaque Config.freeValue : Nat → BitVec 32

/-- The FUNC that the PCIe identity section (type 0x0010) gives each queue (R48), if it is well formed. -/
opaque Config.pcieFuncs : List Byte → Option (List (Option (Fin 4)))

/-- The lowest and the highest Requester ID of the peer range that the PCIe identity section sets (R345). -/
opaque Config.pciePeers : List Byte → Nat × Nat

/-- The number of boundary-scan cells: the BSDL file gives it (R357, R369), no rule does. -/
opaque Config.scanCells : Nat

/-- The PAD register values that the pad section (type 0x0011) gives, by BAR0 offset (Table 18-3), if it is well formed. -/
opaque Config.padWrites : List Byte → Option (List (Nat × Nat))

/-- The claims of the claims section (type 0x0015): resource index and owner code (R37), if it is well formed. -/
opaque Config.sectionClaims : List Byte → Option (List (Nat × Nat))

/-- The system indices of the roster section (type 0x001A), if it is well formed. -/
opaque Config.sectionRoster : List Byte → Option (List Nat)

/-- MASTER of DMA channel `4 + i` as an image sets it (Table 10-1 names no section). -/
opaque Config.dmaMaster : List Byte → Nat → Nat

/-- Whether the movement firmware section (type 0x001B) is well formed. -/
opaque Config.firmwareOk : List Byte → Bool

/-- Byte k of the result data of PTP_STATUS, whose layout no rule gives: of the port's state and numbers. -/
opaque Config.ptpStatus : PtpState → List Int → Nat → Byte

/-- The result data of RAIL_STATUS, whose layout no rule gives: of EN, PG, the step counter and the 32 ADC readings. -/
opaque Config.railStatus : Nat → Nat → Nat → List Nat → List Byte

end Sys2Proof
end

