-- ==== Sys2Proof/Machine/RegMap.lean ====
section
/-! DEFINITION. The register map of Table 18-1: the BAR0 offset of every register, its reset value, and which of its
bits have each access type of Table 0-4. One row of `regBlock` stands for one register or array of registers. -/

namespace Sys2Proof.Machine

/-- A register or an array of registers: `n1` by `n2` elements at strides `s1` and `s2`; its reset value, and the bits of
each access type (bits in none of them are RO). `clr`: bits of a W1C count that any 1 clears whole. -/
structure RegInfo where
  base : Nat
  n1 : Nat
  s1 : Nat
  n2 : Nat
  s2 : Nat
  reset : Nat
  rw : Nat
  w1c : Nat
  clr : Nat
  rwl : Nat
  rws : Nat
  wo : Nat
deriving DecidableEq, Repr

/-- GLB_ID (R382, 18_register_map.md). -/
def rGlbId : Nat := 0x0
/-- GLB_REV (R382, 18_register_map.md). -/
def rGlbRev : Nat := 0x4
/-- GLB_MODE (R382, 18_register_map.md). -/
def rGlbMode : Nat := 0x8
/-- GLB_CFG (R382, 18_register_map.md). -/
def rGlbCfg : Nat := 0xC
/-- GLB_VERSION (R382, 18_register_map.md). -/
def rGlbVersion : Nat := 0x10
/-- GLB_DIGEST[n], n = 0–11 (R382, 18_register_map.md). -/
def rGlbDigest (n : Nat) : Nat := 0x20 + 0x4 * n
/-- GLB_LOCK (R382, 18_register_map.md). -/
def rGlbLock : Nat := 0x60
/-- GLB_RESET (R382, 18_register_map.md). -/
def rGlbReset : Nat := 0x64
/-- GLB_RSTCAUSE (R382, 18_register_map.md). -/
def rGlbRstcause : Nat := 0x68
/-- GLB_CELLSEL (R382, 18_register_map.md). -/
def rGlbCellsel : Nat := 0x70
/-- CMD_SQB_LO[n], n = 0–15 (R53, 03_polcon_commands.md). -/
def rCmdSqbLo (n : Nat) : Nat := 0x10100 + 0x20 * n
/-- CMD_SQB_HI[n], n = 0–15 (R53, 03_polcon_commands.md). -/
def rCmdSqbHi (n : Nat) : Nat := 0x10104 + 0x20 * n
/-- CMD_CQB_LO[n], n = 0–15 (R53, 03_polcon_commands.md). -/
def rCmdCqbLo (n : Nat) : Nat := 0x10108 + 0x20 * n
/-- CMD_CQB_HI[n], n = 0–15 (R53, 03_polcon_commands.md). -/
def rCmdCqbHi (n : Nat) : Nat := 0x1010C + 0x20 * n
/-- CMD_QSIZE[n], n = 0–15 (R53, 03_polcon_commands.md). -/
def rCmdQsize (n : Nat) : Nat := 0x10110 + 0x20 * n
/-- CMD_QCTL[n], n = 0–15 (R53, 03_polcon_commands.md). -/
def rCmdQctl (n : Nat) : Nat := 0x10114 + 0x20 * n
/-- CMD_QSTAT[n], n = 0–15 (R53, 03_polcon_commands.md). -/
def rCmdQstat (n : Nat) : Nat := 0x10118 + 0x20 * n
/-- CMD_SQ_TAIL[n], n = 0–15 (R53, 03_polcon_commands.md). -/
def rCmdSqTail (n : Nat) : Nat := 0x11000 + 0x8 * n
/-- CMD_CQ_HEAD[n], n = 0–15 (R53, 03_polcon_commands.md). -/
def rCmdCqHead (n : Nat) : Nat := 0x11004 + 0x8 * n
/-- MBX_LOCK (R355, 16_mailboxes_firmware.md). -/
def rMbxLock : Nat := 0x20000
/-- MBX_EPOCH[n], n = 0–11 (R355, 16_mailboxes_firmware.md). -/
def rMbxEpoch (n : Nat) : Nat := 0x20040 + 0x4 * n
/-- MBX_STATE (R355, 16_mailboxes_firmware.md). -/
def rMbxState : Nat := 0x20080
/-- MBX_ALIVE (R355, 16_mailboxes_firmware.md). -/
def rMbxAlive : Nat := 0x20084
/-- MBX_BIND[n], n = 0–47 (R355, 16_mailboxes_firmware.md). -/
def rMbxBind (n : Nat) : Nat := 0x20100 + 0x4 * n
/-- MBX_POST[n], n = 0–47 (R355, 16_mailboxes_firmware.md). -/
def rMbxPost (n : Nat) : Nat := 0x21240 + 0x400 * n
/-- MBX_CHSTAT[n], n = 0–47 (R355, 16_mailboxes_firmware.md). -/
def rMbxChstat (n : Nat) : Nat := 0x21244 + 0x400 * n
/-- MBX_DONE[n], n = 0–47 (R355, 16_mailboxes_firmware.md). -/
def rMbxDone (n : Nat) : Nat := 0x21248 + 0x400 * n
/-- MBX_SHM_LOCK[n], n = 0–3 (R355, 16_mailboxes_firmware.md). -/
def rMbxShmLock (n : Nat) : Nat := 0x2D200 + 0x400 * n
/-- MBX_SHM_GO[n], n = 0–3 (R355, 16_mailboxes_firmware.md). -/
def rMbxShmGo (n : Nat) : Nat := 0x2D204 + 0x400 * n
/-- MBX_SHM_STAT[n], n = 0–3 (R355, 16_mailboxes_firmware.md). -/
def rMbxShmStat (n : Nat) : Nat := 0x2D208 + 0x400 * n
/-- MBX_DB[n], n = 0–10 (R355, 16_mailboxes_firmware.md). -/
def rMbxDb (n : Nat) : Nat := 0x2E000 + 0x10 * n
/-- MBX_DBMASK[n], n = 0–10 (R355, 16_mailboxes_firmware.md). -/
def rMbxDbmask (n : Nat) : Nat := 0x2E004 + 0x10 * n
/-- MBX_RING[n], n = 0–10 (R355, 16_mailboxes_firmware.md). -/
def rMbxRing (n : Nat) : Nat := 0x2E008 + 0x10 * n
/-- FLT_STAT (R343, 15_faults_availability.md). -/
def rFltStat : Nat := 0x30000
/-- FLT_SEV[n], n = 0–4 (R343, 15_faults_availability.md). -/
def rFltSev (n : Nat) : Nat := 0x30010 + 0x4 * n
/-- FLT_SEL (R343, 15_faults_availability.md). -/
def rFltSel : Nat := 0x30030
/-- FLT_SRC_CFG (R343, 15_faults_availability.md). -/
def rFltSrcCfg : Nat := 0x30034
/-- FLT_SRC_STAT (R343, 15_faults_availability.md). -/
def rFltSrcStat : Nat := 0x30038
/-- FLT_LOG (R343, 15_faults_availability.md). -/
def rFltLog : Nat := 0x30040
/-- FLT_HOLD (R343, 15_faults_availability.md). -/
def rFltHold : Nat := 0x30044
/-- FLT_RECOV (R343, 15_faults_availability.md). -/
def rFltRecov : Nat := 0x30048
/-- FLT_RECOV_CFG (R343, 15_faults_availability.md). -/
def rFltRecovCfg : Nat := 0x3004C
/-- FLT_ALIVE (R343, 15_faults_availability.md). -/
def rFltAlive : Nat := 0x30050
/-- FLT_AV_UP (R343, 15_faults_availability.md). -/
def rFltAvUp : Nat := 0x30060
/-- FLT_AV_DOWN (R343, 15_faults_availability.md). -/
def rFltAvDown : Nat := 0x30064
/-- FLT_AV_EVT (R343, 15_faults_availability.md). -/
def rFltAvEvt : Nat := 0x30068
/-- PWR_RCFG[n], n = 0–23 (R322, 14_power_thermal.md). -/
def rPwrRcfg (n : Nat) : Nat := 0x40000 + 0x20 * n
/-- PWR_RDEP[n], n = 0–23 (R322, 14_power_thermal.md). -/
def rPwrRdep (n : Nat) : Nat := 0x40004 + 0x20 * n
/-- PWR_RTIME[n], n = 0–23 (R322, 14_power_thermal.md). -/
def rPwrRtime (n : Nat) : Nat := 0x40008 + 0x20 * n
/-- PWR_RLIM[n], n = 0–23 (R322, 14_power_thermal.md). -/
def rPwrRlim (n : Nat) : Nat := 0x4000C + 0x20 * n
/-- PWR_ROFF[n], n = 0–23 (R322, 14_power_thermal.md). -/
def rPwrRoff (n : Nat) : Nat := 0x40010 + 0x20 * n
/-- PWR_RSTAT[n], n = 0–23 (R322, 14_power_thermal.md). -/
def rPwrRstat (n : Nat) : Nat := 0x40014 + 0x20 * n
/-- PWR_SEQ (R322, 14_power_thermal.md). -/
def rPwrSeq : Nat := 0x40400
/-- PWR_EN (R322, 14_power_thermal.md). -/
def rPwrEn : Nat := 0x40404
/-- PWR_PG (R322, 14_power_thermal.md). -/
def rPwrPg : Nat := 0x40408
/-- PWR_SNAP (R322, 14_power_thermal.md). -/
def rPwrSnap : Nat := 0x40410
/-- PWR_CNT[n], n = 0–3 (R322, 14_power_thermal.md). -/
def rPwrCnt (n : Nat) : Nat := 0x40420 + 0x4 * n
/-- PWR_ADC[n], n = 0–31 (R322, 14_power_thermal.md). -/
def rPwrAdc (n : Nat) : Nat := 0x40500 + 0x4 * n
/-- THM_CFG[n], n = 0–5 (R322, 14_power_thermal.md). -/
def rThmCfg (n : Nat) : Nat := 0x50000 + 0x40 * n
/-- THM_SP[n], n = 0–5 (R322, 14_power_thermal.md). -/
def rThmSp (n : Nat) : Nat := 0x50004 + 0x40 * n
/-- THM_GAIN[n], n = 0–5 (R322, 14_power_thermal.md). -/
def rThmGain (n : Nat) : Nat := 0x50008 + 0x40 * n
/-- THM_OUT[n], n = 0–5 (R322, 14_power_thermal.md). -/
def rThmOut (n : Nat) : Nat := 0x5000C + 0x40 * n
/-- THM_PWM[n], n = 0–5 (R322, 14_power_thermal.md). -/
def rThmPwm (n : Nat) : Nat := 0x50010 + 0x40 * n
/-- THM_STAT[n], n = 0–5 (R322, 14_power_thermal.md). -/
def rThmStat (n : Nat) : Nat := 0x50014 + 0x40 * n
/-- THM_DUTY[n], n = 0–5 (R322, 14_power_thermal.md). -/
def rThmDuty (n : Nat) : Nat := 0x50018 + 0x40 * n
/-- THM_CAL[z][k] (R322, 14_power_thermal.md). -/
def rThmCal (z k : Nat) : Nat := 0x50400 + 0x50 * z + 0x4 * k
/-- CLK_PLL[n], n = 0–5 (R282, 12_time_clocks.md). -/
def rClkPll (n : Nat) : Nat := 0x60000 + 0x10 * n
/-- CLK_SSC (R282, 12_time_clocks.md). -/
def rClkSsc : Nat := 0x60080
/-- CLK_STAT (R282, 12_time_clocks.md). -/
def rClkStat : Nat := 0x60090
/-- CLK_OUT[n], n = 0–3 (R282, 12_time_clocks.md). -/
def rClkOut (n : Nat) : Nat := 0x600A0 + 0x4 * n
/-- TIM_NOW_SEC_LO (R282, 12_time_clocks.md). -/
def rTimNowSecLo : Nat := 0x70000
/-- TIM_NOW_SEC_HI (R282, 12_time_clocks.md). -/
def rTimNowSecHi : Nat := 0x70004
/-- TIM_NOW_NS (R282, 12_time_clocks.md). -/
def rTimNowNs : Nat := 0x70008
/-- TIM_NOW_FRAC (R282, 12_time_clocks.md). -/
def rTimNowFrac : Nat := 0x7000C
/-- TIM_INCR_LO (R282, 12_time_clocks.md). -/
def rTimIncrLo : Nat := 0x70010
/-- TIM_INCR_HI (R282, 12_time_clocks.md). -/
def rTimIncrHi : Nat := 0x70014
/-- TIM_STEP_SEC_LO (R282, 12_time_clocks.md). -/
def rTimStepSecLo : Nat := 0x70018
/-- TIM_STEP_SEC_HI (R282, 12_time_clocks.md). -/
def rTimStepSecHi : Nat := 0x7001C
/-- TIM_STEP_NS (R282, 12_time_clocks.md). -/
def rTimStepNs : Nat := 0x70020
/-- TIM_JMAX (R282, 12_time_clocks.md). -/
def rTimJmax : Nat := 0x70024
/-- TIM_KEY (R282, 12_time_clocks.md). -/
def rTimKey : Nat := 0x70028
/-- TIM_STAT (R282, 12_time_clocks.md). -/
def rTimStat : Nat := 0x7002C
/-- TIM_RTC_TRIM (R282, 12_time_clocks.md). -/
def rTimRtcTrim : Nat := 0x70030
/-- TIM_SYNC_NS (R282, 12_time_clocks.md). -/
def rTimSyncNs : Nat := 0x70034
/-- TIM_PCFG[n], n = 0–1 (R282, 12_time_clocks.md). -/
def rTimPcfg (n : Nat) : Nat := 0x70100 + 0x20 * n
/-- TIM_PINT[n], n = 0–1 (R282, 12_time_clocks.md). -/
def rTimPint (n : Nat) : Nat := 0x70104 + 0x20 * n
/-- TIM_IGL[n], n = 0–1 (R282, 12_time_clocks.md). -/
def rTimIgl (n : Nat) : Nat := 0x70108 + 0x20 * n
/-- TIM_EGL[n], n = 0–1 (R282, 12_time_clocks.md). -/
def rTimEgl (n : Nat) : Nat := 0x7010C + 0x20 * n
/-- TIM_ASYM[n], n = 0–1 (R282, 12_time_clocks.md). -/
def rTimAsym (n : Nat) : Nat := 0x70110 + 0x20 * n
/-- ESC_CFG (R184, 08_escapement_position.md). -/
def rEscCfg : Nat := 0x80000
/-- ESC_TS (R184, 08_escapement_position.md). -/
def rEscTs : Nat := 0x80004
/-- ESC_LAT (R184, 08_escapement_position.md). -/
def rEscLat : Nat := 0x80008
/-- ESC_YOFF_LO (R184, 08_escapement_position.md). -/
def rEscYoffLo : Nat := 0x80010
/-- ESC_YOFF_HI (R184, 08_escapement_position.md). -/
def rEscYoffHi : Nat := 0x80014
/-- ESC_XOFF_LO (R184, 08_escapement_position.md). -/
def rEscXoffLo : Nat := 0x80018
/-- ESC_XOFF_HI (R184, 08_escapement_position.md). -/
def rEscXoffHi : Nat := 0x8001C
/-- ESC_SLIPMAX (R184, 08_escapement_position.md). -/
def rEscSlipmax : Nat := 0x80020
/-- ESC_REVTOL (R184, 08_escapement_position.md). -/
def rEscRevtol : Nat := 0x80024
/-- ESC_TRK (R184, 08_escapement_position.md). -/
def rEscTrk : Nat := 0x80028
/-- ESC_ENC_SCALE (R184, 08_escapement_position.md). -/
def rEscEncScale : Nat := 0x8002C
/-- ESC_STAT (R184, 08_escapement_position.md). -/
def rEscStat : Nat := 0x80040
/-- ESC_SLIP (R184, 08_escapement_position.md). -/
def rEscSlip : Nat := 0x80044
/-- ESC_SLIP_PEAK (R184, 08_escapement_position.md). -/
def rEscSlipPeak : Nat := 0x80048
/-- ESC_SHOT (R184, 08_escapement_position.md). -/
def rEscShot : Nat := 0x8004C
/-- ESC_CNT[n], n = 0–7 (R184, 08_escapement_position.md). -/
def rEscCnt (n : Nat) : Nat := 0x80060 + 0x4 * n
/-- ESC_SCFG (R184, 08_escapement_position.md). -/
def rEscScfg : Nat := 0x80080
/-- ESC_SDLY (R184, 08_escapement_position.md). -/
def rEscSdly : Nat := 0x80084
/-- ESC_PIXP (R184, 08_escapement_position.md). -/
def rEscPixp : Nat := 0x80088
/-- ESC_FACET (R184, 08_escapement_position.md). -/
def rEscFacet : Nat := 0x8008C
/-- LAY_STAT (R121, 05_rendering_footprint.md). -/
def rLayStat : Nat := 0x90000
/-- LAY_ERR (R121, 05_rendering_footprint.md). -/
def rLayErr : Nat := 0x90004
/-- RAS_LINE (R121, 05_rendering_footprint.md). -/
def rRasLine : Nat := 0xA0000
/-- RAS_FP_USED (R121, 05_rendering_footprint.md). -/
def rRasFpUsed : Nat := 0xA0008
/-- RAS_FP_PEAK (R121, 05_rendering_footprint.md). -/
def rRasFpPeak : Nat := 0xA000C
/-- RAS_CNT[n], n = 0–7 (R121, 05_rendering_footprint.md). -/
def rRasCnt (n : Nat) : Nat := 0xA0020 + 0x4 * n
/-- DOS_GEN (R140, 06_dose_arithmetic.md). -/
def rDosGen : Nat := 0xB0000
/-- DOS_STAT (R140, 06_dose_arithmetic.md). -/
def rDosStat : Nat := 0xB0004
/-- DOS_CNT[n], n = 0–7 (R140, 06_dose_arithmetic.md). -/
def rDosCnt (n : Nat) : Nat := 0xB0020 + 0x4 * n
/-- DOS_PROBE_SEL (R140, 06_dose_arithmetic.md). -/
def rDosProbeSel : Nat := 0xB0040
/-- DOS_PROBE_VAL (R140, 06_dose_arithmetic.md). -/
def rDosProbeVal : Nat := 0xB0044
/-- DOS_PROBE_Q (R140, 06_dose_arithmetic.md). -/
def rDosProbeQ : Nat := 0xB0048
/-- DOS_PROBE_SHOT (R140, 06_dose_arithmetic.md). -/
def rDosProbeShot : Nat := 0xB004C
/-- DOS_PROBE_TP (R140, 06_dose_arithmetic.md). -/
def rDosProbeTp : Nat := 0xB0050
/-- BMH_LEVELS (R157, 07_beam_health.md). -/
def rBmhLevels : Nat := 0xC0000
/-- BMH_THR (R157, 07_beam_health.md). -/
def rBmhThr : Nat := 0xC0004
/-- BMH_PACE (R157, 07_beam_health.md). -/
def rBmhPace : Nat := 0xC0008
/-- BMH_RUN (R157, 07_beam_health.md). -/
def rBmhRun : Nat := 0xC0010
/-- BMH_RUN_ID (R157, 07_beam_health.md). -/
def rBmhRunId : Nat := 0xC0014
/-- BMH_DARK[n], n = 0–7 (R157, 07_beam_health.md). -/
def rBmhDark (n : Nat) : Nat := 0xC0020 + 0x4 * n
/-- BMH_GEN[n], n = 0–5 (R157, 07_beam_health.md). -/
def rBmhGen (n : Nat) : Nat := 0xC0080 + 0x4 * n
/-- BMH_CNT[n], n = 0–3 (R157, 07_beam_health.md). -/
def rBmhCnt (n : Nat) : Nat := 0xC00C0 + 0x4 * n
/-- BAL_CFG (R211, 09_beam_outputs_firing.md). -/
def rBalCfg : Nat := 0xD0000
/-- BAL_TXEQ (R211, 09_beam_outputs_firing.md). -/
def rBalTxeq : Nat := 0xD0004
/-- BAL_STB (R211, 09_beam_outputs_firing.md). -/
def rBalStb : Nat := 0xD0008
/-- BAL_WDOG (R211, 09_beam_outputs_firing.md). -/
def rBalWdog : Nat := 0xD000C
/-- BAL_STAT (R211, 09_beam_outputs_firing.md). -/
def rBalStat : Nat := 0xD0010
/-- BAL_CUT (R211, 09_beam_outputs_firing.md). -/
def rBalCut : Nat := 0xD0014
/-- BAL_SPARE[n], n = 0–3 (R211, 09_beam_outputs_firing.md). -/
def rBalSpare (n : Nat) : Nat := 0xD0020 + 0x4 * n
/-- BAL_SPARE_CFG (R211, 09_beam_outputs_firing.md). -/
def rBalSpareCfg : Nat := 0xD0030
/-- BAL_GSKEW[n], n = 0–15 (R211, 09_beam_outputs_firing.md). -/
def rBalGskew (n : Nat) : Nat := 0xD0040 + 0x4 * n
/-- BAL_PLATE[n], n = 0–3 (R211, 09_beam_outputs_firing.md). -/
def rBalPlate (n : Nat) : Nat := 0xD0080 + 0x4 * n
/-- BAL_CNT[n], n = 0–7 (R211, 09_beam_outputs_firing.md). -/
def rBalCnt (n : Nat) : Nat := 0xD00A0 + 0x4 * n
/-- BAL_LERR[n], n = 0–63 (R211, 09_beam_outputs_firing.md). -/
def rBalLerr (n : Nat) : Nat := 0xD0100 + 0x4 * n
/-- SCN_CFG (R211, 09_beam_outputs_firing.md). -/
def rScnCfg : Nat := 0xE0000
/-- SCN_STAT (R211, 09_beam_outputs_firing.md). -/
def rScnStat : Nat := 0xE0004
/-- SCN_CNT[n], n = 0–3 (R211, 09_beam_outputs_firing.md). -/
def rScnCnt (n : Nat) : Nat := 0xE0020 + 0x4 * n
/-- RLE_STAT[n], n = 0–1 (R233, 10_rle_dma.md). -/
def rRleStat (n : Nat) : Nat := 0xF0000 + 0x4 * n
/-- RLE_POOL (R233, 10_rle_dma.md). -/
def rRlePool : Nat := 0xF0010
/-- RLE_CNT[n], n = 0–7 (R233, 10_rle_dma.md). -/
def rRleCnt (n : Nat) : Nat := 0xF0020 + 0x4 * n
/-- DMA_CTL[n], n = 0–11 (R233, 10_rle_dma.md). -/
def rDmaCtl (n : Nat) : Nat := 0x100000 + 0x80 * n
/-- DMA_STAT[n], n = 0–11 (R233, 10_rle_dma.md). -/
def rDmaStat (n : Nat) : Nat := 0x100004 + 0x80 * n
/-- DMA_DCTL[n], n = 0–11 (R233, 10_rle_dma.md). -/
def rDmaDctl (n : Nat) : Nat := 0x100008 + 0x80 * n
/-- DMA_SRC_LO[n], n = 0–11 (R233, 10_rle_dma.md). -/
def rDmaSrcLo (n : Nat) : Nat := 0x10000C + 0x80 * n
/-- DMA_SRC_HI[n], n = 0–11 (R233, 10_rle_dma.md). -/
def rDmaSrcHi (n : Nat) : Nat := 0x100010 + 0x80 * n
/-- DMA_DST_LO[n], n = 0–11 (R233, 10_rle_dma.md). -/
def rDmaDstLo (n : Nat) : Nat := 0x100014 + 0x80 * n
/-- DMA_DST_HI[n], n = 0–11 (R233, 10_rle_dma.md). -/
def rDmaDstHi (n : Nat) : Nat := 0x100018 + 0x80 * n
/-- DMA_CNT01[n], n = 0–11 (R233, 10_rle_dma.md). -/
def rDmaCnt01 (n : Nat) : Nat := 0x10001C + 0x80 * n
/-- DMA_CNT2[n], n = 0–11 (R233, 10_rle_dma.md). -/
def rDmaCnt2 (n : Nat) : Nat := 0x100020 + 0x80 * n
/-- DMA_SS0[n], n = 0–11 (R233, 10_rle_dma.md). -/
def rDmaSs0 (n : Nat) : Nat := 0x100024 + 0x80 * n
/-- DMA_SS1[n], n = 0–11 (R233, 10_rle_dma.md). -/
def rDmaSs1 (n : Nat) : Nat := 0x100028 + 0x80 * n
/-- DMA_SS2[n], n = 0–11 (R233, 10_rle_dma.md). -/
def rDmaSs2 (n : Nat) : Nat := 0x10002C + 0x80 * n
/-- DMA_DS0[n], n = 0–11 (R233, 10_rle_dma.md). -/
def rDmaDs0 (n : Nat) : Nat := 0x100030 + 0x80 * n
/-- DMA_DS1[n], n = 0–11 (R233, 10_rle_dma.md). -/
def rDmaDs1 (n : Nat) : Nat := 0x100034 + 0x80 * n
/-- DMA_DS2[n], n = 0–11 (R233, 10_rle_dma.md). -/
def rDmaDs2 (n : Nat) : Nat := 0x100038 + 0x80 * n
/-- DMA_ESP[n], n = 0–11 (R233, 10_rle_dma.md). -/
def rDmaEsp (n : Nat) : Nat := 0x10003C + 0x80 * n
/-- DMA_NEXT_LO[n], n = 0–11 (R233, 10_rle_dma.md). -/
def rDmaNextLo (n : Nat) : Nat := 0x100040 + 0x80 * n
/-- DMA_NEXT_HI[n], n = 0–11 (R233, 10_rle_dma.md). -/
def rDmaNextHi (n : Nat) : Nat := 0x100044 + 0x80 * n
/-- DMA_ERRA_LO[n], n = 0–11 (R233, 10_rle_dma.md). -/
def rDmaErraLo (n : Nat) : Nat := 0x100048 + 0x80 * n
/-- DMA_ERRA_HI[n], n = 0–11 (R233, 10_rle_dma.md). -/
def rDmaErraHi (n : Nat) : Nat := 0x10004C + 0x80 * n
/-- DMA_CRC[n], n = 0–11 (R233, 10_rle_dma.md). -/
def rDmaCrc (n : Nat) : Nat := 0x100050 + 0x80 * n
/-- DMA_EVM_SEL[n], n = 0–16 (R233, 10_rle_dma.md). -/
def rDmaEvmSel (n : Nat) : Nat := 0x100800 + 0x4 * n
/-- DMA_EVM_OVR (R233, 10_rle_dma.md). -/
def rDmaEvmOvr : Nat := 0x100880
/-- DMA_EVM_SW (R233, 10_rle_dma.md). -/
def rDmaEvmSw : Nat := 0x100884
/-- MEM_CFG (R253, 11_memory.md). -/
def rMemCfg : Nat := 0x110000
/-- MEM_STAT (R253, 11_memory.md). -/
def rMemStat : Nat := 0x110004
/-- MEM_QOS[n], n = 0–7 (R253, 11_memory.md). -/
def rMemQos (n : Nat) : Nat := 0x110020 + 0x4 * n
/-- MEM_SCRUB (R253, 11_memory.md). -/
def rMemScrub : Nat := 0x110040
/-- MEM_TEMP[n], n = 0–3 (R253, 11_memory.md). -/
def rMemTemp (n : Nat) : Nat := 0x110050 + 0x4 * n
/-- MEM_ERRA_LO (R253, 11_memory.md). -/
def rMemErraLo : Nat := 0x110060
/-- MEM_ERRA_HI (R253, 11_memory.md). -/
def rMemErraHi : Nat := 0x110064
/-- MEM_DEVFAIL[n], n = 0–7 (R253, 11_memory.md). -/
def rMemDevfail (n : Nat) : Nat := 0x110070 + 0x4 * n
/-- MEM_POSCNT_SEL (R253, 11_memory.md). -/
def rMemPoscntSel : Nat := 0x110090
/-- MEM_POSCNT (R253, 11_memory.md). -/
def rMemPoscnt : Nat := 0x110094
/-- MEM_CNT[n], n = 0–7 (R253, 11_memory.md). -/
def rMemCnt (n : Nat) : Nat := 0x1100A0 + 0x4 * n
/-- MOT_CFG[n], n = 0–7 (R299, 13_motion_axes.md). -/
def rMotCfg (n : Nat) : Nat := 0x120000 + 0x80 * n
/-- MOT_VSTART[n], n = 0–7 (R299, 13_motion_axes.md). -/
def rMotVstart (n : Nat) : Nat := 0x120004 + 0x80 * n
/-- MOT_VMAX[n], n = 0–7 (R299, 13_motion_axes.md). -/
def rMotVmax (n : Nat) : Nat := 0x120008 + 0x80 * n
/-- MOT_ACC[n], n = 0–7 (R299, 13_motion_axes.md). -/
def rMotAcc (n : Nat) : Nat := 0x12000C + 0x80 * n
/-- MOT_DEC[n], n = 0–7 (R299, 13_motion_axes.md). -/
def rMotDec (n : Nat) : Nat := 0x120010 + 0x80 * n
/-- MOT_JERK[n], n = 0–7 (R299, 13_motion_axes.md). -/
def rMotJerk (n : Nat) : Nat := 0x120014 + 0x80 * n
/-- MOT_CUR[n], n = 0–7 (R299, 13_motion_axes.md). -/
def rMotCur (n : Nat) : Nat := 0x120018 + 0x80 * n
/-- MOT_LOAD[n], n = 0–7 (R299, 13_motion_axes.md). -/
def rMotLoad (n : Nat) : Nat := 0x12001C + 0x80 * n
/-- MOT_HOMEV[n], n = 0–7 (R299, 13_motion_axes.md). -/
def rMotHomev (n : Nat) : Nat := 0x120020 + 0x80 * n
/-- MOT_BACKOFF[n], n = 0–7 (R299, 13_motion_axes.md). -/
def rMotBackoff (n : Nat) : Nat := 0x120024 + 0x80 * n
/-- MOT_STAT[n], n = 0–7 (R299, 13_motion_axes.md). -/
def rMotStat (n : Nat) : Nat := 0x120040 + 0x80 * n
/-- MOT_POS[n], n = 0–7 (R299, 13_motion_axes.md). -/
def rMotPos (n : Nat) : Nat := 0x120044 + 0x80 * n
/-- MOT_TARGET[n], n = 0–7 (R299, 13_motion_axes.md). -/
def rMotTarget (n : Nat) : Nat := 0x120048 + 0x80 * n
/-- MOT_REMAIN[n], n = 0–7 (R299, 13_motion_axes.md). -/
def rMotRemain (n : Nat) : Nat := 0x12004C + 0x80 * n
/-- MOT_IVL[n], n = 0–7 (R299, 13_motion_axes.md). -/
def rMotIvl (n : Nat) : Nat := 0x120050 + 0x80 * n
/-- MOT_TIM[n], n = 0–7 (R299, 13_motion_axes.md). -/
def rMotTim (n : Nat) : Nat := 0x120054 + 0x80 * n
/-- MOT_INDEX[n], n = 0–7 (R299, 13_motion_axes.md). -/
def rMotIndex (n : Nat) : Nat := 0x120058 + 0x80 * n
/-- MOT_CNT[n], n = 0–3 (R299, 13_motion_axes.md). -/
def rMotCnt (n : Nat) : Nat := 0x120400 + 0x4 * n
/-- PAD_GPIO_CFG[n], n = 0–47 (R370, 17_pins_electrical.md). -/
def rPadGpioCfg (n : Nat) : Nat := 0x130000 + 0x4 * n
/-- PAD_OSLEW (R370, 17_pins_electrical.md). -/
def rPadOslew : Nat := 0x130100
/-- PAD_FILT (R370, 17_pins_electrical.md). -/
def rPadFilt : Nat := 0x130110
/-- PAD_TJ (R370, 17_pins_electrical.md). -/
def rPadTj : Nat := 0x130120
/-- PAD_TJ_PEAK (R370, 17_pins_electrical.md). -/
def rPadTjPeak : Nat := 0x130124
/-- CLM_LAST (R41, 02_modes_configuration.md). -/
def rClmLast : Nat := 0x140010
/-- CLM_NCONF (R41, 02_modes_configuration.md). -/
def rClmNconf : Nat := 0x140014
/-- CLM_REQ[n], n = 0–4 (R41, 02_modes_configuration.md). -/
def rClmReq (n : Nat) : Nat := 0x140020 + 0x4 * n
/-- CLM_RESULT[n], n = 0–4 (R41, 02_modes_configuration.md). -/
def rClmResult (n : Nat) : Nat := 0x140040 + 0x4 * n
/-- CLM_ENTRY[n], n = 0–19 (R41, 02_modes_configuration.md). -/
def rClmEntry (n : Nat) : Nat := 0x140100 + 0x4 * n

/-- The registers of block 0. -/
def regBlock0 : List RegInfo :=
  [⟨0x0, 1, 0x0, 1, 0x0, 0x4E5A0262, 0x0, 0x0, 0x0, 0x0, 0x0, 0x0⟩,
   ⟨0x4, 1, 0x0, 1, 0x0, 0xA0, 0x0, 0x0, 0x0, 0x0, 0x0, 0x0⟩,
   ⟨0x8, 1, 0x0, 1, 0x0, 0x0, 0x0, 0x0, 0x0, 0x0, 0x0, 0x0⟩,
   ⟨0xC, 1, 0x0, 1, 0x0, 0x0, 0x0, 0x0, 0x0, 0x0, 0x0, 0x0⟩,
   ⟨0x10, 1, 0x0, 1, 0x0, 0x0, 0x0, 0x0, 0x0, 0x0, 0x0, 0x0⟩,
   ⟨0x20, 12, 0x4, 1, 0x0, 0x0, 0x0, 0x0, 0x0, 0x0, 0x0, 0x0⟩,
   ⟨0x60, 1, 0x0, 1, 0x0, 0x0, 0x0, 0x0, 0x0, 0x1FFFFB, 0x0, 0x0⟩,
   ⟨0x64, 1, 0x0, 1, 0x0, 0x0, 0x0, 0x0, 0x0, 0x0, 0x0, 0xFF03⟩,
   ⟨0x68, 1, 0x0, 1, 0x0, 0x10000000, 0x0, 0x0, 0x0, 0x0, 0x0, 0x0⟩,
   ⟨0x70, 1, 0x0, 1, 0x0, 0x0, 0xFF, 0x0, 0x0, 0x0, 0x0, 0x0⟩]

/-- The registers of block 1. -/
def regBlock1 : List RegInfo :=
  [⟨0x10100, 16, 0x20, 1, 0x0, 0x0, 0xFFFFF000, 0x0, 0x0, 0x0, 0x0, 0x0⟩,
   ⟨0x10104, 16, 0x20, 1, 0x0, 0x0, 0xFFFFFFFF, 0x0, 0x0, 0x0, 0x0, 0x0⟩,
   ⟨0x10108, 16, 0x20, 1, 0x0, 0x0, 0xFFFFF000, 0x0, 0x0, 0x0, 0x0, 0x0⟩,
   ⟨0x1010C, 16, 0x20, 1, 0x0, 0x0, 0xFFFFFFFF, 0x0, 0x0, 0x0, 0x0, 0x0⟩,
   ⟨0x10110, 16, 0x20, 1, 0x0, 0xF000F, 0xFFF0FFF, 0x0, 0x0, 0x0, 0x0, 0x0⟩,
   ⟨0x10114, 16, 0x20, 1, 0x0, 0x0, 0x8000013F, 0x0, 0x0, 0x3000000, 0x0, 0x0⟩,
   ⟨0x10118, 16, 0x20, 1, 0x0, 0x0, 0x0, 0x0, 0x0, 0x0, 0x0, 0x0⟩,
   ⟨0x11000, 16, 0x8, 1, 0x0, 0x0, 0xFFF, 0x0, 0x0, 0x0, 0x0, 0x0⟩,
   ⟨0x11004, 16, 0x8, 1, 0x0, 0x0, 0xFFF, 0x0, 0x0, 0x0, 0x0, 0x0⟩]

/-- The registers of block 2. -/
def regBlock2 : List RegInfo :=
  [⟨0x20000, 1, 0x0, 1, 0x0, 0x0, 0x1, 0x0, 0x0, 0x0, 0x0, 0x0⟩,
   ⟨0x20040, 12, 0x4, 1, 0x0, 0x0, 0x0, 0x0, 0x0, 0x0, 0x0, 0x0⟩,
   ⟨0x20080, 1, 0x0, 1, 0x0, 0x0, 0x0, 0x0, 0x0, 0x0, 0x0, 0x0⟩,
   ⟨0x20084, 1, 0x0, 1, 0x0, 0x0, 0x0, 0x0, 0x0, 0x0, 0x0, 0x7⟩,
   ⟨0x20100, 48, 0x4, 1, 0x0, 0x14, 0x0, 0x0, 0x0, 0x8FF1FFFF, 0x0, 0x0⟩,
   ⟨0x21240, 48, 0x400, 1, 0x0, 0x0, 0x0, 0x0, 0x0, 0x0, 0x0, 0xFF3FFF3F⟩,
   ⟨0x21244, 48, 0x400, 1, 0x0, 0x0, 0x0, 0xE0000000, 0x0, 0x0, 0x0, 0x0⟩,
   ⟨0x21248, 48, 0x400, 1, 0x0, 0x0, 0x0, 0x0, 0x0, 0x0, 0x0, 0x1⟩,
   ⟨0x2D200, 4, 0x400, 1, 0x0, 0x0, 0xF, 0x0, 0x0, 0x0, 0x0, 0x0⟩,
   ⟨0x2D204, 4, 0x400, 1, 0x0, 0x0, 0x0, 0x0, 0x0, 0x0, 0x0, 0x1⟩,
   ⟨0x2D208, 4, 0x400, 1, 0x0, 0x0, 0x0, 0x60000000, 0x0, 0x0, 0x0, 0x0⟩,
   ⟨0x2E000, 11, 0x10, 1, 0x0, 0x0, 0x0, 0xFFFFFFFF, 0x0, 0x0, 0x0, 0x0⟩,
   ⟨0x2E004, 11, 0x10, 1, 0x0, 0x0, 0xFFFFFFFF, 0x0, 0x0, 0x0, 0x0, 0x0⟩,
   ⟨0x2E008, 11, 0x10, 1, 0x0, 0x0, 0x0, 0x0, 0x0, 0x0, 0x0, 0xFFFFFFFF⟩]

/-- The registers of block 3. -/
def regBlock3 : List RegInfo :=
  [⟨0x30000, 1, 0x0, 1, 0x0, 0x0, 0x0, 0x0, 0x0, 0x0, 0x0, 0x0⟩,
   ⟨0x30010, 5, 0x4, 1, 0x0, 0x0, 0x0, 0x0, 0x0, 0x0, 0x0, 0x0⟩,
   ⟨0x30030, 1, 0x0, 1, 0x0, 0x0, 0x7FF, 0x0, 0x0, 0x0, 0x0, 0x0⟩,
   ⟨0x30034, 1, 0x0, 1, 0x0, 0x0, 0x0, 0x0, 0x0, 0x0, 0x0, 0x0⟩,
   ⟨0x30038, 1, 0x0, 1, 0x0, 0x0, 0x0, 0x0, 0x0, 0x0, 0x0, 0x0⟩,
   ⟨0x30040, 1, 0x0, 1, 0x0, 0x0, 0x0, 0x0, 0x0, 0x0, 0x0, 0x0⟩,
   ⟨0x30044, 1, 0x0, 1, 0x0, 0x0, 0x0, 0x0, 0x0, 0x0, 0x0, 0x0⟩,
   ⟨0x30048, 1, 0x0, 1, 0x0, 0x0, 0x0, 0x0, 0x0, 0x0, 0x0, 0x0⟩,
   ⟨0x3004C, 1, 0x0, 1, 0x0, 0x800800C8, 0x80FFFFFF, 0x0, 0x0, 0x0, 0x0, 0x0⟩,
   ⟨0x30050, 1, 0x0, 1, 0x0, 0x3E8, 0xFFFF, 0x0, 0x0, 0x0, 0x0, 0x0⟩,
   ⟨0x30060, 1, 0x0, 1, 0x0, 0x0, 0x0, 0x0, 0x0, 0x0, 0x0, 0x0⟩,
   ⟨0x30064, 1, 0x0, 1, 0x0, 0x0, 0x0, 0x0, 0x0, 0x0, 0x0, 0x0⟩,
   ⟨0x30068, 1, 0x0, 1, 0x0, 0x0, 0x0, 0x0, 0x0, 0x0, 0x0, 0x0⟩]

/-- The registers of block 4. -/
def regBlock4 : List RegInfo :=
  [⟨0x40000, 24, 0x20, 1, 0x0, 0x1F0000, 0x0, 0x0, 0x0, 0xFC1F3F00, 0x0, 0x0⟩,
   ⟨0x40004, 24, 0x20, 1, 0x0, 0x0, 0x0, 0x0, 0x0, 0xFFFFFF, 0x0, 0x0⟩,
   ⟨0x40008, 24, 0x20, 1, 0x0, 0x51430, 0x0, 0x0, 0x0, 0xFFFFFFF0, 0x0, 0x0⟩,
   ⟨0x4000C, 24, 0x20, 1, 0x0, 0xA0064, 0x0, 0x0, 0x0, 0xFFFFFFFF, 0x0, 0x0⟩,
   ⟨0x40010, 24, 0x20, 1, 0x0, 0x100, 0x0, 0x0, 0x0, 0xFFF, 0x0, 0x0⟩,
   ⟨0x40014, 24, 0x20, 1, 0x0, 0x0, 0x0, 0x0, 0x0, 0x0, 0x0, 0x0⟩,
   ⟨0x40400, 1, 0x0, 1, 0x0, 0x0, 0x0, 0x0, 0x0, 0x0, 0x0, 0x0⟩,
   ⟨0x40404, 1, 0x0, 1, 0x0, 0x0, 0x0, 0x0, 0x0, 0x0, 0x0, 0x0⟩,
   ⟨0x40408, 1, 0x0, 1, 0x0, 0x0, 0x0, 0x0, 0x0, 0x0, 0x0, 0x0⟩,
   ⟨0x40410, 1, 0x0, 1, 0x0, 0x0, 0x0, 0x80000000, 0x0, 0x0, 0x0, 0x0⟩,
   ⟨0x40420, 4, 0x4, 1, 0x0, 0x0, 0x0, 0x0, 0xFFFFFFFF, 0x0, 0x0, 0x0⟩,
   ⟨0x40500, 32, 0x4, 1, 0x0, 0x0, 0x0, 0x0, 0x0, 0x0, 0x0, 0x0⟩]

/-- The registers of block 5. -/
def regBlock5 : List RegInfo :=
  [⟨0x50000, 6, 0x40, 1, 0x0, 0x1F0001F, 0xC1F0001F, 0x0, 0x0, 0x0, 0x0, 0x0⟩,
   ⟨0x50004, 6, 0x40, 1, 0x0, 0x27100000, 0xFFFFFFFF, 0x0, 0x0, 0x0, 0x0, 0x0⟩,
   ⟨0x50008, 6, 0x40, 1, 0x0, 0x0, 0xFFFFFFFF, 0x0, 0x0, 0x0, 0x0, 0x0⟩,
   ⟨0x5000C, 6, 0x40, 1, 0x0, 0x80000000, 0xFFFF0000, 0x0, 0x0, 0x0, 0x0, 0x0⟩,
   ⟨0x50010, 6, 0x40, 1, 0x0, 0xA0061A8, 0xFF03FFFF, 0x0, 0x0, 0x0, 0x0, 0x0⟩,
   ⟨0x50014, 6, 0x40, 1, 0x0, 0x0, 0x0, 0x0, 0x0, 0x0, 0x0, 0x0⟩,
   ⟨0x50018, 6, 0x40, 1, 0x0, 0x0, 0x0, 0x0, 0x0, 0x0, 0x0, 0x0⟩,
   ⟨0x50400, 6, 0x50, 17, 0x4, 0x0, 0xFFFF, 0x0, 0x0, 0x0, 0x0, 0x0⟩]

/-- The registers of block 6. -/
def regBlock6 : List RegInfo :=
  [⟨0x60000, 6, 0x10, 1, 0x0, 0x0, 0x0, 0x0, 0x0, 0x1C00FFFF, 0x0, 0x0⟩,
   ⟨0x60080, 1, 0x0, 1, 0x0, 0x3220, 0x8000FFFF, 0x0, 0x0, 0x0, 0x0, 0x0⟩,
   ⟨0x60090, 1, 0x0, 1, 0x0, 0x0, 0x0, 0x3F00, 0x0, 0x0, 0x0, 0x0⟩,
   ⟨0x600A0, 4, 0x4, 1, 0x0, 0x0, 0xFFC0FFFF, 0x0, 0x0, 0x0, 0x0, 0x0⟩]

/-- The registers of block 7. -/
def regBlock7 : List RegInfo :=
  [⟨0x70000, 1, 0x0, 1, 0x0, 0x0, 0x0, 0x0, 0x0, 0x0, 0x0, 0x0⟩,
   ⟨0x70004, 1, 0x0, 1, 0x0, 0x0, 0x0, 0x0, 0x0, 0x0, 0x0, 0x0⟩,
   ⟨0x70008, 1, 0x0, 1, 0x0, 0x0, 0x0, 0x0, 0x0, 0x0, 0x0, 0x0⟩,
   ⟨0x7000C, 1, 0x0, 1, 0x0, 0x0, 0x0, 0x0, 0x0, 0x0, 0x0, 0x0⟩,
   ⟨0x70010, 1, 0x0, 1, 0x0, 0x0, 0xFFFFFFFF, 0x0, 0x0, 0x0, 0x0, 0x0⟩,
   ⟨0x70014, 1, 0x0, 1, 0x0, 0x280, 0xFFFF, 0x0, 0x0, 0x0, 0x0, 0x0⟩,
   ⟨0x70018, 1, 0x0, 1, 0x0, 0x0, 0xFFFFFFFF, 0x0, 0x0, 0x0, 0x0, 0x0⟩,
   ⟨0x7001C, 1, 0x0, 1, 0x0, 0x0, 0xFFFFFFFF, 0x0, 0x0, 0x0, 0x0, 0x0⟩,
   ⟨0x70020, 1, 0x0, 1, 0x0, 0x0, 0xFFFFFFFF, 0x0, 0x0, 0x0, 0x0, 0x0⟩,
   ⟨0x70024, 1, 0x0, 1, 0x0, 0x3E8, 0x3FFFFFFF, 0x0, 0x0, 0x0, 0x0, 0x0⟩,
   ⟨0x70028, 1, 0x0, 1, 0x0, 0x0, 0x0, 0x0, 0x0, 0x0, 0x0, 0xFF⟩,
   ⟨0x7002C, 1, 0x0, 1, 0x0, 0x0, 0x0, 0x2000000, 0x0, 0x0, 0x0, 0x0⟩,
   ⟨0x70030, 1, 0x0, 1, 0x0, 0x0, 0x0, 0x0, 0x0, 0x0, 0xFFFFFF, 0x0⟩,
   ⟨0x70034, 1, 0x0, 1, 0x0, 0x0, 0x0, 0x80000000, 0x0, 0x0, 0x0, 0x0⟩,
   ⟨0x70100, 2, 0x20, 1, 0x0, 0x8080, 0xF87FFFFF, 0x0, 0x0, 0x0, 0x0, 0x0⟩,
   ⟨0x70104, 2, 0x20, 1, 0x0, 0x310000, 0xFFFFFF, 0x0, 0x0, 0x0, 0x0, 0x0⟩,
   ⟨0x70108, 2, 0x20, 1, 0x0, 0x2648, 0xFFFFFF, 0x0, 0x0, 0x0, 0x0, 0x0⟩,
   ⟨0x7010C, 2, 0x20, 1, 0x0, 0x1838, 0xFFFFFF, 0x0, 0x0, 0x0, 0x0, 0x0⟩,
   ⟨0x70110, 2, 0x20, 1, 0x0, 0x0, 0xFFFFFF, 0x0, 0x0, 0x0, 0x0, 0x0⟩]

/-- The registers of block 8. -/
def regBlock8 : List RegInfo :=
  [⟨0x80000, 1, 0x0, 1, 0x0, 0x0, 0x18F, 0x0, 0x0, 0x0, 0x0, 0x0⟩,
   ⟨0x80004, 1, 0x0, 1, 0x0, 0x640000, 0xFFFFFFFF, 0x0, 0x0, 0x0, 0x0, 0x0⟩,
   ⟨0x80008, 1, 0x0, 1, 0x0, 0x0, 0xFFFFFFFF, 0x0, 0x0, 0x0, 0x0, 0x0⟩,
   ⟨0x80010, 1, 0x0, 1, 0x0, 0x0, 0xFFFFFFFF, 0x0, 0x0, 0x0, 0x0, 0x0⟩,
   ⟨0x80014, 1, 0x0, 1, 0x0, 0x0, 0xFFFF, 0x0, 0x0, 0x0, 0x0, 0x0⟩,
   ⟨0x80018, 1, 0x0, 1, 0x0, 0x0, 0xFFFFFFFF, 0x0, 0x0, 0x0, 0x0, 0x0⟩,
   ⟨0x8001C, 1, 0x0, 1, 0x0, 0x0, 0xFFFF, 0x0, 0x0, 0x0, 0x0, 0x0⟩,
   ⟨0x80020, 1, 0x0, 1, 0x0, 0x0, 0xFFFFFF, 0x0, 0x0, 0x0, 0x0, 0x0⟩,
   ⟨0x80024, 1, 0x0, 1, 0x0, 0x2000800, 0xFFFFFFFF, 0x0, 0x0, 0x0, 0x0, 0x0⟩,
   ⟨0x80028, 1, 0x0, 1, 0x0, 0x40404000, 0xFFFFFFFF, 0x0, 0x0, 0x0, 0x0, 0x0⟩,
   ⟨0x8002C, 1, 0x0, 1, 0x0, 0x4000000, 0xFFFFFFFF, 0x0, 0x0, 0x0, 0x0, 0x0⟩,
   ⟨0x80040, 1, 0x0, 1, 0x0, 0x0, 0x0, 0x0, 0x0, 0x0, 0x0, 0x0⟩,
   ⟨0x80044, 1, 0x0, 1, 0x0, 0x0, 0x0, 0x0, 0x0, 0x0, 0x0, 0x0⟩,
   ⟨0x80048, 1, 0x0, 1, 0x0, 0x0, 0x0, 0x0, 0x0, 0x0, 0x0, 0x80000000⟩,
   ⟨0x8004C, 1, 0x0, 1, 0x0, 0xFFFFFFFF, 0x0, 0x0, 0x0, 0x0, 0x0, 0x0⟩,
   ⟨0x80060, 8, 0x4, 1, 0x0, 0x0, 0x0, 0x0, 0xFFFFFFFF, 0x0, 0x0, 0x0⟩,
   ⟨0x80080, 1, 0x0, 1, 0x0, 0x2000010, 0xFF0003FF, 0x0, 0x0, 0x0, 0x0, 0x0⟩,
   ⟨0x80084, 1, 0x0, 1, 0x0, 0xC80000, 0xFFFFFFFF, 0x0, 0x0, 0x0, 0x0, 0x0⟩,
   ⟨0x80088, 1, 0x0, 1, 0x0, 0x50000, 0xFFFFFFFF, 0x0, 0x0, 0x0, 0x0, 0x0⟩,
   ⟨0x8008C, 1, 0x0, 1, 0x0, 0x0, 0x0, 0x0, 0x0, 0x0, 0x0, 0x0⟩]

/-- The registers of block 9. -/
def regBlock9 : List RegInfo :=
  [⟨0x90000, 1, 0x0, 1, 0x0, 0x0, 0x0, 0x0, 0x0, 0x0, 0x0, 0x0⟩,
   ⟨0x90004, 1, 0x0, 1, 0x0, 0x0, 0x0, 0x80000000, 0x0, 0x0, 0x0, 0x0⟩]

/-- The registers of block 10. -/
def regBlock10 : List RegInfo :=
  [⟨0xA0000, 1, 0x0, 1, 0x0, 0xFFFFFFFF, 0x0, 0x0, 0x0, 0x0, 0x0, 0x0⟩,
   ⟨0xA0008, 1, 0x0, 1, 0x0, 0x0, 0x0, 0x0, 0x0, 0x0, 0x0, 0x0⟩,
   ⟨0xA000C, 1, 0x0, 1, 0x0, 0x0, 0x0, 0x0, 0x0, 0x0, 0x0, 0x80000000⟩,
   ⟨0xA0020, 8, 0x4, 1, 0x0, 0x0, 0x0, 0x0, 0xFFFFFFFF, 0x0, 0x0, 0x0⟩]

/-- The registers of block 11. -/
def regBlock11 : List RegInfo :=
  [⟨0xB0000, 1, 0x0, 1, 0x0, 0x0, 0x0, 0x0, 0x0, 0x0, 0x0, 0x0⟩,
   ⟨0xB0004, 1, 0x0, 1, 0x0, 0x0, 0x0, 0x0, 0x0, 0x0, 0x0, 0x0⟩,
   ⟨0xB0020, 8, 0x4, 1, 0x0, 0x0, 0x0, 0x0, 0xFFFFFFFF, 0x0, 0x0, 0x0⟩,
   ⟨0xB0040, 1, 0x0, 1, 0x0, 0x0, 0x8003FFFF, 0x0, 0x0, 0x0, 0x0, 0x0⟩,
   ⟨0xB0044, 1, 0x0, 1, 0x0, 0x0, 0x0, 0x0, 0x0, 0x0, 0x0, 0x0⟩,
   ⟨0xB0048, 1, 0x0, 1, 0x0, 0x0, 0x0, 0x0, 0x0, 0x0, 0x0, 0x0⟩,
   ⟨0xB004C, 1, 0x0, 1, 0x0, 0x0, 0x0, 0x0, 0x0, 0x0, 0x0, 0x0⟩,
   ⟨0xB0050, 1, 0x0, 1, 0x0, 0x0, 0x0, 0x0, 0x0, 0x0, 0x0, 0x0⟩]

/-- The registers of block 12. -/
def regBlock12 : List RegInfo :=
  [⟨0xC0000, 1, 0x0, 1, 0x0, 0xE02008, 0xFFFFFF, 0x0, 0x0, 0x0, 0x0, 0x0⟩,
   ⟨0xC0004, 1, 0x0, 1, 0x0, 0x60000000, 0xFFFF0007, 0x0, 0x0, 0x0, 0x0, 0x0⟩,
   ⟨0xC0008, 1, 0x0, 1, 0x0, 0x61A80, 0xFFFFF, 0x0, 0x0, 0x0, 0x0, 0x0⟩,
   ⟨0xC0010, 1, 0x0, 1, 0x0, 0x0, 0x0, 0x0, 0x0, 0x0, 0x0, 0x0⟩,
   ⟨0xC0014, 1, 0x0, 1, 0x0, 0x0, 0x0, 0x0, 0x0, 0x0, 0x0, 0x0⟩,
   ⟨0xC0020, 8, 0x4, 1, 0x0, 0x0, 0x0, 0x0, 0x0, 0x0, 0x0, 0x0⟩,
   ⟨0xC0080, 6, 0x4, 1, 0x0, 0x0, 0x0, 0x0, 0x0, 0x0, 0x0, 0x0⟩,
   ⟨0xC00C0, 4, 0x4, 1, 0x0, 0x0, 0x0, 0x0, 0xFFFFFFFF, 0x0, 0x0, 0x0⟩]

/-- The registers of block 13. -/
def regBlock13 : List RegInfo :=
  [⟨0xD0000, 1, 0x0, 1, 0x0, 0x0, 0x80000003, 0x0, 0x0, 0x0, 0x0, 0x0⟩,
   ⟨0xD0004, 1, 0x0, 1, 0x0, 0x203, 0x307, 0x0, 0x0, 0x0, 0x0, 0x0⟩,
   ⟨0xD0008, 1, 0x0, 1, 0x0, 0x5000, 0x1FFFF, 0x0, 0x0, 0x0, 0x0, 0x0⟩,
   ⟨0xD000C, 1, 0x0, 1, 0x0, 0x258, 0x7FF, 0x0, 0x0, 0x0, 0x0, 0x0⟩,
   ⟨0xD0010, 1, 0x0, 1, 0x0, 0x0, 0x0, 0x0, 0x0, 0x0, 0x0, 0x0⟩,
   ⟨0xD0014, 1, 0x0, 1, 0x0, 0x0, 0x0, 0xFFFF, 0x0, 0x0, 0x0, 0x0⟩,
   ⟨0xD0020, 4, 0x4, 1, 0x0, 0x0, 0x8000003F, 0x0, 0x0, 0x0, 0x0, 0x0⟩,
   ⟨0xD0030, 1, 0x0, 1, 0x0, 0x80000004, 0x800000FF, 0x0, 0x0, 0x0, 0x0, 0x0⟩,
   ⟨0xD0040, 16, 0x4, 1, 0x0, 0x0, 0xFF, 0x0, 0x0, 0x0, 0x0, 0x0⟩,
   ⟨0xD0080, 4, 0x4, 1, 0x0, 0x0, 0x0, 0x0, 0x0, 0x0, 0x0, 0x0⟩,
   ⟨0xD00A0, 8, 0x4, 1, 0x0, 0x0, 0x0, 0x0, 0xFFFFFFFF, 0x0, 0x0, 0x0⟩,
   ⟨0xD0100, 64, 0x4, 1, 0x0, 0x0, 0x0, 0x0, 0xFFFF, 0x0, 0x0, 0x0⟩]

/-- The registers of block 14. -/
def regBlock14 : List RegInfo :=
  [⟨0xE0000, 1, 0x0, 1, 0x0, 0x0, 0x80000007, 0x0, 0x0, 0x0, 0x0, 0x0⟩,
   ⟨0xE0004, 1, 0x0, 1, 0x0, 0x0, 0x0, 0x0, 0x0, 0x0, 0x0, 0x0⟩,
   ⟨0xE0020, 4, 0x4, 1, 0x0, 0x0, 0x0, 0x0, 0xFFFFFFFF, 0x0, 0x0, 0x0⟩]

/-- The registers of block 15. -/
def regBlock15 : List RegInfo :=
  [⟨0xF0000, 2, 0x4, 1, 0x0, 0x0, 0x0, 0x0, 0x0, 0x0, 0x0, 0x0⟩,
   ⟨0xF0010, 1, 0x0, 1, 0x0, 0x0, 0x0, 0x0, 0x0, 0x0, 0x0, 0x80000000⟩,
   ⟨0xF0020, 8, 0x4, 1, 0x0, 0x0, 0x0, 0x0, 0xFFFFFFFF, 0x0, 0x0, 0x0⟩]

/-- The registers of block 16. -/
def regBlock16 : List RegInfo :=
  [⟨0x100000, 12, 0x80, 1, 0x0, 0x0, 0x0, 0x0, 0x0, 0xF0, 0x0, 0xE0000000⟩,
   ⟨0x100004, 12, 0x80, 1, 0x0, 0x0, 0x0, 0x0, 0x0, 0x0, 0x0, 0x0⟩,
   ⟨0x100008, 12, 0x80, 1, 0x0, 0x0, 0xFF8001FF, 0x0, 0x0, 0x0, 0x0, 0x0⟩,
   ⟨0x10000C, 12, 0x80, 1, 0x0, 0x0, 0xFFFFFFFF, 0x0, 0x0, 0x0, 0x0, 0x0⟩,
   ⟨0x100010, 12, 0x80, 1, 0x0, 0x0, 0xFFFFFFFF, 0x0, 0x0, 0x0, 0x0, 0x0⟩,
   ⟨0x100014, 12, 0x80, 1, 0x0, 0x0, 0xFFFFFFFF, 0x0, 0x0, 0x0, 0x0, 0x0⟩,
   ⟨0x100018, 12, 0x80, 1, 0x0, 0x0, 0xFFFFFFFF, 0x0, 0x0, 0x0, 0x0, 0x0⟩,
   ⟨0x10001C, 12, 0x80, 1, 0x0, 0x0, 0xFFFFFFFF, 0x0, 0x0, 0x0, 0x0, 0x0⟩,
   ⟨0x100020, 12, 0x80, 1, 0x0, 0x0, 0x3FFFFF, 0x0, 0x0, 0x0, 0x0, 0x0⟩,
   ⟨0x100024, 12, 0x80, 1, 0x0, 0x0, 0xFFFFFFFF, 0x0, 0x0, 0x0, 0x0, 0x0⟩,
   ⟨0x100028, 12, 0x80, 1, 0x0, 0x0, 0xFFFFFFFF, 0x0, 0x0, 0x0, 0x0, 0x0⟩,
   ⟨0x10002C, 12, 0x80, 1, 0x0, 0x0, 0xFFFFFFFF, 0x0, 0x0, 0x0, 0x0, 0x0⟩,
   ⟨0x100030, 12, 0x80, 1, 0x0, 0x0, 0xFFFFFFFF, 0x0, 0x0, 0x0, 0x0, 0x0⟩,
   ⟨0x100034, 12, 0x80, 1, 0x0, 0x0, 0xFFFFFFFF, 0x0, 0x0, 0x0, 0x0, 0x0⟩,
   ⟨0x100038, 12, 0x80, 1, 0x0, 0x0, 0xFFFFFFFF, 0x0, 0x0, 0x0, 0x0, 0x0⟩,
   ⟨0x10003C, 12, 0x80, 1, 0x0, 0x0, 0xF7, 0x0, 0x0, 0x0, 0x0, 0x0⟩,
   ⟨0x100040, 12, 0x80, 1, 0x0, 0x0, 0xFFFFFFFF, 0x0, 0x0, 0x0, 0x0, 0x0⟩,
   ⟨0x100044, 12, 0x80, 1, 0x0, 0x0, 0xFFFFFFFF, 0x0, 0x0, 0x0, 0x0, 0x0⟩,
   ⟨0x100048, 12, 0x80, 1, 0x0, 0x0, 0x0, 0x0, 0x0, 0x0, 0x0, 0x0⟩,
   ⟨0x10004C, 12, 0x80, 1, 0x0, 0x0, 0x0, 0x0, 0x0, 0x0, 0x0, 0x0⟩,
   ⟨0x100050, 12, 0x80, 1, 0x0, 0x0, 0x0, 0x0, 0x0, 0x0, 0x0, 0x0⟩,
   ⟨0x100800, 17, 0x4, 1, 0x0, 0x0, 0x8000003F, 0x0, 0x0, 0x0, 0x0, 0x0⟩,
   ⟨0x100880, 1, 0x0, 1, 0x0, 0x0, 0x0, 0x1FFFF, 0x0, 0x0, 0x0, 0x0⟩,
   ⟨0x100884, 1, 0x0, 1, 0x0, 0x0, 0x0, 0x0, 0x0, 0x0, 0x0, 0x1⟩]

/-- The registers of block 17. -/
def regBlock17 : List RegInfo :=
  [⟨0x110000, 1, 0x0, 1, 0x0, 0x0, 0x0, 0x0, 0x0, 0x0, 0x0, 0x0⟩,
   ⟨0x110004, 1, 0x0, 1, 0x0, 0x0, 0x0, 0x0, 0x0, 0x0, 0x0, 0x0⟩,
   ⟨0x110020, 8, 0x4, 1, 0x0, 0x0, 0xFFFFF0FF, 0x0, 0x0, 0x0, 0x0, 0x0⟩,
   ⟨0x110040, 1, 0x0, 1, 0x0, 0x18000100, 0xFF00FFFF, 0x0, 0x0, 0x0, 0x0, 0x0⟩,
   ⟨0x110050, 4, 0x4, 1, 0x0, 0x0, 0x0, 0x0, 0x0, 0x0, 0x0, 0x0⟩,
   ⟨0x110060, 1, 0x0, 1, 0x0, 0x0, 0x0, 0x0, 0x0, 0x0, 0x0, 0x0⟩,
   ⟨0x110064, 1, 0x0, 1, 0x0, 0x0, 0x0, 0x80000000, 0x0, 0x0, 0x0, 0x0⟩,
   ⟨0x110070, 8, 0x4, 1, 0x0, 0x0, 0x0, 0x0, 0x0, 0x0, 0x0, 0x0⟩,
   ⟨0x110090, 1, 0x0, 1, 0x0, 0x0, 0xFF, 0x0, 0x0, 0x0, 0x0, 0x0⟩,
   ⟨0x110094, 1, 0x0, 1, 0x0, 0x0, 0x0, 0x0, 0x0, 0x0, 0x0, 0x0⟩,
   ⟨0x1100A0, 8, 0x4, 1, 0x0, 0x0, 0x0, 0x0, 0xFFFFFFFF, 0x0, 0x0, 0x0⟩]

/-- The registers of block 18. -/
def regBlock18 : List RegInfo :=
  [⟨0x120000, 8, 0x80, 1, 0x0, 0x1F00F00, 0xFFF0FF00, 0x0, 0x0, 0x0, 0x0, 0x0⟩,
   ⟨0x120004, 8, 0x80, 1, 0x0, 0x3E8, 0xFFFFFF, 0x0, 0x0, 0x0, 0x0, 0x0⟩,
   ⟨0x120008, 8, 0x80, 1, 0x0, 0xC800, 0xFFFFFF, 0x0, 0x0, 0x0, 0x0, 0x0⟩,
   ⟨0x12000C, 8, 0x80, 1, 0x0, 0x3E800, 0x7FFFFFFF, 0x0, 0x0, 0x0, 0x0, 0x0⟩,
   ⟨0x120010, 8, 0x80, 1, 0x0, 0x3E800, 0x7FFFFFFF, 0x0, 0x0, 0x0, 0x0, 0x0⟩,
   ⟨0x120014, 8, 0x80, 1, 0x0, 0x3200, 0x7FFFFFFF, 0x0, 0x0, 0x0, 0x0, 0x0⟩,
   ⟨0x120018, 8, 0x80, 1, 0x0, 0x10604030, 0xFFFFFFFF, 0x0, 0x0, 0x0, 0x0, 0x0⟩,
   ⟨0x12001C, 8, 0x80, 1, 0x0, 0x4080064, 0xFFFFFFFF, 0x0, 0x0, 0x0, 0x0, 0x0⟩,
   ⟨0x120020, 8, 0x80, 1, 0x0, 0x1000, 0xFFFFFF, 0x0, 0x0, 0x0, 0x0, 0x0⟩,
   ⟨0x120024, 8, 0x80, 1, 0x0, 0x400, 0xFFFF, 0x0, 0x0, 0x0, 0x0, 0x0⟩,
   ⟨0x120040, 8, 0x80, 1, 0x0, 0x8000000, 0x0, 0x400000, 0x0, 0x0, 0x0, 0x0⟩,
   ⟨0x120044, 8, 0x80, 1, 0x0, 0x0, 0x0, 0x0, 0x0, 0x0, 0x0, 0x0⟩,
   ⟨0x120048, 8, 0x80, 1, 0x0, 0x0, 0x0, 0x0, 0x0, 0x0, 0x0, 0x0⟩,
   ⟨0x12004C, 8, 0x80, 1, 0x0, 0x0, 0x0, 0x0, 0x0, 0x0, 0x0, 0x0⟩,
   ⟨0x120050, 8, 0x80, 1, 0x0, 0x0, 0x0, 0x0, 0x0, 0x0, 0x0, 0x0⟩,
   ⟨0x120054, 8, 0x80, 1, 0x0, 0x0, 0x0, 0x0, 0x0, 0x0, 0x0, 0x0⟩,
   ⟨0x120058, 8, 0x80, 1, 0x0, 0x0, 0x0, 0x0, 0x0, 0x0, 0x0, 0x0⟩,
   ⟨0x120400, 4, 0x4, 1, 0x0, 0x0, 0x0, 0x0, 0xFFFFFFFF, 0x0, 0x0, 0x0⟩]

/-- The registers of block 19. -/
def regBlock19 : List RegInfo :=
  [⟨0x130000, 48, 0x4, 1, 0x0, 0x4000000, 0x6, 0x0, 0x0, 0xFF000000, 0x0, 0x0⟩,
   ⟨0x130100, 1, 0x0, 1, 0x0, 0x5555, 0x0, 0x0, 0x0, 0xFFFF, 0x0, 0x0⟩,
   ⟨0x130110, 1, 0x0, 1, 0x0, 0xA0A0222, 0x0, 0x0, 0x0, 0xFFFF0FFF, 0x0, 0x0⟩,
   ⟨0x130120, 1, 0x0, 1, 0x0, 0x0, 0x0, 0x0, 0x0, 0x0, 0x0, 0x0⟩,
   ⟨0x130124, 1, 0x0, 1, 0x0, 0x0, 0x0, 0x0, 0x0, 0x0, 0x0, 0x80000000⟩]

/-- The registers of block 20. -/
def regBlock20 : List RegInfo :=
  [⟨0x140010, 1, 0x0, 1, 0x0, 0x0, 0x0, 0x0, 0x0, 0x0, 0x0, 0x0⟩,
   ⟨0x140014, 1, 0x0, 1, 0x0, 0x0, 0x0, 0x0, 0xFFFF, 0x0, 0x0, 0x0⟩,
   ⟨0x140020, 5, 0x4, 1, 0x0, 0x0, 0x0, 0x0, 0x0, 0x0, 0x0, 0x3FF00FF⟩,
   ⟨0x140040, 5, 0x4, 1, 0x0, 0x0, 0x0, 0x0, 0x0, 0x0, 0x0, 0x0⟩,
   ⟨0x140100, 20, 0x4, 1, 0x0, 0x0, 0x0, 0x0, 0x0, 0x0, 0x0, 0x0⟩]

/-- The registers of block `b` of Table 18-1; no other block exists. -/
def regBlock (b : Nat) : List RegInfo :=
  match b with
  | 0 => regBlock0
  | 1 => regBlock1
  | 2 => regBlock2
  | 3 => regBlock3
  | 4 => regBlock4
  | 5 => regBlock5
  | 6 => regBlock6
  | 7 => regBlock7
  | 8 => regBlock8
  | 9 => regBlock9
  | 10 => regBlock10
  | 11 => regBlock11
  | 12 => regBlock12
  | 13 => regBlock13
  | 14 => regBlock14
  | 15 => regBlock15
  | 16 => regBlock16
  | 17 => regBlock17
  | 18 => regBlock18
  | 19 => regBlock19
  | 20 => regBlock20
  | _ => []

/-- Whether `off` is an element of the array `r`. -/
def RegInfo.has (r : RegInfo) (off : Nat) : Bool :=
  decide (r.base ≤ off) &&
    (if r.n2 = 1 then
      (if r.n1 = 1 then decide (off = r.base)
       else decide ((off - r.base) % r.s1 = 0) && decide ((off - r.base) / r.s1 < r.n1))
     else decide ((off - r.base) / r.s1 < r.n1) && decide ((off - r.base) % r.s1 % r.s2 = 0) &&
       decide ((off - r.base) % r.s1 / r.s2 < r.n2))

/-- The register at `off`, if the block has one there (R371, R373). -/
def regAt (off : Nat) : Option RegInfo := (regBlock (off / 0x10000)).find? (fun r => r.has off)

/-- The element index of the array register whose base is `base` and stride `s` at `off`. -/
def idxOf (base s off : Nat) : Nat := (off - base) / s

/-- FUNC of CMD_QCTL[q] where the image does not set it (R48). -/
def defaultFunc (q : Nat) : Nat := if q < 8 then 0 else if q < 12 then 1 else if q < 14 then 2 else 3

/-- LOCKWAIT and PREDIV of CLK_PLL[g] at reset (Table 12-2). -/
def clkReset (g : Nat) : Nat := 0x04000000 + (if g < 2 then 200 else if g < 5 then 150 else 50)

/-- TARGET of MEM_QOS[p] at reset, in ns (Table 11-2). -/
def qosTarget (p : Nat) : Nat :=
  match p with
  | 0 => 2000 | 1 => 2000 | 2 => 20000 | 3 => 50000 | 4 => 5000 | 5 => 20000 | _ => 1000000

/-- The reset value of the register at `off` (a reserved offset reads 0, R373). The registers whose reset value depends on
their index are given here by their rules. -/
def resetNat (off : Nat) : Nat :=
  match regAt off with
  | none => 0
  | some r =>
    if r.base = 0x10114 then defaultFunc (idxOf 0x10114 0x20 off) * 0x1000000
    else if r.base = 0x60000 then clkReset (idxOf 0x60000 0x10 off)
    else if r.base = 0x100000 then (if idxOf 0x100000 0x80 off < 4 then 0 else 0xF0)
    else if r.base = 0x110020 then
      let p := idxOf 0x110020 4 off
      qosTarget p * 0x1000 + (if p < 2 then 0x100 else 0) + 128
    else if off = 0x130000 then 0x14000000
    else r.reset

/-- The reset value as a register word. -/
def resetValue (off : Nat) : Word := BitVec.ofNat 32 (resetNat off)

/-- The RWL bits of the register at `off`; MASTER of DMA channels 0–3 is RO (Table 10-1). -/
def rwlMask (off : Nat) : Nat :=
  match regAt off with
  | none => 0
  | some r => if r.base = 0x100000 ∧ idxOf 0x100000 0x80 off < 4 then 0 else r.rwl

end Sys2Proof.Machine
end

