-- ==== Sys2Proof/Machine/State.lean ====
section
/-! DEFINITION. The state of the NZ262 block: plain data, holding everything the spec gives the part, and the
state right after always-on power-up. The registers of Table 18-1 live in one store, keyed by BAR0 offset; the other
structures hold what no register shows. -/

namespace Sys2Proof.Machine

/-- Why the machine stops. -/
inductive Fault where
  /-- Raised by the register-access commands for an access beyond the 16 MiB of BAR0 (R371): it addresses nothing of the
  part. Safe: the part has no behaviour there. -/
  | outsideBar0
deriving DecidableEq, Repr

/-- Why a command has no meaning in the model. -/
inductive Refusal where
  /-- A command that has no meaning yet, by its mnemonic. Safe: nothing is proved of it. -/
  | notModelled (mnemonic : String)
deriving DecidableEq, Repr

/-- A time in units of 2^-16 ns. -/
abbrev T16 := Nat

/-! ### What the part emits -/

/-- A 48-byte hole record (R70), by its fields. -/
structure Hole where
  stripe    : Nat
  job       : Nat
  first     : Nat
  last      : Nat
  mask      : Nat
  pass      : Nat
  reason    : Nat
  scan      : Bool
  remainder : Bool
  lostBefore : Bool
  yFirst    : Int
  yLast     : Int
  logSeq    : Nat
deriving DecidableEq, Repr

/-- A 64b/66b block (R185): a control block (sync 0b10) or a data block (0b01), with its payload before the scrambler. -/
structure Block where
  control : Bool
  payload : BitVec 64
deriving DecidableEq, Repr

/-- The outputs of Table 17-6. -/
inductive Output where
  | seqSync | runSync | faultN | alive | gstb | blankAll | pwrEn | qspi
  | bal | scn | defl | plinkTx | tp | clkout | motion | htrPwm | gpio
deriving DecidableEq, Repr

/-- How an output stands (Table 17-6): under a pull-down, driven low, driven by its function, in the GSTB hold state, or not driven. -/
inductive Drive where
  | pulledLow | low | driven | held | undriven
deriving DecidableEq, Repr

/-- What appears on a port or a pin of the part: the model's record of outputs, oldest first. -/
inductive Out where
  /-- MSI-X vector of a host function (R51, R376). -/
  | msix (fn vec : Nat)
  /-- Unsupported Request or bus error completion of a read (R352, R372). -/
  | readError (m : Master) (off : Nat)
  /-- The value a read with a side effect returned (R256, R354). -/
  | readValue (m : Master) (off : Nat) (v : Word)
  /-- A heartbeat frame on a timing port (R270): its addresses, its Ethertype, and the payload of Table 12-1. -/
  | heartbeat (port dst src etherType : Nat) (frame : List Byte)
  /-- A back-channel frame of Table 8-2 on PLINK_TX (R162). -/
  | backChannel (syms : List Byte)
  /-- A deflection frame of Table 8-5 (R177). -/
  | defl (frame : BitVec 64)
  /-- The frames of a shot, of a pattern shot, or one IDLE frame on every logical lane, lane 0 first: the transmit lane that carries it,
  and its blocks (R188-R190, R204). -/
  | frames (sent : List (Nat × List Block))
  /-- These transmit lanes send a block over and over until their next frame (R187). -/
  | idleBlocks (lanes : List Nat) (b : Block)
  /-- The transmit lanes go to electrical idle (R210). -/
  | txOff
  /-- A rise or a fall of a group strobe, at its time on the escapement's timebase (R193, R194); a strobe that is cut has none. -/
  | strobe (g : Nat) (high : Bool) (t : Option Int)
  /-- A group's strobe output is tristated (R197). -/
  | tristate (g : Nat)
  /-- An edge of DET_GATE (R141, R143). -/
  | detGate (high : Bool)
  /-- An edge of ALIVE (R337). -/
  | alive (high : Bool)
  /-- A SCAN line interval on the SCN port: the edges τ_e of SCN_CLK from e = −8 on, rising at even e, and the bytes that each lane
  sends on them, one bit per edge and the most significant first; blank lines send zeros (R206-R208). -/
  | scnInterval (interval : Nat) (blank : Bool) (edges : List Int) (lanes : List (List Byte))
  /-- A PTP message sent (R265, R267): its destination and domain, its origin time in ns and its correction in 2^-16 ns, and the clock
  that an Announce shows. -/
  | ptp (port : Nat) (kind : PtpKind) (dst domain : Nat) (origin corr : Int) (clock : Option PtpClock)
  /-- A STEP edge of an axis, with its direction level (R286). -/
  | step (axis : Nat) (dir : Bool)
  /-- An edge of CLKOUT[n] as PPS (R280). -/
  | pps (n : Nat) (high : Bool)
  /-- CLKOUT[n] sends a source divided by `div`, high for `high` source periods; held low where `div` is 0 (R280). -/
  | clkOut (n src div high : Nat)
  /-- CORE begins to spread, by `depth` × 0.01 % at `khz`; or stops, where `khz` is 0 (R274). -/
  | spread (depth khz : Nat)
  /-- A REFab issued to a rank: how many back to back (R244). -/
  | refresh (chan rank n : Nat)
  /-- A rail enable output change (R303). -/
  | railEn (n : Nat) (high : Bool)
  /-- These outputs are driven no longer (R364, Table 17-6). -/
  | undriven (l : List Output)
  /-- The boundary scan drives its pins with its cells, or no pin at all under HIGHZ (R370). -/
  | scanPins (cells : Option (List Bool))
  /-- The functional outputs are back on their pins (R370). -/
  | pinsReturn
  /-- What TDO sent in a scan of a data register (R369). -/
  | tdo (bits : List Bool)
deriving DecidableEq, Repr

/-! ### Polcon queues -/

/-- A packet that has been started and not yet completed (R52); `discard` when its queue was disabled since (R53). -/
structure Started where
  pk      : Packet
  discard : Bool
  taken   : Bool      -- decided; only its reply is outstanding
  fetched : Nat       -- the timekeeper at its fetch, in 2^-40 ns
deriving DecidableEq, Repr

/-- A reply that waits for its completion entry (R51), or for SHM_REPLY (R355). -/
structure Held where
  pk      : Packet
  status  : Nat
  detail  : Nat
  result  : Nat
  more    : Bool
  written : Bool
deriving DecidableEq, Repr

/-- What a queue pair holds beyond its registers: base and sizes taken at enable, completion write index, PHASE. -/
structure QueueState where
  sqBase : Nat
  cqBase : Nat
  sqSize : Nat
  cqSize : Nat
  cqw    : Nat
  phase  : Bool
deriving DecidableEq, Repr

/-- The Polcon unit (03). -/
structure CmdState where
  started : List Started
  held    : List Held
  queues  : List QueueState
  next    : Nat            -- queue whose turn is next (R50)
  nextId  : Nat
deriving DecidableEq, Repr

/-! ### RUN_SYNC steps -/

/-- A queued MODE_ARM or STRIPE_ARM (R42): its packet, the stripe handle (0 for a mode change), its target mode, t_open
in 2^-40 ns of the timekeeper, and its windows in µs. -/
structure StepCmd where
  pk     : Packet
  handle : Nat
  target : Nat
  tOpen  : Nat
  wA     : Nat
  wC     : Nat
deriving DecidableEq, Repr

/-- Where an open RUN_SYNC step stands (R43-R45). -/
inductive StepPhase where
  | validating | released | commitWait | applied | guard | guardDone | unarmed | unarmedReleased | invalid
deriving DecidableEq, Repr

/-- The open RUN_SYNC step: its command (none when unarmed), when it opened and was armed (timekeeper, 2^-40 ns), its
phase, the in-force registers and mode to restore on expiry (R45), and whether the part has released the line in the arm phase. -/
structure OpenStep where
  cmd     : Option StepCmd
  opened  : Nat
  armedAt : Nat
  phase   : StepPhase
  saved   : List (Nat × Word)
  detail  : Nat
  armed   : Bool
deriving DecidableEq, Repr

/-- The RUN_SYNC logic: the filtered line, this part's pull, the step counter, queued and open steps. -/
structure RunState where
  line  : Bool
  pull  : Bool
  step  : BitVec 32
  queue : List StepCmd
  cur   : Option OpenStep
  closedAt : T16
deriving DecidableEq, Repr

/-! ### Heartbeats, roster, timing ports -/

/-- What the last heartbeat of a roster member showed (R270). -/
structure Peer where
  idx       : Nat
  mode      : Nat
  allstop   : Bool
  armed     : Bool
  committed : Bool
  dup       : Bool
  step      : Nat
  at_       : T16
  lost      : Bool
deriving DecidableEq, Repr

/-- A PTP port (R265-R269): its link, TIM_PCFG as taken when EN last went from 0 to 1, the best Announce it has heard, the Sync and the
answers it has received, and the stamps of the messages it has to answer or to follow up. -/
structure PtpPort where
  link      : Bool
  cfg       : Nat
  mac       : Nat
  state     : PtpState
  best      : Option PtpClock
  pathDelay : Int
  offset    : Int
  lastSyncOrigin : Int       -- origin of the Sync received last, with its corrections
  lastSyncRx : Int
  syncAt    : T16            -- when a Sync, and when an Announce, last came in
  annAt     : T16
  awaitFollowUp : Bool
  awaitResp : Bool
  reqTx     : Int            -- when its own request went out
  respRx    : Option Int     -- of a two-step Pdelay_Resp: its receipt plus what it carries
  syncTx    : Option Int     -- when a two-step Sync went out whose Follow_Up is still to come
  reqRx     : Option Int     -- when a request came in that is still to be answered
  reqCorr   : Int            -- the correction that the request carried
  respTx    : Option Int     -- when a two-step Pdelay_Resp went out whose follow-up is still to come
  rxFrames  : Nat
  discarded : Nat
  badHb     : Nat
  mgmt      : Nat
  syncLost  : Nat
deriving DecidableEq, Repr

/-- The timing-port unit: the image's roster, heartbeats sent and heard, PTP ports. -/
structure NetState where
  roster    : List Nat
  peers     : List Peer
  hbSeq     : BitVec 32
  dup       : Bool
  dupAt     : T16
  allstopAt : Option T16
  recent    : List (Nat × Nat × T16)
  heardAt   : List (Nat × T16)   -- when a heartbeat of each index was last received (HEARD of Table 12-1)
  lastHbAt  : T16
  ports     : List PtpPort
  clockId   : Nat
  clockQual : Nat          -- clockClass, clockAccuracy, offsetScaledLogVariance, most significant first
  utcOffset : Int          -- currentUtcOffset, as the clock that the part follows last showed it (R265)
deriving DecidableEq, Repr

/-! ### Fault collector -/

/-- The record of one fault source (R330). `state`: 0 cleared, 1 unacknowledged, 2 acknowledged, condition present. `cond`: the
level condition stands on the detector's real input; `inj`: on the injected one (R341); `wire`: the pair stays invalid (R326);
`at_`: when it was last raised. -/
structure FaultRec where
  src    : Nat
  state  : Nat
  cond   : Bool
  inj    : Bool
  wire   : Bool
  eff    : Nat
  raises : Nat
  count  : Nat
  logSeq : Nat
  carry  : Bool
  internal : Bool            -- its last raise was internal (R343)
  at_    : T16
deriving DecidableEq, Repr

/-- A fault log entry (Table 15-5). -/
structure LogEntry where
  seq     : Nat
  src     : Nat
  sevCfg  : Nat
  sev     : Nat
  flags   : Nat
  mode    : Nat
  count   : Nat
  detail  : Nat
  sec     : Nat
  ns      : Nat
  frac    : Nat
deriving DecidableEq, Repr

/-- A severity that a SEVERITY_SET has replaced: its source, the old value, and when (R329). -/
structure OldSev where
  src : Nat
  sev : Nat
  at_ : T16
deriving DecidableEq, Repr

/-- The snapshot that the raises of one clock share (R335): its entry, its cause, and when it was taken. -/
structure SharedSnap where
  entry : Nat
  cause : Nat
  at_   : T16
deriving DecidableEq, Repr

/-- An active injection (R341): what the comparison on VALUE says where no rule gives its limit, and whether it has tripped since its
detector last began to compare. -/
structure Injection where
  src   : Nat
  value : Nat
  ends  : T16
  open_ : Bool
  seen  : Bool
deriving DecidableEq, Repr

/-- The fault collector (15). -/
structure FltState where
  recs      : List FaultRec
  sevs      : List (Nat × Nat)
  oldSevs   : List OldSev
  log       : List LogEntry
  nextSeq   : Nat
  shared    : Option SharedSnap
  oneClock  : Bool           -- a command that raises several sources on one clock is under way
  deadRun   : Option Nat     -- the CHECK run, by its packet, in which DEAD_BEAM was last recorded (R332)
  inj       : List Injection
  stopped   : List Nat         -- on-chip arrays whose reading unit has stopped at an uncorrectable word (R325)
  early     : List (Nat × Bool)   -- sources raised, plainly or as WIRE, before their command's turn (R333)
  allstop   : Bool
  latched   : Bool
  holdAt    : T16
  lastSev2  : T16
  lastCond  : T16
  recTimes  : List T16
  clearing  : List Packet      -- CLEAR_HOLDs that wait for SERVICE (R340)
  reasons   : List Nat         -- REASONs of the HOLD packets carried out, oldest first (Table 3-4)
  sel       : List (Nat × Nat)
  alive     : Bool           -- level of the ALIVE pin
  edges     : Nat            -- edges since ALIVE began to toggle; 0 while it is static
  aliveSince : T16
  outage    : Option T16     -- since when an internal raise holds the part (R343)
  credit    : T16            -- of that time, already counted in a remainder hole
  downT     : T16            -- time charged to the part (R343)
deriving DecidableEq, Repr

/-- One entry of the snapshot buffer (R315, R316): the captured bytes, how they are stored, whether read. -/
structure Snapshot where
  head  : List Byte          -- bytes 0x00–0x3F
  scans : List (List Nat)    -- the scans of the history, oldest first
  raw   : Bool
  code  : List Byte
  read  : Bool
  order : Nat
deriving DecidableEq, Repr

/-- The snapshot buffer and the ADC history it is taken from (R314-R316). -/
structure SnapState where
  entries : List (Option Snapshot)
  taken   : Nat
  history : List (List Nat)
deriving DecidableEq, Repr

/-! ### Time and clocks -/

/-- The forced-step key (R260). -/
inductive KeyState where
  | idle
  | half  (m : Master)
  | armed (m : Master) (at_ : T16)
deriving DecidableEq, Repr

/-- A committed timekeeper step (R258): the offset in ns, its master, whether forced, its packet if a TIME_STEP. -/
structure TimeStepReq where
  offset : Int
  master : Master
  forced : Bool
  pk     : Option Packet
  ns     : Int            -- STEP_NS as committed: what A0 compares (erratum A0-04)
deriving DecidableEq, Repr

/-- The timekeeper, the coarse timekeeper, and the model's count of elapsed time (12). -/
structure TimState where
  sec     : Nat
  ns      : Nat
  sub     : Nat
  incr    : Nat
  incrNext : Option Nat
  estimate : Nat             -- the servo's frequency estimate, as an INCR (R268)
  step    : Option TimeStepReq
  shadows : List (Nat × Nat × Nat × Nat)
  key     : KeyState
  elapsed : T16
  cSec    : Nat
  cNs     : Nat
  cFrac   : Nat
  goodSyncs : Nat
  ppsLow  : T16
  upNs    : Nat
deriving DecidableEq, Repr

/-- A clock generator (R271-R275): when it was enabled, when it began to coast, and whether LOCKWAIT has still to pass. -/
structure ClkGen where
  enabledAt : T16
  coastAt   : Option T16
  waiting   : Bool
deriving DecidableEq, Repr

/-- W1C bits that hardware has set in a register, or what it has added to a count that a write clears, and when (R12). -/
structure HwSet where
  off   : Nat
  bits  : Nat
  count : Nat
  at_   : T16
deriving DecidableEq, Repr

/-- The clock generators and output dividers (12), and what hardware has set on the present clock (R12). -/
structure ClkState where
  sets     : List HwSet
  gens     : List ClkGen
  plan     : List (Nat × Nat)
  restarts : List Nat
  gated    : Bool           -- the clocks of the hit units and the heating map are stopped (R279)
deriving DecidableEq, Repr

/-! ### Layout: residency, jobs, stripes, holes -/

/-- A region of the residency table (R60, R80): `cause` 0 when walked clean. -/
structure Region where
  base  : Nat
  len   : Nat
  cause : Nat
  failAt : Nat
deriving DecidableEq, Repr

/-- A loaded cell (R84): its context, its bytes as JOB_OPEN stores them, its bounding box, whether it holds a TRAP or tile. -/
structure Cell where
  ctx   : Nat
  bytes : List Byte
  xMin  : Int
  yMin  : Int
  xMax  : Int
  yMax  : Int
  angled : Bool
  tiled  : Bool
deriving DecidableEq, Repr

/-- An open job (R61, R82, R83). -/
structure Job where
  id      : Nat
  scan    : Bool
  m       : Nat
  n       : Nat
  chans   : Nat
  pitch   : Nat
  pixels  : Nat
  classes : List Nat
  modes   : List Nat
  cells   : List Cell
deriving DecidableEq, Repr

/-- A modulation map reference (R94). -/
structure MapRef where
  addr  : Nat
  mx0   : Int
  my0   : Int
  shift : Nat
  nx    : Nat
  ny    : Nat
deriving DecidableEq, Repr

/-- How far an admitted stripe has come (R67, R68). -/
inductive StripePhase where
  | admitted | armed | started | firing
deriving DecidableEq, Repr

/-- An admitted stripe that has not completed, with what its report needs (R62, R67, Table 3-8). -/
structure Stripe where
  handle  : Nat
  job     : Nat
  stripe  : Nat
  pass    : Nat
  gen     : Nat
  rate    : Nat
  data    : Nat
  len     : Nat
  lines   : Nat
  nbin    : Nat
  x0      : Int
  y0      : Int
  map     : Option MapRef
  readyBy : Nat
  phase   : StripePhase
  fx      : Bool
  armPk   : Option Packet
  holes   : Nat
  logged  : Nat
  envFirst : Int
  envLast  : Int
  remainder : Bool
  clip    : Nat
  tSat    : Nat
  shots   : Nat
  tFirst  : Nat
  tLast   : Nat
  geo     : Nat × Nat × Nat   -- p, M and CHANNELS of its job, kept at its completion
deriving DecidableEq, Repr

/-- A STRIPE_ADMIT that waits in test 5 (R154): the stripe it would admit and the end of WAIT_US. -/
structure Waiting where
  pk       : Packet
  stripe   : Stripe
  deadline : T16
deriving DecidableEq, Repr

/-- A job-store residency, jobs, stripes and hole log (03, 04). -/
structure LayState where
  regions  : List Region
  jobs     : List Job
  stripes  : List Stripe
  waiting  : List Waiting
  handles  : Nat
  fxHandle : Nat
  holes    : List Hole
  holeSeq  : BitVec 32
  lost     : Bool
deriving DecidableEq, Repr

/-! ### Rendering and footprint -/

/-- A primitive of a bin body or of a cell, in absolute coordinates once resolved (R86-R88, R92). -/
inductive Prim where
  | trap (y0 y1 xl0 xl1 xr0 xr1 : Int) (cls : Nat)
  | tile (x y : Int) (w h cls : Nat) (orient : Nat) (pix : List Nat)
deriving DecidableEq, Repr

/-- A fetched bin (R98): its primitives, its declared edges and bytes, its error cause if any. -/
structure Bin where
  idx     : Nat
  prims   : List Prim
  edges   : List Nat
  fpBytes : Nat
  err     : Nat
deriving DecidableEq, Repr

/-- A stored plane-line (Table 5-3). -/
inductive Plane where
  | blank | zero
  | code (bytes : List Byte)
  | raw  (bytes : List Byte)
deriving DecidableEq, Repr

/-- A rendered line in the staging buffer: its T values, or the reason that blanks it (R118) and whether an internal raise did (R343). -/
structure StagedLine where
  line  : Nat
  blank : Option Nat
  t     : List Nat
  sats  : Nat
  internal : Bool
deriving DecidableEq, Repr

/-- A line in the footprint store. -/
structure StoredLine where
  line   : Nat
  planes : List Plane
deriving DecidableEq, Repr

/-- A run of blanked lines not yet logged (R119, R130): reason, first and last line, and whether an internal raise blanked one of them
(R343). -/
structure LineRun where
  reason : Nat
  first  : Nat
  last   : Nat
  internal : Bool
deriving DecidableEq, Repr

/-- Layout expander, renderer and footprint store (05). -/
structure FootState where
  handle   : Nat             -- the stripe that is being expanded; 0 for none
  bins     : List Bin
  nextBin  : Nat
  nextLine : Nat
  staged   : List StagedLine
  store    : List StoredLine
  binTotal : Nat
  binOf    : Nat
  raised   : List (Nat × Nat × Nat)   -- sources already raised for a bin of a stripe (R120): the stripe's handle, the bin, the source
  ahead    : List Bin        -- bins of the next admitted stripe, fetched ahead (R117)
  aheadOf  : Nat             -- that stripe's handle; 0 for none
  run      : Option LineRun
  noLive   : Option LineRun
deriving DecidableEq, Repr

/-- Hit units and heating (06): the map E by cell, shots under computation, kernel slot in force. -/
structure DoseState where
  heat    : List (Nat × Nat)
  q       : List Nat
  shots   : List Nat           -- shots whose computation has begun and is not done
  values  : List (List Byte)
  adds    : List (List (Nat × Nat))
  kernel  : Option Nat         -- slot of the kernel in force
  nextKernel : Bool            -- a swap is taken at shot 1 (erratum A0-06)
  retire  : List Packet        -- GEN_RETIREs of the kernel in force, waiting for the boundary (R153)
  noLive  : List Nat           -- lines found to hold an L = 0 pixel with P > 0, not yet in a run (R130)
  nlNext  : Nat                -- lines below this are settled for R130
deriving DecidableEq, Repr

/-! ### Table generations and beam check -/

/-- A calibration entry (Table 6-1). -/
structure CalEntry where
  gain  : Nat
  off   : Int
  rank  : Nat
  count : Nat
  dead  : Bool
  noLive : Bool
  weak  : Bool
  resv  : Nat
deriving DecidableEq, Repr

/-- A heating kernel (Table 6-2). -/
structure Kernel where
  enable : Bool
  sh     : Nat
  dec    : Nat
  w      : List Int
deriving DecidableEq, Repr

/-- A facet table (Table 8-6). -/
structure Facets where
  fdly  : List Int
  ptrim : List Int
deriving DecidableEq, Repr

/-- What a slot holds, by kind (R151). -/
inductive Table where
  | empty
  | cal (entries : List CalEntry) (repeats qref vhi vlo : Nat)
  | kernel (k : Kernel)
  | facet (f : Facets)
deriving DecidableEq, Repr

/-- A load's part of a fill: the image's header, of a calibration (R150), and what channel 2 has written into the slot so far, from the start
of its window (R156). -/
structure FillLoad where
  head : List Byte
  got  : List Byte
deriving DecidableEq, Repr

/-- The fill under way in a slot: the packet that waits for it, its load, unless it is a build, and when it is ready. -/
structure Fill where
  pk      : Packet
  load    : Option FillLoad
  readyAt : T16
deriving DecidableEq, Repr

/-- One table slot beyond its BMH_GEN register. -/
structure Slot where
  table : Table
  fill  : Option Fill
  order : Nat            -- when it became ready, for "most recently readied" (R152)
deriving DecidableEq, Repr

/-- Readings of one measured beam (Table 7-4). -/
structure BeamReading where
  beam : Nat
  qh   : Nat
  ql   : Nat
deriving DecidableEq, Repr

/-- A CHECK run under way or kept (R144-R148). -/
structure CheckRun where
  pk      : Packet
  kind    : Nat
  slice   : Nat
  reps    : Nat
  run     : Nat
  base    : Nat
  rate    : Nat
  vHi     : Nat
  vLo     : Nat
  reading : Nat          -- readings completed
  now     : Nat          -- the reading being taken
  redo    : List Nat     -- completed readings still to be repeated (R203)
  redone  : List Nat     -- readings whose repetition has begun
  shot    : Nat          -- pattern shots fired in this reading
  total   : Nat          -- pattern shots of the run
  damaged : Bool         -- a shot of the reading being taken was damaged
  qb      : List Nat
  qd      : List Nat
  beams   : List BeamReading
  pendH   : List Nat
  stuck   : Nat
  sat     : Bool
  done    : Bool
  complete : Bool
  qref    : Nat
  weakG   : Nat
  cut     : Bool         -- a watchdog has cut a strobe of the run: its later strobes are suppressed (R198)
deriving DecidableEq, Repr

/-- The beam-check unit and the six table slots (07). -/
structure GenState where
  slots  : List Slot
  readied : Nat
  queue  : List Packet
  cur    : Option CheckRun
  kept   : Option CheckRun
  lastCal : Nat
  checkFrom : Nat              -- fetch number of the first packet fetched since the last COMMIT edge into CHECK (R155)
  gate   : Bool                -- level of DET_GATE (R141)
deriving DecidableEq, Repr

/-! ### Escapement -/

/-- A locked shot and its fire time (R169). -/
structure Lock where
  shot : Nat
  t    : T16
deriving DecidableEq, Repr

/-- The stripe pass past its COMMIT edge (R168): handle, t_c, pending shot, locked shots, last times. -/
structure Firing where
  handle : Nat
  tc     : Option T16
  pend   : Nat
  locks  : List Lock
  lastLock : T16
  lastFire : T16
  fired  : Nat
  ended  : Bool          -- remainder blanked or last shot fired: nothing more locks
  limit  : Nat           -- shots below this may fire
deriving DecidableEq, Repr

/-- A position sample (R166): y and x in pu, and the signed count of an encoder source (R170). -/
structure Sample where
  y : Int
  x : Int
  c : Int
deriving DecidableEq, Repr

/-- The escapement (08): its timebase in 2^-16 ns (R161), on which all its times are. Samples newest first; samples stamped and not yet
used by a decision oldest first, with their times; the times of the decisions to come. -/
structure EscState where
  base    : BitVec 64
  samples : List Sample
  arrived : List (Sample × T16)
  entered : Nat
  tLast   : T16
  slotAt  : T16
  decides : List T16
  subs    : Nat
  refSeq  : Option Nat
  ackSeq  : Nat
  encCount : Int
  firing  : Option Firing
  homeX   : Int              -- 12 × the fitted position at the COMMIT edge into CHECK, and whether a fit stood then (R177)
  homeY   : Int
  homeOk  : Bool
  cancels : Option (Nat × T16)   -- the stripe whose remainder was blanked for a cancel of the same clock, and when (R176)
deriving DecidableEq, Repr

/-- SOS tracking and SCAN interval writing (R178-R183). -/
structure ScanState where
  intervals : List Nat
  tPrev   : T16
  misses  : Nat
  facet   : Nat
  index   : Bool
  seenIndex : Bool
  interval : Nat
  started : Bool
  lines   : List StagedLine
  moved   : Nat              -- the interval of the stripe that channel 3 moves to the line buffer, or moves next
  inBuf   : List Nat         -- intervals complete in the SCN line buffer
  lost    : List Nat         -- intervals late by a dropped pulse (R228)
  held    : List Nat         -- intervals that hold a half of the renderer's output, until the half's release reaches the renderer (R227)
  edges   : Bool             -- the last SOS was a real edge
  rest    : Bool             -- a remainder was blanked in the present interval: STATE shows 4 (Table 8-9)
  run     : Option LineRun
deriving DecidableEq, Repr

/-! ### Beam outputs -/

/-- A fired shot whose plate status is awaited (R202): lanes still to report; of a pattern shot its reading, and whether that was its
repetition (R203). -/
structure AwaitStatus where
  shot  : Nat
  lanes : List Nat
  due   : T16
  reading : Nat
  again : Bool
deriving DecidableEq, Repr

/-- A run of consecutive shots with blanked groups (R203), and whether an internal raise is among what blanked them (R343). -/
structure GroupRun where
  first : Nat
  last  : Nat
  mask  : Nat
  jLo   : Nat
  jHi   : Nat
  internal : Bool
deriving DecidableEq, Repr

/-- A group strobe that is high: its shot and its rise time. -/
structure HighStrobe where
  g    : Nat
  shot : Nat
  rise : Int
deriving DecidableEq, Repr

/-- When a fired shot's slot 0 rises, and its stagger S (R192, R193). -/
structure ShotTime where
  shot : Nat
  t    : Int
  step : Nat
deriving DecidableEq, Repr

/-- A strobe's fall: group, shot and when (R197). -/
structure StrobeFall where
  g    : Nat
  shot : Nat
  at_  : T16
deriving DecidableEq, Repr

/-- The beam-array link, strobes and spares (09). -/
structure BalState where
  blankAll : Bool
  span     : Bool
  high     : List HighStrobe
  times    : List ShotTime         -- of the shots not wholly fired
  tri      : List Nat              -- groups whose outputs are tristated (R197)
  lastFall : Option StrobeFall
  risen    : List (Nat × Nat)      -- (shot, groups risen mask), for shots not wholly fired
  fell     : List (Nat × Nat)      -- (shot, groups that fell at full width, mask), for the same shots
  full     : Nat                   -- shots below this were wholly fired, or blanked as late
  late     : List Nat              -- shots that do not fire (R191)
  framed   : Nat                   -- frames sent for shots below this
  status   : List AwaitStatus
  run      : Option GroupRun
  damage   : List (Nat × Nat)      -- damaged frames of this stripe pass by lane
  rateBusy : Bool
  tail     : Option Stripe         -- the stripe that completed last: its shots' statuses may still arrive
deriving DecidableEq, Repr

/-! ### DMA and engines -/

/-- A DMA channel's progress in its descriptor (R221-R230): bytes read in loop order, bytes of the espalier's run, output bytes
not yet written, output bytes written; its credit at a time (R223); its last start, and whether a pulse made it (R225); whether it
halted on the load of its next descriptor (R224, R226). -/
structure DmaChan where
  read   : Nat
  run    : List Byte
  buf    : List Byte
  wrote  : Nat
  credit : Nat
  at_    : T16
  began  : Option (T16 × Bool)
  reload : Bool
deriving DecidableEq, Repr

/-- The DMA channels, and the event matrix (10). -/
structure DmaState where
  chans   : List DmaChan
  pulses  : List Nat           -- pulses emitted that some sink selects, not yet delivered (R227)
  prime   : Bool               -- pending pulse of sink 15
  release : Bool               -- pending pulse of sink 16
  swaps   : List Nat           -- kinds of table whose swap sink, 12 to 14, holds a pending pulse (R228)
  turn    : Nat                -- the channel served last, channel 3 apart (R223)
  load    : Option Nat         -- the slot that channel 2 loads (R219)
  loads   : List Nat           -- slots whose load waits for channel 2
  scanOut : List (List Byte)   -- the two halves of the renderer's SCAN output (R220)
  scnBuf  : List (List Byte)   -- the two halves of the SCN line buffer (R220)
  fault   : Bool               -- channel 1 has halted on a command's data: the event of its DMA_HALT is still to come (R226)
deriving DecidableEq, Repr

/-- A COMPRESS under way (R215, R218): its engine, its ranges, how many bytes its segments have taken, whether that was all, and
whether every self-verify of them agreed. -/
structure Compress where
  pk    : Packet
  eng   : Nat
  src   : Nat
  dst   : Nat
  len   : Nat
  taken : Nat
  fin   : Bool
  ok    : Bool
deriving DecidableEq, Repr

/-- A snapshot waiting for engine 1: its entry index and when it asked (R216, R217). -/
structure SnapWait where
  entry : Nat
  since : T16
deriving DecidableEq, Repr

/-- A stripe-form tile waiting for engine 1: its stripe, bin, position in the body, output length and code. -/
structure TileWait where
  stripe : Nat
  bin  : Nat
  pos  : Nat
  size : Nat
  code : List Byte
deriving DecidableEq, Repr

/-- The run-length engines' queues (10). -/
structure RleState where
  snaps : List SnapWait
  tiles : List TileWait
  comps : List Compress
deriving DecidableEq, Repr

/-! ### DDR5 job store -/

/-- An eye scan under way (R248). -/
structure EyeJob where
  pk    : Packet
  chan  : Nat
  lane  : Nat
  addr  : Nat
deriving DecidableEq, Repr

/-- A job-store request that waits: its port, its channel, and since when (R242, R248). -/
structure MemReq where
  port  : Nat
  chan  : Nat
  since : T16
deriving DecidableEq, Repr

/-- The job-store controller (11). -/
structure DdrState where
  bad     : List Nat            -- 64-byte blocks that a read has found uncorrectable
  errs    : List (Nat × Nat)    -- errors that stand in the DRAM, by beat: bits of DQ0 to DQ39 that differ from what was written
  reqs    : List MemReq         -- requests waiting at the QoS ports
  posCnt  : List (Nat × Nat)
  corr    : List Nat
  uncorr  : List Nat
  scrub   : Nat
  passes  : Nat
  owed    : List (Nat × Nat)
  x2      : List Bool
  tempOk  : List (Option T16)   -- since when each channel has been within 12 °C; none while outside
  badTemp : List Bool
  filled  : Bool
  replay  : List Bool
  eye     : List EyeJob         -- eye scans under way, in the order they were decided
  train   : List Byte           -- the image's training table (Table 11-5)
  unread  : List (Option T16)   -- since when each channel's sensor has not read
deriving DecidableEq, Repr

/-! ### Axes -/

/-- Why an axis is in motion (R287-R297). -/
inductive AxisRun where
  /-- At rest. -/
  | rest
  /-- A trapezoidal move with `r` microsteps still to issue, `stopping` after a stop request (R287, R293). -/
  | trap (r : Nat) (stopping : Bool)
  /-- A jerk-limited move: `r` to issue, still accelerating or not, braking or not, its acceleration term and whether it
  has begun to fall (R289). -/
  | jerk (r : Nat) (up down stopping : Bool) (alpha : Nat) (falling : Bool)
  /-- Following coarse steps: microsteps outstanding, by direction, oldest first; how many of them go out at I_min; `stopping`
  (R290). -/
  | interp (segs : List (Bool × Nat)) (fast : Nat) (stopping : Bool)
  /-- Homing toward negative positions, `n` microsteps issued (R297); with the jerk profile, still accelerating or not, its
  acceleration term and whether that has begun to fall (R289). -/
  | homeSeek (method n : Nat) (up : Bool) (alpha : Nat) (falling : Bool)
  /-- Homing: stopping by request with `r` to issue. -/
  | homeBrake (method r : Nat)
  /-- Homing: backing off, `r` microsteps left where their number is given (METHOD 2), `n` issued. -/
  | homeBack (method r n : Nat)
  /-- Homing by METHOD 1: on to the next electrical zero, `n` microsteps from the switch edge. -/
  | homeIndex (n : Nat)
deriving DecidableEq, Repr

/-- An axis beyond its registers (13). -/
structure Axis where
  run    : AxisRun
  v2     : Nat               -- V2, the state the next microstep is issued at (R286)
  last2  : Nat               -- V2 of the last microstep issued (R295)
  frac   : Nat
  dir    : Bool              -- toward positive positions
  table  : List Nat          -- V2 of the recorded acceleration steps, newest first; their intervals follow from it (R289)
  pk     : Option Packet     -- the command pending on the axis
  stopPk : List Packet       -- the AXIS_STOPs pending on it
  left   : Nat               -- distance kept while a stop request brakes
  moved  : Nat               -- microsteps issued since the move began
  stallN : Nat               -- boundaries in a row at n = 16 above LAGTH
  lagN   : Nat               -- full-step boundaries less LOADFB pulses (R292)
  code   : Nat               -- IREF duty code of the last motion (R291)
  held   : Bool              -- HOLDDLY has passed at rest: IHOLD is in use (R291)
  failed : Bool              -- homing has ended without a home, and MOT_HOMEFAIL is not raised yet (R299)
  tc     : Option Nat        -- Tc, once two coarse edges are known (R290)
  edge   : Bool              -- a coarse edge has been seen in this move
  home   : Int               -- count at which HOME became inactive
deriving DecidableEq, Repr

/-! ### Power and heaters -/

/-- A rail beyond its registers (14). -/
structure Rail where
  off      : Bool             -- found off since it was last switched off, or never switched on
  skipped  : Bool             -- skipped in this power-up (R308)
  fell     : Bool             -- its PG has fallen in this start: the next rise is a chatter rise (R303)
  chat     : Nat              -- rises after a fall in this start
  expired  : Bool             -- DISTO has expired since it was switched off
  met      : Bool             -- started again by an entry to SERVICE: its step condition is taken as met (R307)
deriving DecidableEq, Repr

/-- The power sequencer (14). -/
structure PwrState where
  rails    : List Rail
  discharging : Option Nat    -- the rail the power-down waits for
  downCause : Nat             -- what asked for the power-down: 0 none, 1 STANDBY or schedule, 2 failed power-up, 3 severity 4, 4 cold reset
  steps    : Nat              -- step counter of the running sequence plus one; 0 before step 0 opens
  holdList : List Nat         -- rails that HOLD still has to switch off (R307)
deriving DecidableEq, Repr

/-- A heater zone beyond its registers (14). -/
structure Zone where
  i      : Int
  sum    : Nat
  count  : Nat
  sense  : Bool               -- a scan of this period read 0 or 4,095
  duty   : Nat
  high   : Nat                -- ticks the output is high in the present PWM period
deriving DecidableEq, Repr

/-! ### Mailboxes and debug -/

/-- One mailbox slot (Table 16-3): header fields, payload, whether unread, when its window ends. -/
structure MbxSlot where
  sender : Nat
  len    : Nat
  sep    : Nat
  rep    : Nat
  seq    : Nat
  timeout : Bool
  tag    : Nat
  data   : List Byte
  unread : Bool
  ends   : T16
deriving DecidableEq, Repr

/-- A mailbox channel: its eight slots, its staging area, its sequence number. -/
structure MbxChan where
  slots   : List MbxSlot
  staging : List Byte
  seq     : Nat
deriving DecidableEq, Repr

/-- A shared mailbox (R354, R355): slots, owner number, release pending (erratum A0-05), the packet under way. -/
structure Shm where
  slots   : List Byte
  owner   : Nat
  releasedAt : Option (Nat × Nat)
  run     : Option Packet
deriving DecidableEq, Repr

/-- The mailbox unit and core supervision (16). -/
structure MbxState where
  chans  : List MbxChan
  shms   : List Shm
  aliveAt : List T16
  coreHeld : List Bool
  accesses : Nat               -- register accesses so far, for the 2 clocks of erratum A0-05
deriving DecidableEq, Repr

/-- The JTAG port (R369, R370): the instruction, whether it was refused, the debug session, and what the boundary-scan cells hold for
the pins. -/
structure JtagState where
  ir      : Byte
  refused : Bool
  session : Bool
  cells   : List Bool
deriving DecidableEq, Repr

/-! ### Domains -/

/-- A one-time-programmable key slot (R31): the fused digest and the revoked mark. -/
structure OtpSlot where
  digest  : List Byte
  revoked : Bool
deriving DecidableEq, Repr

/-- A vector of a function's MSI-X table in BAR2 (R376): the message's address and data, its mask and its pending bit. -/
structure MsixVec where
  addr    : Nat
  data    : Nat
  masked  : Bool
  pending : Bool
deriving DecidableEq, Repr

/-- A claim or a release carried out ahead of its command, for another command of its clock (R38): the resource, and the CLM_ENTRY that was
granted or given up. -/
structure ClaimAhead where
  res   : Nat
  entry : Nat
  at_   : T16
deriving DecidableEq, Repr

/-- Power domains, boot and resets (02, 18). -/
structure Domain where
  aon      : Bool             -- the always-on domain is powered
  main     : Bool             -- the main domain is powered and out of reset
  mainUp   : Bool             -- MAIN_UP is high
  perst    : Bool             -- PERST_N has been released
  link     : Bool             -- PCIe link training has begun
  imageOk  : Bool             -- an image has been authenticated
  digest   : List Byte        -- the SHA-384 digest kept in always-on RAM
  slotB    : Bool
  cfgDone  : Bool             -- the sections have been applied since MAIN_UP
  wakeKept : Bool
  coldPend : Bool
  resetting : Nat             -- 0 none, 1 warm reset waiting for replies, 2 warm reset running, 3 cold reset
  waitFor  : List Packet      -- whose replies a warm reset waits for (R379)
  booted   : Bool             -- the AOC has read the flash since the always-on domain started
  cellSel  : List (Nat × Nat) -- GLB_CELLSEL per master
  railTable : List Byte       -- the rail table kept in always-on RAM (R33)
  otp      : List OtpSlot
  d3       : List Bool        -- host functions in D3hot
  flr      : List (Option T16) -- when a host function's FLR began, while it lasts (R351)
  peers    : Option (Nat × Nat) -- the peer range of Requester IDs, lowest and highest, of the PCIe identity section (R345)
  msix     : List (List MsixVec) -- the MSI-X tables and pending-bit arrays of the four functions (R376)
  ahead    : List ClaimAhead  -- claims and releases carried out ahead of their commands (R38)
deriving DecidableEq, Repr

/-- The state of the block. -/
structure State where
  /-- Waiting commands, first in, first out. -/
  pending : List Instr
  /-- Every register of Table 18-1 by BAR0 offset; an unlisted one holds its reset value. -/
  regs    : List (Nat × Word)
  /-- The registers read at COMMIT edges (R158), as in force; an unlisted one is as in `regs`' reset values. -/
  applied : List (Nat × Word)
  /-- The job store (11); an unlisted byte is 0 (R36). -/
  mem     : List Host.Cell
  /-- What the part has written to host memory; an unlisted byte has not been written by it. -/
  hostMem : List Host.Cell
  out     : List Out
  /-- The model's own count of free values taken. -/
  free    : Nat
  dom     : Domain
  cmd     : CmdState
  run     : RunState
  net     : NetState
  flt     : FltState
  snap    : SnapState
  tim     : TimState
  clk     : ClkState
  lay     : LayState
  foot    : FootState
  dose    : DoseState
  gen     : GenState
  esc     : EscState
  scan    : ScanState
  bal     : BalState
  dma     : DmaState
  rle     : RleState
  ddr     : DdrState
  mot     : List Axis
  pwr     : PwrState
  thm     : List Zone
  mbx     : MbxState
  dbg     : JtagState
deriving DecidableEq, Repr

/-! ### The state after reset -/

/-- No queue is enabled, and none has work. -/
def CmdState.reset : CmdState :=
  { started := [], held := [], queues := List.replicate 16 ⟨0, 0, 16, 16, 0, true⟩, next := 0, nextId := 0 }

/-- No step is open, and the always-on logic holds RUN_SYNC low. -/
def RunState.reset : RunState :=
  { line := false, pull := true, step := 0#32, queue := [], cur := none, closedAt := 0 }

/-- A timing port with its link down. -/
def PtpPort.reset : PtpPort :=
  { link := false, cfg := 0, mac := 0, state := .disabled, best := none, pathDelay := 0, offset := 0, lastSyncOrigin := 0,
    lastSyncRx := 0, syncAt := 0, annAt := 0, awaitFollowUp := false, awaitResp := false, reqTx := 0, respRx := none, syncTx := none, reqRx := none, reqCorr := 0,
    respTx := none, rxFrames := 0, discarded := 0, badHb := 0,
    mgmt := 0, syncLost := 0 }

/-- No roster is loaded, and nothing has been heard. -/
def NetState.reset : NetState :=
  { roster := [], peers := [], hbSeq := 0#32, dup := false, dupAt := 0, allstopAt := none, recent := [], heardAt := [],
    lastHbAt := 0, ports := [PtpPort.reset, PtpPort.reset], clockId := 0, clockQual := 0xF8FEFFFF, utcOffset := 0 }

/-- No source has raised, and the log is empty. -/
def FltState.reset : FltState :=
  { recs := [], sevs := [], oldSevs := [], log := [], nextSeq := 0, shared := none, oneClock := false, deadRun := none, inj := [], stopped := [], early := [], allstop := false, latched := false, holdAt := 0,
    lastSev2 := 0, lastCond := 0, recTimes := [], clearing := [], reasons := [], sel := [], alive := false, edges := 0, aliveSince := 0,
    outage := none, credit := 0, downT := 0 }

/-- Sixteen empty entries. -/
def SnapState.reset : SnapState := { entries := List.replicate 16 none, taken := 0, history := [] }

/-- Time 0, with the nominal increment of 2.5 ns. -/
def TimState.reset : TimState :=
  { sec := 0, ns := 0, sub := 0, incr := 0x28000000000, incrNext := none, estimate := 0x28000000000, step := none, shadows := [], key := .idle,
    elapsed := 0, cSec := 0, cNs := 0, cFrac := 0, goodSyncs := 0, ppsLow := 0, upNs := 0 }

/-- Six generators, all off. -/
def ClkState.reset : ClkState :=
  { sets := [], gens := List.replicate 6 ⟨0, none, false⟩, plan := [], restarts := [0, 0, 0, 0], gated := false }

/-- No region, job, stripe or hole. -/
def LayState.reset : LayState :=
  { regions := [], jobs := [], stripes := [], waiting := [], handles := 0, fxHandle := 0, holes := [], holeSeq := 0#32,
    lost := false }

/-- Nothing fetched, rendered or stored. -/
def FootState.reset : FootState :=
  { handle := 0, bins := [], nextBin := 0, nextLine := 0, staged := [], store := [], binTotal := 0, binOf := 0, raised := [],
    ahead := [], aheadOf := 0, run := none, noLive := none }

/-- The heating map is clear. -/
def DoseState.reset : DoseState :=
  { heat := [], q := [], shots := [], values := [], adds := [], kernel := none, nextKernel := false, retire := [],
    noLive := [], nlNext := 0 }

/-- Six free slots, and no run. -/
def GenState.reset : GenState :=
  { slots := List.replicate 6 ⟨.empty, none, 0⟩, readied := 0, queue := [], cur := none, kept := none, lastCal := 0, checkFrom := 0, gate := false }

/-- No sample, no stripe. -/
def EscState.reset : EscState :=
  { base := 0#64, samples := [], arrived := [], entered := 0, tLast := 0, slotAt := 0, decides := [], subs := 0, refSeq := none, ackSeq := 0,
    encCount := 0, firing := none, homeX := 0, homeY := 0, homeOk := false, cancels := none }

/-- No start-of-scan seen. -/
def ScanState.reset : ScanState :=
  { intervals := [], tPrev := 0, misses := 0, facet := 0, index := false, seenIndex := false, interval := 0,
    started := false, lines := [], moved := 0, inBuf := [], lost := [], held := [], edges := false, rest := false, run := none }

/-- BLANK_ALL asserted, every strobe low. -/
def BalState.reset : BalState :=
  { blankAll := true, span := false, high := [], times := [], tri := [], lastFall := none, risen := [], fell := [], full := 0, late := [], framed := 0, status := [],
    run := none, damage := [], rateBusy := false, tail := none }

/-- Twelve idle channels, with no credit (log entry 169). -/
def DmaState.reset : DmaState :=
  { chans := List.replicate 12 ⟨0, [], [], 0, 0, 0, none, false⟩, pulses := [], prime := false, release := false, swaps := [], turn := 0,
    load := none, loads := [], scanOut := [[], []],
    scnBuf := [[], []], fault := false }

/-- Both engines idle. -/
def RleState.reset : RleState := { snaps := [], tiles := [], comps := [] }

/-- No DIMM trained. -/
def DdrState.reset : DdrState :=
  { bad := [], errs := [], reqs := [], posCnt := [], corr := [0, 0, 0, 0], uncorr := [0, 0, 0, 0], scrub := 0, passes := 0, owed := [],
    x2 := [false, false, false, false], tempOk := [none, none, none, none], badTemp := [false, false, false, false],
    filled := false, replay := [false, false, false, false], eye := [], train := [],
    unread := [none, none, none, none] }

/-- An axis at rest, not homed. -/
def Axis.reset : Axis :=
  { run := .rest, v2 := 0, last2 := 0, frac := 0, dir := false, table := [], pk := none, stopPk := [], left := 0,
    moved := 0, stallN := 0, lagN := 0, code := 0, held := false, failed := false, tc := none, edge := false, home := 0 }

/-- Every rail off, SEQ_SYNC driven low (R302). -/
def PwrState.reset : PwrState :=
  { rails := List.replicate 24 ⟨true, false, false, 0, false, false⟩, discharging := none, downCause := 0,
    steps := 0, holdList := [] }

/-- A zone that does not regulate. -/
def Zone.reset : Zone :=
  { i := 0, sum := 0, count := 0, sense := false, duty := 0, high := 0 }

/-- A mailbox slot that holds nothing. -/
def MbxSlot.reset : MbxSlot :=
  { sender := 0, len := 0, sep := 0, rep := 0, seq := 0, timeout := false, tag := 0, data := [], unread := false, ends := 0 }

/-- Empty channels and free shared mailboxes. -/
def MbxState.reset : MbxState :=
  { chans := List.replicate 48 ⟨List.replicate 8 MbxSlot.reset, List.replicate 56 0#8, 0⟩,
    shms := List.replicate 4 ⟨List.replicate 512 0#8, 0, none, none⟩, aliveAt := [0, 0, 0],
    coreHeld := [true, true, true], accesses := 0 }

/-- IDCODE in the instruction register, and no session. -/
def JtagState.reset : JtagState := { ir := 0x01#8, refused := false, session := false, cells := [] }

/-- A vector that no host has set up: not masked (log entry 170). -/
def MsixVec.reset : MsixVec := { addr := 0, data := 0, masked := false, pending := false }

/-- The always-on domain has just been powered. -/
def Domain.reset : Domain :=
  { aon := true, main := false, mainUp := false, perst := false, link := false, imageOk := false, digest := [],
    slotB := false, cfgDone := false, wakeKept := false, coldPend := false, resetting := 0, waitFor := [],
    booted := false, cellSel := [],
    railTable := [], otp := List.replicate 3 ⟨List.replicate 48 0#8, false⟩, d3 := [false, false, false, false],
    flr := [none, none, none, none], peers := none, msix := List.replicate 4 (List.replicate 64 MsixVec.reset), ahead := [] }

/-- The machine right after always-on power-up, before the AOC has read the flash: STANDBY, every register at its reset
value, memory empty, no command waiting. -/
def State.reset : State :=
  { pending := [], regs := [], applied := [], mem := [], hostMem := [], out := [], free := 0,
    dom := Domain.reset, cmd := CmdState.reset, run := RunState.reset, net := NetState.reset, flt := FltState.reset,
    snap := SnapState.reset, tim := TimState.reset, clk := ClkState.reset, lay := LayState.reset, foot := FootState.reset,
    dose := DoseState.reset, gen := GenState.reset, esc := EscState.reset, scan := ScanState.reset, bal := BalState.reset,
    dma := DmaState.reset, rle := RleState.reset, ddr := DdrState.reset, mot := List.replicate 8 Axis.reset,
    pwr := PwrState.reset, thm := List.replicate 6 Zone.reset, mbx := MbxState.reset, dbg := JtagState.reset }

end Sys2Proof.Machine
end

