-- ==== Sys2Proof/Machine/Store.lean ====
section
/-! DEFINITION. Sparse data in one canonical form: a list of keys and values, keys strictly rising, no entry equal to
what an unlisted key reads as. Registers, the job store and host memory are held so. -/

namespace Sys2Proof.Machine

/-- The value at `k`; an unlisted key holds `d k`. -/
def storeGet {α : Type} (d : Nat → α) : List (Nat × α) → Nat → α
  | [], k => d k
  | (j, v) :: t, k => if j = k then v else storeGet d t k

/-- The store with `v` at `k`, in canonical form. -/
def storePut {α : Type} [DecidableEq α] (d : Nat → α) : List (Nat × α) → Nat → α → List (Nat × α)
  | [], k, v => if v = d k then [] else [(k, v)]
  | (j, w) :: t, k, v =>
    if k < j then if v = d k then (j, w) :: t else (k, v) :: (j, w) :: t
    else if k = j then if v = d k then t else (k, v) :: t
    else (j, w) :: storePut d t k v

/-- Every key of the list is above `k`. -/
def storeAbove {α : Type} (k : Nat) : List (Nat × α) → Bool
  | [] => true
  | (j, _) :: t => decide (k < j) && storeAbove k t

/-- The canonical form. -/
def storeWf {α : Type} [DecidableEq α] (d : Nat → α) : List (Nat × α) → Bool
  | [] => true
  | (k, v) :: t => decide (v ≠ d k) && storeAbove k t && storeWf d t

/-- The store with the values `vs` at `k`, `k + 1`, …. -/
def storeFill {α : Type} [DecidableEq α] (d : Nat → α) (l : List (Nat × α)) (k : Nat) : List α → List (Nat × α)
  | [] => l
  | v :: vs => storeFill d (storePut d l k v) (k + 1) vs

/-- The values at `k`, …, `k + n - 1`. -/
def storeRange {α : Type} (d : Nat → α) (l : List (Nat × α)) (k : Nat) : Nat → List α
  | 0 => []
  | n + 1 => storeGet d l k :: storeRange d l (k + 1) n

/-- What an unlisted byte of memory reads as (R36: the job store is filled with zeros). -/
def byteDefault (_ : Nat) : BitVec 8 := 0#8

/-- The canonical form of a memory. -/
def Memory.wf (m : List Host.Cell) : Bool := storeWf byteDefault m

end Sys2Proof.Machine
end

