-- ==== Sys2Proof/Machine/Ops.lean ====
section
/-! DEFINITION. The shared operations over the state: registers (R9–R12), the job store and host memory, time (R56),
replies (R51–R55), the hole log (R70, R71) and stripe reports (Table 3-8). -/

namespace Sys2Proof.Machine

/-- The outcome of a meaning. -/
abbrev Outcome : Type := Host.Outcome State Fault Refusal

/-! ### Registers -/

/-- The stored value of the register at `off`. -/
def State.rd (s : State) (off : Nat) : Nat := (storeGet resetValue s.regs off).toNat

/-- The register at `off` set to `v`. -/
def State.wr (s : State) (off v : Nat) : State :=
  { s with regs := storePut resetValue s.regs off (BitVec.ofNat 32 v) }

/-- The field of `n` bits from bit `lo` of the register at `off`. -/
def State.fld (s : State) (off lo n : Nat) : Nat := bits (s.rd off) lo n

/-- The field of `n` bits from bit `lo` of the register at `off`, set to `v`. -/
def State.setFld (s : State) (off lo n v : Nat) : State := s.wr off (setBits (s.rd off) lo n v)

/-- Bit `k` of the register at `off`. -/
def State.flag (s : State) (off k : Nat) : Bool := bitAt (s.rd off) k

/-- Bit `k` of the register at `off`, set to `b`. -/
def State.setFlag (s : State) (off k : Nat) (b : Bool) : State := s.wr off (setBit (s.rd off) k b)

/-- Ticks of the timekeeper tell clocks apart: in a main domain that is up, from the first tick on. Otherwise every command has a clock of
its own (log entry 142). -/
def State.clocked (s : State) : Bool := s.dom.main && decide (s.tim.elapsed ≠ 0)

/-- The command by which time passes. -/
def isTick (c : Instr) : Bool := c == .timekeeperTick || c == .crystalEdge

/-- The commands that wait before the next tick. -/
def State.beforeTick (s : State) : List Instr := s.pending.takeWhile (fun c => !isTick c)

/-- Hardware sets W1C bits of a register on this clock, or adds `n` to a count that a write clears (R12). -/
def State.hwSet (s : State) (off w n : Nat) : State :=
  { s with clk := { s.clk with sets :=
      if s.clocked then s.clk.sets.filter (fun x => x.at_ == s.tim.elapsed) ++ [⟨off, w, n, s.tim.elapsed⟩] else s.clk.sets } }

/-- What hardware has set in a register, or added to its count, on the present clock (R12). -/
def State.setsNow (s : State) (off : Nat) : List HwSet :=
  if s.clocked then s.clk.sets.filter (fun x => x.off == off && x.at_ == s.tim.elapsed) else []

/-- A W1C bit is set by hardware (R12). -/
def State.setW1c (s : State) (off k : Nat) : State := (s.setFlag off k true).hwSet off (2 ^ k) 0

/-- A count that saturates at `top` and that a write clears goes up by `n`. -/
def State.countIn (s : State) (top off n : Nat) : State := (s.wr off (satAdd top (s.rd off) n)).hwSet off 0 n

/-- A count that saturates at 0xFFFF_FFFF goes up by `n`. -/
def State.count (s : State) (off n : Nat) : State := s.countIn 0xFFFFFFFF off n

/-- The value in force of a register that is read at COMMIT edges (R158). -/
def State.ap (s : State) (off : Nat) : Nat := (storeGet resetValue s.applied off).toNat

/-- A field of the value in force (R158). -/
def State.apFld (s : State) (off lo n : Nat) : Nat := bits (s.ap off) lo n

/-- The current mode (Table 2-1): 0 STANDBY, 1 SERVICE, 2 ARRAY, 3 SCAN, 4 CHECK, 5 HOLD. -/
def State.mode (s : State) : Nat := s.fld rGlbMode 29 3

/-- The system index (R17). -/
def State.sysIdx (s : State) : Nat := s.fld rGlbCfg 16 6

/-- The part drives the SCN port, not the beam-array link (R27). -/
def State.scnPort (s : State) : Bool := s.flag rGlbCfg 29

/-- A mode of exposure: ARRAY, SCAN or CHECK. -/
def exposing (m : Nat) : Bool := m == 2 || m == 3 || m == 4

/-- An output appears. -/
def State.emit (s : State) (o : Out) : State := { s with out := s.out ++ [o] }

/-- The boundary scan has the pins (R370): EXTEST, CLAMP or HIGHZ is loaded and was not refused. -/
def State.scanDrives (s : State) : Bool :=
  !s.dbg.refused && (s.dbg.ir == 0x03#8 || s.dbg.ir == 0x04#8 || s.dbg.ir == 0x05#8)

/-- An output on pins of the boundary scan: displaced while the scan has them (R370). -/
def State.emitPin (s : State) (o : Out) : State := if s.scanDrives then s else s.emit o

/-- A vector of a function is signalled (R376): a masked one stays pending. -/
def State.signal (s : State) (fn vec : Nat) : State :=
  let v := (s.dom.msix.getD fn []).getD vec MsixVec.reset
  if v.masked then
    { s with dom := { s.dom with msix := updAt s.dom.msix fn (fun l => updAt l vec (fun x => { x with pending := true })) } }
  else s.emit (.msix fn vec)

/-! ### Memory -/

/-- `n` bytes of the job store from `a`. -/
def State.memRead (s : State) (a n : Nat) : List Byte := storeRange byteDefault s.mem a n

/-- The job store with the bytes `bs` at `a`. -/
def State.memWrite (s : State) (a : Nat) (bs : List Byte) : State :=
  { s with mem := storeFill byteDefault s.mem a bs }

/-- A posted write of the part to host memory. -/
def State.hostWrite (s : State) (a : Nat) (bs : List Byte) : State :=
  { s with hostMem := storeFill byteDefault s.hostMem a bs }

/-! ### Time -/

/-- One second and one millisecond, in 2^-16 ns. -/
def t16ms : T16 := 65536000000

/-- A count of microseconds in 2^-16 ns. -/
def t16us (n : Nat) : T16 := 65536000 * n

/-- The TIME field (R56) of a time. -/
def timeBytes (sec ns frac : Nat) : List Byte := leBytes 8 sec ++ leBytes 4 ns ++ leBytes 2 frac ++ leBytes 2 0

/-- TIME on the part's timekeeper, or on the coarse timekeeper in STANDBY (R262). -/
def State.timeNow (s : State) : List Byte :=
  if s.dom.main then timeBytes s.tim.sec s.tim.ns (s.tim.sub / 2 ^ 24) else timeBytes s.tim.cSec s.tim.cNs s.tim.cFrac

/-- The timekeeper in 2^-40 ns. -/
def State.now40 (s : State) : Nat := (s.tim.sec * 1000000000 + s.tim.ns) * 2 ^ 40 + s.tim.sub

/-- The time of a TIME field in 2^-40 ns. -/
def time40 (bs : List Byte) : Nat := (getU bs 0 8 * 1000000000 + getU bs 8 4) * 2 ^ 40 + getU bs 12 2 * 2 ^ 24

/-! ### Free values -/

/-- The next free value (log entry 3): nothing constrains it. -/
def State.freeVal (s : State) : Nat := (Config.freeValue s.free).toNat

/-- One free value has been taken. -/
def State.tookFree (s : State) : State := { s with free := s.free + 1 }

/-! ### Packets and replies -/

/-- OPCODE of a packet (Table 3-1). -/
def pkOpcode (pk : Packet) : Nat := getU pk.bytes 0 1
/-- SEQ of a packet. -/
def pkSeq (pk : Packet) : Nat := getU pk.bytes 2 2
/-- LENGTH of a packet. -/
def pkLength (pk : Packet) : Nat := getU pk.bytes 6 2
/-- RBUF of a packet. -/
def pkRbuf (pk : Packet) : Nat := getU pk.bytes 8 8
/-- The unsigned parameter of `n` bytes at offset `o`. -/
def pkU (pk : Packet) (o n : Nat) : Nat := getU pk.bytes o n
/-- The signed parameter of `n` bytes at offset `o`. -/
def pkS (pk : Packet) (o n : Nat) : Int := getS pk.bytes o n
/-- The bytes available at RBUF: an RBUF of 0 counts as an RBUF_LEN of 0 (R55). -/
def pkRoom (pk : Packet) : Nat := if pkRbuf pk = 0 then 0 else getU pk.bytes 0x10 4

/-- The entry of a started packet. -/
def State.startedOf (s : State) (pk : Packet) : Option Started := s.cmd.started.find? (fun e => e.pk == pk)

/-- The packet's reply is still wanted: its queue has not been disabled since (R53). -/
def State.wanted (s : State) (pk : Packet) : Bool :=
  match s.startedOf pk with
  | some e => !e.discard
  | none => false

/-- The bytes the packet's result may take: none once its reply is discarded (R53, log entry 12). -/
def State.room (s : State) (pk : Packet) : Nat := if s.wanted pk then pkRoom pk else 0

/-- What a reply says (Table 3-2): status, DETAIL, RESULT, result data and the size of its records (1 when it has none),
and whether result data beyond it exist. -/
structure Reply where
  status : Nat
  detail : Nat
  result : Nat
  data   : List Byte
  unit   : Nat
  more   : Bool
deriving DecidableEq, Repr

/-- A reply without result data. -/
def Reply.plain (status detail result : Nat) : Reply := ⟨status, detail, result, [], 1, false⟩

/-- OK with a RESULT. -/
def Reply.ok (result : Nat) : Reply := .plain 0 0 result

/-- BAD_PARAM at a byte offset (R57). -/
def Reply.badParam (o : Nat) : Reply := .plain 2 o 0

/-- A refusal: DETAIL holds the sub-reason and the index it names (Table 3-2). -/
def Reply.refuse (status sub idx result : Nat) : Reply := .plain status (sub * 2 ^ 24 + idx % 2 ^ 24) result

/-- A channel has done a transfer for the movement (R219, Table 10-1): `regs` are settings that the transfer gives; the channel is
IDLE, with one descriptor done. -/
def State.duty (s : State) (n : Nat) (regs : List (Nat × Nat)) : State :=
  if s.dom.main then (regs.foldl (fun t p => t.wr p.1 p.2) s).wr (rDmaStat n) 1 else s

/-- HFUNC of a function (DMA_DCTL). -/
def hfunc : Master → Nat
  | .h1 => 1 | .h2 => 2 | .h3 => 3 | _ => 0

/-- Result data go to RBUF, through channel 1 (R219). -/
def State.resultOut (s : State) (pk : Packet) (bs : List Byte) : State :=
  if bs.isEmpty then s
  else
    let a := pkRbuf pk
    (s.hostWrite a bs).duty 1
      [(rDmaDctl 1, 2 ^ 28 + hfunc pk.fn * 2 ^ 26), (rDmaDstLo 1, a % 2 ^ 32), (rDmaDstHi 1, a / 2 ^ 32 % 2 ^ 32)]

/-- A burst of channel 1 fails on this clock, among the `n` bytes that it writes from `lo` on for a command: the cause and the burst's address.
The DMA_HALT that says so stands behind the command (R226, log entry 191). -/
def State.chanFault (s : State) (lo n : Nat) : Option (Nat × Nat) :=
  if !s.clocked then none
  else s.beforeTick.findSome? (fun c => match c with
    | .dmaHalt k true cause addr =>
      if k.val = 1 ∧ 1 ≤ cause.val ∧ cause.val ≤ 5 ∧ lo ≤ addr ∧ addr < lo + n then some (cause.val, addr) else none
    | _ => none)

/-- Channel 1 halts on a command's data, and the movement aborts it (R226). -/
def State.chanHalts (s : State) (f : Nat × Nat) : State :=
  let t := ((s.wr (rDmaStat 1) (2 ^ 28 + f.1 * 2 ^ 24)).wr (rDmaErraLo 1) (f.2 % 2 ^ 32)).wr (rDmaErraHi 1) (f.2 / 2 ^ 32 % 2 ^ 32)
  { t with dma := { t.dma with fault := true } }

/-- Result data go to RBUF, as far as channel 1 gets with them. -/
def State.dataOut (s : State) (pk : Packet) (bs : List Byte) : State :=
  match s.chanFault (pkRbuf pk) bs.length with
  | some f => (s.resultOut pk (bs.take (f.2 - pkRbuf pk))).chanHalts f
  | none => s.resultOut pk bs

/-- The reply of a command whose channel 1 has halted: BAD_PARAM, with the channel and the cause (R226). -/
def chanReply (f : Nat × Nat) : Reply := .plain 2 (0x02 * 2 ^ 24 + 2 ^ 8 + f.1) 0

/-- The packet completes with a reply (R51, R55): result data go to RBUF, cut at RBUF_LEN or in whole records, and the
reply waits for its completion entry; a discarded reply is dropped (R53). Where channel 1 halts on them, they end there, and so does the
reply (R226). -/
def State.complete (s : State) (pk : Packet) (r : Reply) : State :=
  match s.startedOf pk with
  | none => s
  | some e =>
    let rest := s.cmd.started.filter (fun x => !(x.pk == pk))
    if s.cmd.held.any (fun h => h.pk == pk) then s
    else if e.discard then { s with cmd := { s.cmd with started := rest } }
    else
      let room := pkRoom pk
      let cut := r.data.take (room - room % r.unit)
      let fault := s.chanFault (pkRbuf pk) cut.length
      let sent := match fault with | some f => cut.take (f.2 - pkRbuf pk) | none => cut
      let q := match fault with | some f => chanReply f | none => r
      let s1 := s.dataOut pk cut
      let h : Held := ⟨pk, q.status, q.detail % 2 ^ 32, q.result % 2 ^ 32,
        r.more || decide (sent.length < r.data.length), !sent.isEmpty⟩
      { s1 with cmd := { s1.cmd with
          started := s1.cmd.started.map (fun x => if x.pk == pk then { x with taken := true } else x),
          held := s1.cmd.held ++ [h] } }

/-- The packet waits for a port of the job store: it is decided anew (log entry 164). -/
def State.untake (s : State) (pk : Packet) : State :=
  { s with cmd := { s.cmd with started := s.cmd.started.map (fun x => if x.pk == pk then { x with taken := false } else x) } }

/-- The packet has been decided, and its reply comes later. -/
def State.take (s : State) (pk : Packet) : State :=
  { s with cmd := { s.cmd with started := s.cmd.started.map (fun x => if x.pk == pk then { x with taken := true } else x) } }

/-- The packet has been started and not yet decided: the only packets an opcode's command is about (log entry 2). -/
def State.ready (s : State) (pk : Packet) : Bool :=
  match s.startedOf pk with
  | some e => !e.taken
  | none => false

/-! ### Stripes and holes -/

/-- The admitted stripe with this handle. -/
def State.stripeOf (s : State) (h : Nat) : Option Stripe := s.lay.stripes.find? (fun x => x.handle == h)

/-- The stripes with the one of this handle changed. -/
def State.updStripe (s : State) (h : Nat) (f : Stripe → Stripe) : State :=
  { s with lay := { s.lay with stripes := s.lay.stripes.map (fun x => if x.handle == h then f x else x) } }

/-- The job with this identifier. -/
def State.jobOf (s : State) (id : Nat) : Option Job := s.lay.jobs.find? (fun x => x.id == id)

/-- P_min of a rate (R168): 1/RATE rounded up to a fine-delay step, in 2^-16 ns. -/
def pMin (rate : Nat) : Nat := 640 * ceilDiv (1000000000 * 2 ^ 16) (640 * rate)

/-- A stripe with a hole counted in its report (R71, Table 3-8). -/
def Stripe.withHole (x : Stripe) (h : Hole) (logged : Bool) : Stripe :=
  { x with
    holes := x.holes + 1
    logged := x.logged + (if logged then 1 else 0)
    envFirst := if x.holes = 0 then h.yFirst else min x.envFirst h.yFirst
    envLast := if x.holes = 0 then h.yLast else max x.envLast h.yLast
    remainder := x.remainder || h.remainder }

/-- A hole arises (R70, R71): it is logged unless the log is full, and the stripe's report counts it either way. -/
def State.addHole (s : State) (handle : Nat) (h : Hole) : State :=
  if s.lay.holes.length < 1024 then
    let h' := { h with lostBefore := s.lay.lost, logSeq := s.lay.holeSeq.toNat }
    let s1 := s.updStripe handle (fun x => x.withHole h true)
    { s1 with lay := { s1.lay with holes := s1.lay.holes ++ [h'], holeSeq := s1.lay.holeSeq + 1#32, lost := false } }
  else
    let s1 := s.updStripe handle (fun x => x.withHole h false)
    { s1 with lay := { s1.lay with lost := true } }

/-- Time charged to the part itself (R343). -/
def State.charge (s : State) (t : T16) : State := { s with flt := { s.flt with downT := s.flt.downT + t } }

/-- The pixel pitch, pixel-phase count and channels of a stripe's job: p, M and CHANNELS; of a completed stripe, whose job may be closed, as it
was. -/
def State.geom (s : State) (x : Stripe) : Nat × Nat × Nat :=
  match s.jobOf x.job with
  | some j => (j.pitch, j.m, j.chans)
  | none => x.geo

/-- Every channel of a SCAN job, as a hole MASK. -/
def chanMask (chans : Nat) : Nat := 2 ^ chans - 1

/-- The stripe completion report of Table 3-8. -/
def reportBytes (x : Stripe) (status : Nat) : List Byte :=
  leBytes 4 x.stripe ++ leBytes 4 x.job ++ leBytes 1 x.pass ++ leBytes 1 status ++ leBytes 2 x.gen ++
  leBytes 4 x.shots ++ leBytes 16 x.tFirst ++ leBytes 16 x.tLast ++ leBytes 4 x.holes ++ leBytes 4 x.logged ++
  leBytesS 8 x.envFirst ++ leBytesS 8 x.envLast ++ leBytes 4 x.clip ++ leBytes 4 x.tSat

/-- The status of a completed stripe (R67). -/
def stripeStatus (x : Stripe) : Nat := if x.remainder then 0x21 else if x.holes = 0 then 0 else 0x20

/-- The footprint store, its directory, the expander and the renderer start over (R117); the bins of the next admitted stripe that
the expander has fetched ahead stay. -/
def State.emptyFoot (s : State) : State :=
  let h := s.foot.aheadOf
  let keep := (s.stripeOf h).isSome
  let foot : FootState := if keep then { FootState.reset with
      ahead := s.foot.ahead, aheadOf := h, raised := s.foot.raised.filter (fun r => r.1 == h) } else FootState.reset
  let t : State := { s with foot := foot, scan := { s.scan with lines := [], moved := 0, inBuf := [], lost := [], held := [] },
                            dma := { s.dma with release := false },
                            rle := { s.rle with tiles := if keep then s.rle.tiles.filter (fun w => w.stripe == h) else [] },
                            ddr := { s.ddr with reqs := s.ddr.reqs.filter (fun r => decide (2 ≤ r.port)) } }
  (t.wr rRasFpUsed 0).setFld rLayStat 27 5 0

/-- A source of the event matrix emits its pulse (R227): it travels to the enabled sinks that select it. -/
def State.pulse (s : State) (src : Nat) : State :=
  if (List.range 17).any (fun k => s.flag (rDmaEvmSel k) 31 && s.fld (rDmaEvmSel k) 0 6 == src) then
    { s with dma := { s.dma with pulses := s.dma.pulses ++ [src] } }
  else s

/-- The expander turns to a stripe: for another one than before, the store starts over, with the bins fetched ahead (R117). -/
def State.footFor (s : State) (h : Nat) : State :=
  if s.foot.handle = h then s
  else
    let t := s.emptyFoot.wr rRasLine 0xFFFFFFFF
    if t.foot.aheadOf = h then
      { t with foot := { t.foot with handle := h, bins := t.foot.ahead, nextBin := t.foot.ahead.length, ahead := [], aheadOf := 0 } }
    else { t with foot := { t.foot with handle := h } }

/-- The pins of a generation: admitted stripes that name it and have not completed (R64). -/
def State.pins (s : State) (scan : Bool) (gen : Nat) : Nat :=
  (s.lay.stripes.filter (fun x => x.gen == gen &&
    (match s.jobOf x.job with | some j => j.scan == scan | none => false))).length

/-- A slot returns to FREE (R151). -/
def State.freeSlot (s : State) (n : Nat) : State :=
  { s with gen := { s.gen with slots := updAt s.gen.slots n (fun _ => ⟨.empty, none, 0⟩) } }.wr (rBmhGen n) 0

/-- The generation a kernel slot holds (0 when none). -/
def State.genAt (s : State) (n : Nat) : Nat := s.fld (rBmhGen n) 0 16

/-- The state of a slot: 0 FREE, 1 FILLING, 2 READY, 3 IN_FORCE. -/
def State.slotState (s : State) (n : Nat) : Nat := s.fld (rBmhGen n) 30 2

/-- A generation in force returns to READY (R152). -/
def State.slotBack (s : State) (n : Nat) : State :=
  if s.slotState n = 3 then s.setFld (rBmhGen n) 30 2 2 else s

/-- The stripe completes (R67): its STRIPE_ARM replies with its report, and it leaves the table, which drops its pins. -/
def State.completeStripe (s : State) (handle : Nat) : State :=
  match s.stripeOf handle with
  | none => s
  | some x =>
    let st := stripeStatus x
    let s1 := match x.armPk with
      | some pk => s.complete pk ⟨st, 0, 0, reportBytes x st, 1, false⟩
      | none => s
    { s1 with lay := { s1.lay with stripes := s1.lay.stripes.filter (fun y => !(y.handle == handle)) },
              bal := { s1.bal with tail := some { x with geo := s.geom x } } }

/-- A stripe dropped before anything of it was exposed (R68, R69): its STRIPE_ARM, if any, completes STRIPE_ABORTED with
SHOTS = 0. -/
def State.dropStripe (s : State) (handle : Nat) : State :=
  match s.stripeOf handle with
  | none => s
  | some x =>
    let s1 := match x.armPk with
      | some pk => s.complete pk ⟨0x21, 0, 0, reportBytes { x with shots := 0 } 0x21, 1, false⟩
      | none => s
    { s1 with lay := { s1.lay with stripes := s1.lay.stripes.filter (fun y => !(y.handle == handle)) } }

end Sys2Proof.Machine
end

