-- ==== Sys2Proof/Machine/Link.lean ====
section
/-! DEFINITION. The transmit side of the beam-array link: blocks, frames and idle blocks (R185–R190), spare lanes (R204, R205), and the
stripe boundary at which they take effect. -/

namespace Sys2Proof.Machine

/-! ### Lanes -/

/-- The beam-array link is enabled (R187). -/
def State.linkOn (s : State) : Bool := s.flag rBalCfg 31 && !s.scnPort && s.dom.main

/-- Frames can be sent: the link is enabled, and no rate change is under way (R186). -/
def State.linkUp (s : State) : Bool := s.linkOn && !s.bal.rateBusy

/-- The logical lane is carried by this spare. -/
def State.spareOf (s : State) (lane : Nat) : Option Nat :=
  [0, 1, 2, 3].find? (fun n => s.fld (rBalSpare n) 29 2 == 2 && s.fld (rBalSpare n) 0 6 == lane)

/-- The transmit lane that carries a logical lane (R185, R204). -/
def State.laneOut (s : State) (lane : Nat) : Nat :=
  match s.spareOf lane with
  | some n => 64 + n
  | none => lane

/-- An idle block (R187). -/
def idleBlock : Block := ⟨true, 0x1E#64⟩

/-- Transmit lanes send idle blocks from now on, while the link is enabled (R187). -/
def State.idleOn (s : State) (lanes : List Nat) : State := if s.linkOn then s.emit (.idleBlocks lanes idleBlock) else s

/-- Every transmit lane (R185). -/
def txLanes : List Nat := List.range 68

/-- WIDTH, in fine-delay steps, of a register value, taken as the nearest limit. -/
def widthOf (v : Nat) : Nat := clampN (bits v 0 17) 820 102400

/-! ### Frames -/

/-- The header fields of a frame that all its lanes share (Table 9-2). -/
structure FrameHead where
  kind   : Nat
  flags  : Nat
  shot   : Nat
  stripe : Nat
  pass   : Nat
  gen    : Nat
deriving DecidableEq, Repr

/-- The header of an IDLE frame. -/
def FrameHead.idle : FrameHead := ⟨2, 0, 0, 0, 0, 0⟩

/-- The eight bytes of a payload, in order. -/
def Block.bytes (b : Block) : List Byte := leBytes 8 b.payload.toNat

/-- HDR0 and HDR1 of a logical lane's frame (Table 9-2). -/
def headBlocks (lane : Nat) (h : FrameHead) : List Block :=
  [⟨true, BitVec.ofNat 64 (0xD2 + lane * 2 ^ 8 + h.kind * 2 ^ 16 + h.flags * 2 ^ 24 + h.shot % 2 ^ 32 * 2 ^ 32)⟩,
   ⟨false, BitVec.ofNat 64 (h.stripe % 2 ^ 32 + h.pass * 2 ^ 32 + h.shot % 16 * 2 ^ 40 + h.gen * 2 ^ 48)⟩]

/-- D0–D511 of a logical lane (R188), of the 262,144 values row by row: byte b of Dw is the value of row 8l + w/64, column
8·(w mod 64) + b. -/
def dataBlocks (values : List Byte) (lane : Nat) : List Block :=
  (List.range 512).map (fun w => ⟨false, BitVec.ofNat 64 (getU values (4096 * lane + 8 * w) 8)⟩)

/-- The CRC block after the blocks of a frame (R189). -/
def crcBlock (shot : Nat) (bs : List Block) : Block :=
  ⟨false, BitVec.ofNat 64 (crc32 (bs.map Block.bytes).flatten + shot % 2 ^ 32 * 2 ^ 32)⟩

/-- A logical lane's frame: header, data blocks and CRC (R188–R190). -/
def laneFrame (h : FrameHead) (data : Nat → List Block) (lane : Nat) : List Block :=
  let bs := headBlocks lane h ++ data lane
  bs ++ [crcBlock h.shot bs]

/-- One frame goes out on every logical lane, and idle blocks follow it (R187, R188). -/
def State.sendFrames (s : State) (h : FrameHead) (data : Nat → List Block) : State :=
  let lanes := (List.range 64).map s.laneOut
  (s.emit (.frames ((List.range 64).map (fun l => (s.laneOut l, laneFrame h data l))))).idleOn lanes

/-- A shot's frames are sent (R188); without an enabled link there is nothing that carries them (R187). -/
def State.sendShot (s : State) (h : FrameHead) (values : List Byte) : State :=
  if s.linkUp then (s.sendFrames h (dataBlocks values)).count (rBalCnt 0) 1 else s

/-- One IDLE frame on every logical lane (R190). -/
def State.sendIdle (s : State) : State :=
  if s.linkUp then (s.sendFrames FrameHead.idle (fun _ => [])).count (rBalCnt 7) 1 else s

/-! ### Spares and the stripe boundary -/

/-- A spare whose assignment waits for a stripe boundary takes effect (R204, R205): the lane that it replaces sends idle blocks. -/
def State.applySpare (s : State) (n : Nat) : State :=
  if s.fld (rBalSpare n) 29 2 = 1 then
    (((s.setFld (rBalSpare n) 29 2 2).count (rBalCnt 5) 1)).idleOn [s.fld (rBalSpare n) 0 6]
  else s

/-- The logical lane is carried by a spare, or pending on one (R204). -/
def State.laneSpared (s : State) (lane : Nat) : Bool :=
  [0, 1, 2, 3].any (fun n => s.flag (rBalSpare n) 31 && s.fld (rBalSpare n) 0 6 == lane)

/-- A lane whose damaged frames reached THRESH gets the lowest free spare that may replace it (R205, erratum A0-07). -/
def State.autoSpare (s : State) (lane : Nat) : State :=
  let hits := ((s.bal.damage.find? (fun p => p.1 == lane)).map (·.2)).getD 0
  if s.flag rBalSpareCfg 31 && decide (max 1 (s.fld rBalSpareCfg 0 8) ≤ hits) && !s.laneSpared lane then
    match [0, 1, 2, 3].find? (fun n => !s.flag (rBalSpare n) 31 && !(n == 3 && lane == 0)) with
    | some n => s.wr (rBalSpare n) (2 ^ 31 + 2 ^ 29 + lane)
    | none => s
  else s

/-- Spares are assigned and take effect (R204, R205). -/
def State.spares (s : State) : State := (List.range 4).foldl State.applySpare ((List.range 64).foldl State.autoSpare s)

/-- The next firing span begins (R204, R205): what the statuses of the pass before have still brought takes effect, and the damaged
frames are counted anew. -/
def State.sparesAnew (s : State) : State := { s.spares with bal := { s.spares.bal with damage := [] } }

/-- A stripe boundary (R152, R153, R204, R205): spares take effect, the pass's generation returns to READY, the footprint
store is emptied. -/
def State.boundary (s : State) : State :=
  let s2 := [0, 1, 4, 5].foldl State.slotBack s.spares
  (((s2.emptyFoot.setFld rDosGen 0 16 0).setFld rDosStat 12 9 0).setFld rDosStat 0 3 0).pulse 26

end Sys2Proof.Machine
end

