-- ==== Sys2Proof/Machine/Flags.lean ====
section
/-! DEFINITION. The fault sources (R323, Tables 15-2, 15-3 and the chapters' source tables), the collector's records and
log (R326–R334), the status flags they drive (R336, R337), and the snapshot buffer (R315, R316). -/

namespace Sys2Proof.Machine

/-! ### Sources -/

/-- The rail source k of rail n: k = 0 PWR_PGTO, 1 PWR_CHATTER, 2 PWR_RAILFAIL, 3 PWR_OWNFAIL, 4 PWR_DOWNFAIL,
5 PWR_SLOWOFF, 6 PWR_STUCK. -/
def srcPwr (k n : Nat) : Nat := 0x010 + 24 * k + n
/-- CONFIG_AUTH. -/
def srcConfigAuth : Nat := 0x000
/-- CONFIG_LOAD. -/
def srcConfigLoad : Nat := 0x001
/-- CONFIG_SLOTB. -/
def srcConfigSlotB : Nat := 0x002
/-- ACCESS. -/
def srcAccess : Nat := 0x003
/-- CLK_COAST of generator g. -/
def srcClkCoast (g : Nat) : Nat := 0x100 + g
/-- CLK_COAST_LIMIT. -/
def srcCoastLimit : Nat := 0x106
/-- SHOT_CLOCK. -/
def srcShotClock : Nat := 0x107
/-- LINK_COAST. -/
def srcLinkCoast : Nat := 0x108
/-- PTP_MSG_LOSS of port p. -/
def srcPtpLoss (p : Nat) : Nat := 0x109 + p
/-- PTP_TIMEOUT of port p. -/
def srcPtpTimeout (p : Nat) : Nat := 0x10B + p
/-- PTP_BIGOFS. -/
def srcPtpBigOfs : Nat := 0x10D
/-- TIME_FORCED. -/
def srcTimeForced : Nat := 0x10E
/-- HB_LOSS. -/
def srcHbLoss : Nat := 0x10F
/-- ROSTER_DUP. -/
def srcRosterDup : Nat := 0x110
/-- The job-store source k of channel c: k = 0 MEM_CORR, 1 MEM_UNCORR, 2 MEM_DEVFAIL, 3 MEM_TRAIN, 4 MEM_TEMP_NEAR,
5 MEM_TEMP, 6 MEM_HOT, 7 MEM_ALERT. -/
def srcMem (k c : Nat) : Nat := 0x200 + 4 * k + c
/-- DMA_BUSERR of channel n. -/
def srcDmaBusErr (n : Nat) : Nat := 0x220 + n
/-- STREAM. -/
def srcStream : Nat := 0x300
/-- ACC_OVER. -/
def srcAccOver : Nat := 0x301
/-- EDGE_OVER. -/
def srcEdgeOver : Nat := 0x302
/-- VERIFY_FAIL. -/
def srcVerifyFail : Nat := 0x303
/-- FP_OVER. -/
def srcFpOver : Nat := 0x304
/-- LATE_LINE. -/
def srcLateLine : Nat := 0x305
/-- RLE1_VERIFY. -/
def srcRle1Verify : Nat := 0x306
/-- SNAP_RAW. -/
def srcSnapRaw : Nat := 0x307
/-- EVT_OVERRUN. -/
def srcEvtOverrun : Nat := 0x308
/-- MOVE_WDOG. -/
def srcMoveWdog : Nat := 0x309
/-- LANE_CRC of logical lane l. -/
def srcLaneCrc (l : Nat) : Nat := 0x400 + l
/-- LANE_CRC_SPARED. -/
def srcLaneSpared : Nat := 0x440
/-- FRAME_LATE. -/
def srcFrameLate : Nat := 0x441
/-- BACKCH_LOSS. -/
def srcBackchLoss : Nat := 0x442
/-- LANE_LOCK. -/
def srcLaneLock : Nat := 0x443
/-- SLIP. -/
def srcSlip : Nat := 0x500
/-- REVERSAL. -/
def srcReversal : Nat := 0x501
/-- PLINK_LOSS. -/
def srcPlinkLoss : Nat := 0x502
/-- ENC_ERR. -/
def srcEncErr : Nat := 0x503
/-- STALL. -/
def srcStall : Nat := 0x504
/-- SOS_MISS. -/
def srcSosMiss : Nat := 0x505
/-- SOS_LOST. -/
def srcSosLost : Nat := 0x506
/-- FACET_COUNT. -/
def srcFacetCount : Nat := 0x507
/-- STUCK_ON. -/
def srcStuckOn : Nat := 0x600
/-- DEAD_BEAM. -/
def srcDeadBeam : Nat := 0x601
/-- DET_SAT. -/
def srcDetSat : Nat := 0x602
/-- PLATE_ALARM. -/
def srcPlateAlarm : Nat := 0x603
/-- STROBE_STUCK of GSTB[g]. -/
def srcStrobeStuck (g : Nat) : Nat := 0x610 + g
/-- The axis source k of axis a: k = 0 MOT_STALL, 1 MOT_LIMIT, 2 MOT_RAIL, 3 MOT_HOMEFAIL. -/
def srcMot (k a : Nat) : Nat := 0x700 + 8 * k + a
/-- HTR_SENSOR of zone z. -/
def srcHtrSensor (z : Nat) : Nat := 0x720 + z
/-- HTR_OVERTEMP of zone z. -/
def srcHtrOver (z : Nat) : Nat := 0x728 + z

/-- The default severity of each source, from its source table; none where the number names no source (R323). -/
def defaultSev (src : Nat) : Option Nat :=
  if src < 4 then some ([3, 1, 0, 0].getD src 0)
  else if src < 0x10 then none
  else if src < 0x10 + 168 then some ([4, 4, 3, 4, 1, 0, 1].getD ((src - 0x10) / 24) 0)
  else if src < 0x100 then none
  else if src < 0x111 then
    some ([1, 1, 1, 1, 1, 1, 3, 2, 2, 0, 0, 1, 1, 1, 0, 0, 1].getD (src - 0x100) 0)
  else if src < 0x200 then none
  else if src < 0x220 then some ([0, 1, 1, 1, 0, 2, 3, 1].getD ((src - 0x200) / 4) 0)
  else if src < 0x22C then some 1
  else if src < 0x230 then none
  else if src < 0x240 then some 0
  else if src < 0x250 then some 3
  else if src < 0x300 then none
  else if src < 0x30A then some ([1, 1, 1, 1, 1, 0, 1, 0, 0, 3].getD (src - 0x300) 0)
  else if src < 0x400 then none
  else if src < 0x440 then some 0
  else if src < 0x444 then some ([0, 1, 2, 1].getD (src - 0x440) 0)
  else if src < 0x500 then none
  else if src < 0x508 then some ([2, 2, 2, 2, 2, 1, 2, 2].getD (src - 0x500) 0)
  else if src < 0x600 then none
  else if src < 0x604 then some ([3, 0, 1, 1].getD (src - 0x600) 0)
  else if src < 0x610 then none
  else if src < 0x620 then some 2
  else if src < 0x700 then none
  else if src < 0x720 then some 1
  else if src < 0x726 then some 1
  else if src < 0x728 then none
  else if src < 0x72E then some 1
  else none

/-- The number names a source (R323). -/
def isSource (src : Nat) : Bool := (defaultSev src).isSome

/-- The lowest settable severity: 3 for SRAM_UNCORR and STUCK_ON, 4 for PWR_OWNFAIL. -/
def minSev (src : Nat) : Nat :=
  if 0x240 ≤ src ∧ src < 0x250 then 3
  else if src = srcStuckOn then 3
  else if srcPwr 3 0 ≤ src ∧ src < srcPwr 4 0 then 4
  else 0

/-- The class of a source (R323). -/
def srcClass (src : Nat) : Nat := src / 256

/-- A level source (R330). -/
def isLevel (src : Nat) : Bool :=
  (decide (0x100 ≤ src) && decide (src < 0x106)) || src == srcLaneLock || src == srcPlateAlarm ||
  (decide (0x210 ≤ src) && decide (src < 0x21C)) ||
  (decide (0x720 ≤ src) && decide (src < 0x726)) || (decide (0x728 ≤ src) && decide (src < 0x72E)) ||
  src == srcHbLoss || src == srcRosterDup

/-- A merging source (R332). -/
def isMerging (src : Nat) : Bool :=
  (decide (0x200 ≤ src) && decide (src < 0x204)) || src == srcLaneSpared || src == srcPtpLoss 0 || src == srcPtpLoss 1 ||
  src == srcDeadBeam

/-- A source whose own detections can count against the part (R343). -/
def canBeInternal (src : Nat) : Bool :=
  (decide (0x240 ≤ src) && decide (src < 0x250)) || src == srcVerifyFail || src == srcRle1Verify ||
  src == srcMoveWdog || src == srcFrameLate

/-- The detector of the source is in the main domain (R326). -/
def isMainSrc (src : Nat) : Bool :=
  !(decide (src < 0x100) || src == 0x23C || src == 0x23D || src == 0x24C || src == 0x24D || src == srcMoveWdog ||
    (decide (0x610 ≤ src) && decide (src < 0x620)))

/-- The source takes a snapshot by Table 14-4: every rail source but PWR_SLOWOFF. -/
def snapsItself (src : Nat) : Bool :=
  decide (0x10 ≤ src) && decide (src < 0x10 + 168) && !((src - 0x10) / 24 == 5)

/-- The rail a rail source is about, or 0xFF. -/
def railOf (src : Nat) : Nat := if 0x10 ≤ src ∧ src < 0x10 + 168 then (src - 0x10) % 24 else 0xFF

/-! ### Records -/

/-- The record of a source; a source that never raised has the cleared one. -/
def State.recOf (s : State) (src : Nat) : FaultRec :=
  match s.flt.recs.find? (fun r => r.src == src) with
  | some r => r
  | none => ⟨src, 0, false, false, false, 0, 0, 0, 0, false, false, 0⟩

/-- The condition of a level source is present: on its real input, on its injected one, or through its pair (R326, R330, R341). -/
def FaultRec.stands (r : FaultRec) : Bool := r.cond || r.inj || r.wire

/-- The records with the one of `src` changed. -/
def putRec (recs : List FaultRec) (r : FaultRec) : List FaultRec :=
  match recs with
  | [] => [r]
  | x :: t => if x.src = r.src then r :: t else x :: putRec t r

/-- The record of a source set. -/
def State.setRec (s : State) (r : FaultRec) : State := { s with flt := { s.flt with recs := putRec s.flt.recs r } }

/-- The time `t` is on the collector's present clock of 10 ns (R326, R333; log entry 142). -/
def State.onClock (s : State) (t : T16) : Bool := s.clocked && t / 655360 == s.tim.elapsed / 655360

/-- The time `t` is on the present clock of the core, of 1 ns (log entry 142). -/
def State.onCoreClock (s : State) (t : T16) : Bool := s.clocked && t / 65536 == s.tim.elapsed / 65536

/-- A command with property `p` waits before the next tick. -/
def State.waits (s : State) (p : Instr → Bool) : Bool := s.beforeTick.any p

/-- A command with property `p` falls on this command's clock of the core, behind it (log entry 142). -/
def State.ties (s : State) (p : Instr → Bool) : Bool := s.clocked && s.waits p

/-- Whether a command with property `p` falls on this command's clock behind it (log entry 142): where ticks tell clocks apart, when it
waits before the next one; with the main domain down a free value says whether it does. -/
def State.tie (s : State) (p : Instr → Bool) : Bool × State :=
  if !s.waits p then (false, s)
  else if s.dom.main then (s.clocked, s)
  else (bitAt s.freeVal 0, { s with free := s.free + 1 })

/-- The configured severity of a source (R329). -/
def State.sevOf (s : State) (src : Nat) : Nat :=
  match s.flt.sevs.find? (fun p => p.1 == src) with
  | some p => p.2
  | none => (defaultSev src).getD 0

/-- The configured severity that a raise of the source takes now: the old one on the clock of a SEVERITY_SET (R329, R333). -/
def State.sevNow (s : State) (src : Nat) : Nat :=
  match s.flt.oldSevs.find? (fun o => o.src == src && s.onClock o.at_) with
  | some o => o.sev
  | none => s.sevOf src

/-- The configured severity of a source is set (R329). -/
def State.setSev (s : State) (src v : Nat) : State :=
  let old : List OldSev := s.flt.oldSevs.filter (fun o => !(o.src == src) && s.onClock o.at_) ++ [⟨src, s.sevNow src, s.tim.elapsed⟩]
  { s with flt := { s.flt with oldSevs := old, sevs := s.flt.sevs.filter (fun p => !(p.1 == src)) ++ [(src, v)] } }

/-- Some record of effective severity `v` or above is uncleared. -/
def State.anySev (s : State) (v : Nat) : Bool := s.flt.recs.any (fun r => decide (r.state ≠ 0) && decide (v ≤ r.eff))

/-- FAULT_N is low: driven so (R336), or pulled down while the always-on domain is unpowered (R363). -/
def State.faultNLow (s : State) : Bool := !s.dom.aon || s.anySev 1

/-- ALIVE may toggle (R337). -/
def State.aliveAllowed (s : State) : Bool := exposing s.mode && !s.anySev 2

/-- Where ALIVE may not toggle it is driven low (R337). -/
def State.aliveCheck (s : State) : State :=
  if s.aliveAllowed then s
  else
    let s1 := if s.flt.alive then s.emitPin (.alive false) else s
    { s1 with flt := { s1.flt with alive := false, edges := 0 } }

/-- ALIVE has toggled without a break for LEAD µs (R338): by its edges, 50 µs apart, or by the elapsed time. -/
def State.aliveLead (s : State) : Bool :=
  s.aliveAllowed && decide (s.flt.edges ≠ 0) &&
    (decide (s.fld rFltAlive 0 16 ≤ 50 * (s.flt.edges - 1)) ||
     decide (t16us (s.fld rFltAlive 0 16) ≤ s.tim.elapsed - s.flt.aliveSince))

/-- What a raise carries: its source, whether it is a WIRE raise (R326), injected (R341), a FRAME_LATE of R191, and its
DETAIL where the rules give one (Table 15-5), and the severity it has at least by its own rule (R250). -/
structure Raise where
  src    : Nat
  wire   : Bool
  inj    : Bool
  r191   : Bool
  detail : Option Nat
  least  : Nat
deriving DecidableEq, Repr

/-- A raise of a source by its own detector. -/
def Raise.of (src : Nat) : Raise := ⟨src, false, false, false, none, 0⟩

/-- The raise is internal (R343). -/
def Raise.internal (r : Raise) : Bool :=
  !r.inj && (r.wire || (canBeInternal r.src && (!(r.src == srcFrameLate) || r.r191)))

/-- The severity a raise starts from: a WIRE raise has at least 2 (R326). -/
def State.raiseSev (s : State) (r : Raise) : Nat := max (s.sevNow r.src) (if r.wire then max 2 r.least else r.least)

/-- The raise is escalated (R331). -/
def State.escalated (s : State) (r : Raise) : Bool :=
  decide (1 ≤ s.raiseSev r) &&
    s.flt.recs.any (fun x => srcClass x.src == srcClass r.src && x.state == 1 && decide (1 ≤ x.eff))

/-- The effective severity of a raise (R331). -/
def State.effSev (s : State) (r : Raise) : Nat :=
  if s.escalated r then min (s.raiseSev r + 1) 4 else s.raiseSev r

/-- DEAD_BEAM has been recorded in the CHECK run under way: it merges only within one run (R332). -/
def State.deadSeen (s : State) : Bool :=
  match s.gen.cur with
  | some c => s.flt.deadRun == some c.pk.id
  | none => false

/-- The raise merges into its uncleared record (R332). -/
def State.merges (s : State) (r : Raise) : Bool :=
  isMerging r.src && decide ((s.recOf r.src).state ≠ 0) && (!(r.src == srcDeadBeam) || s.deadSeen)

/-- The conditions that begin with a raise: that of a level source, on the input that raised it, or that of the pair (R326, R330). -/
def FaultRec.onset (x : FaultRec) (r : Raise) : FaultRec :=
  { x with
    cond := x.cond || (isLevel r.src && !r.wire && !r.inj)
    inj := x.inj || (isLevel r.src && !r.wire && r.inj)
    wire := x.wire || r.wire }

/-- The conditions of a raise are noted in its source's record. -/
def State.markOnset (s : State) (r : Raise) : State :=
  if isLevel r.src || r.wire then s.setRec ((s.recOf r.src).onset r) else s

/-- Adds `n` merged raises to a record and to its log entry (R332). -/
def State.mergeMore (s : State) (src n : Nat) : State :=
  let x := s.recOf src
  let s1 := s.setRec { x with raises := satAdd 0xFFFF x.raises n, count := x.count + n }
  { s1 with flt := { s1.flt with
      log := s1.flt.log.map (fun e => if e.seq == x.logSeq && e.src == src then { e with count := e.count + n } else e) } }

/-- The identifier of the stripe that is firing, or 0xFFFF_FFFF (Table 15-5). -/
def State.firingStripe (s : State) : Nat :=
  match s.lay.stripes.find? (fun x => x.phase == .firing) with
  | some x => x.stripe
  | none => 0xFFFFFFFF

/-- The collector records and logs a raise that does not merge, at effective severity `e` (R330, R334). -/
def State.record (s : State) (r : Raise) (e : Nat) (snap : Bool) : State :=
  let x := s.recOf r.src
  let esc := s.escalated r
  let lvl := isLevel r.src || r.wire
  let flags := bit r.wire + 2 * bit r.inj + 4 * bit esc + 8 * bit r.internal + 16 * bit snap + 64 * bit lvl
  let s0 := s
  let (sec, ns, frac) := if s0.dom.main then (s0.tim.sec, s0.tim.ns, s0.tim.sub / 2 ^ 24)
    else (s0.tim.cSec, s0.tim.cNs, s0.tim.cFrac)
  let entry : LogEntry := ⟨s.flt.nextSeq, r.src, s.sevNow r.src, e, flags, s.mode, 0, r.detail.getD s.firingStripe, sec, ns, frac⟩
  let s1 := s.setRec { x.onset r with
    state := 1
    eff := if x.state = 0 then e else max x.eff e
    raises := satAdd 0xFFFF x.raises 1
    count := if x.state = 0 then 0 else x.count
    logSeq := s.flt.nextSeq
    carry := if x.state = 0 then false else x.carry
    internal := r.internal
    at_ := s.tim.elapsed }
  let log := if 256 ≤ s1.flt.log.length then s1.flt.log.drop 1 else s1.flt.log
  let dead := if r.src = srcDeadBeam then s1.gen.cur.map (fun c => c.pk.id) else s1.flt.deadRun
  { s1 with flt := { s1.flt with log := log ++ [entry], nextSeq := (s1.flt.nextSeq + 1) % 65536, deadRun := dead } }

/-- The collector reads the source's pair (R326): the always-on domain is powered, and so is the domain of its detector. -/
def State.collects (s : State) (src : Nat) : Bool := isSource src && s.dom.aon && (s.dom.main || !isMainSrc src)

/-- Counts an internal raise (R343). -/
def State.countInternal (s : State) (r : Raise) (e : Nat) : State :=
  if r.internal && decide (1 ≤ e) then s.count rFltAvEvt 1 else s

/-! ### Snapshots -/

/-- The last 255 scans before now, oldest first; where fewer have completed, scans of zeros stand before them (log
entry 17). -/
def State.scanHistory (s : State) : List (List Nat) :=
  List.replicate (255 - s.snap.history.length) (List.replicate 32 0) ++ s.snap.history

/-- The entry a new snapshot takes (R316): an empty one, else the oldest that was read, else the oldest. -/
def snapTarget (l : List (Option Snapshot)) : Nat :=
  let key (x : Option Snapshot) : Nat := match x with
    | none => 0
    | some y => if y.read then 1 + y.order else 1000000000 + y.order
  let rec go (best i : Nat) (bk : Nat) : List (Option Snapshot) → Nat
    | [] => best
    | x :: t => if key x < bk then go i (i + 1) (key x) t else go best (i + 1) bk t
  go 0 0 (10 ^ 20) l

/-- The number of unread snapshots. -/
def State.unread (s : State) : Nat :=
  (s.snap.entries.filter (fun x => match x with | some y => !y.read | none => false)).length

/-- The snapshot that a raise on this clock shares, if one has been taken on it (R335). -/
def State.sharedNow (s : State) : Option SharedSnap :=
  s.flt.shared.filter (fun x => s.flt.oneClock || s.onClock x.at_)

/-- A snapshot is taken (R315, R316): stored raw while the main domain is down, else it asks for engine 1 (R216). -/
def State.newSnapshot (s : State) (cause rail : Nat) : State :=
  let head := s.timeNow ++ leBytes 4 (s.fld rPwrEn 0 24) ++ leBytes 4 (s.fld rPwrPg 0 24) ++
    leBytes 1 (s.fld rPwrSeq 8 6) ++ leBytes 1 (s.fld rPwrSeq 30 2) ++ leBytes 2 cause ++ leBytes 1 rail ++ zeros 35
  let i := snapTarget s.snap.entries
  let lost := match s.snap.entries.getD i none with | some y => !y.read | none => false
  let e : Snapshot := ⟨head, s.scanHistory, !s.dom.main, [], false, s.snap.taken⟩
  let s1 := { s with snap := { s.snap with entries := s.snap.entries.set i (some e), taken := s.snap.taken + 1 } }
  let s2 := if s.dom.main then
      { s1 with rle := { s1.rle with snaps := s1.rle.snaps.filter (fun w => !(w.entry == i)) ++ [⟨i, s.tim.elapsed⟩] } }
    else s1
  let s3 := s2.setFld rPwrSnap 0 4 i
  let s4 := s3.setFld rPwrSnap 16 5 s3.unread
  let s5 : State := { s4 with flt := { s4.flt with shared := some ⟨i, cause, s.tim.elapsed⟩ } }
  if lost then s5.setW1c rPwrSnap 31 else s5

/-- The snapshot of a raise (R335): the one that its clock has already, which names the lowest source, or a new one. -/
def State.takeSnapshot (s : State) (cause rail : Nat) : State :=
  match s.sharedNow with
  | none => s.newSnapshot cause rail
  | some x =>
    if x.cause ≤ cause then s
    else
      { s with
        snap := { s.snap with entries := updAt s.snap.entries x.entry (fun e =>
          e.map (fun y => { y with head := patch y.head 0x1A (leBytes 2 cause ++ leBytes 1 rail) })) }
        flt := { s.flt with shared := some { x with cause := cause } } }

/-- A command's raises fall on one clock: they share a snapshot (R335). -/
def State.onOneClock (s : State) (f : State → State) : State :=
  if s.flt.oneClock then f s
  else
    let t := f { s with flt := { s.flt with oneClock := true, shared := s.sharedNow } }
    { t with flt := { t.flt with oneClock := false } }

/-- The 16,384 bytes of a snapshot (R315). -/
def snapshotBytes (x : Snapshot) : List Byte :=
  x.head ++ (x.scans.map (fun c => (c.map (leBytes 2)).flatten)).flatten

end Sys2Proof.Machine
end

