-- ==== Sys2Proof/Machine/PwrOps.lean ====
section
/-! DEFINITION. The rails: which are on, which one a power-down switches off next (R309), and switching one off; the
rails' part in entering and leaving HOLD (R307, R308). -/

namespace Sys2Proof.Machine

/-- Rail n is in use (Table 14-1). -/
def State.railUsed (s : State) (n : Nat) : Bool := s.flag (rPwrRcfg n) 31
/-- Rail n is high voltage. -/
def State.railHv (s : State) (n : Nat) : Bool := s.flag (rPwrRcfg n) 30
/-- Rail n supplies the part. -/
def State.railOwn (s : State) (n : Nat) : Bool := s.flag (rPwrRcfg n) 29
/-- POLICY of rail n is WAIT; it reads WAIT for an HV rail (R301). -/
def State.railWaits (s : State) (n : Nat) : Bool := s.flag (rPwrRcfg n) 28 || s.railHv n
/-- HOLDPOL of rail n. -/
def State.railHold (s : State) (n : Nat) : Nat := s.fld (rPwrRcfg n) 26 2
/-- SENSE of rail n: a channel 0–23, or none. -/
def State.railSense (s : State) (n : Nat) : Option Nat :=
  let c := s.fld (rPwrRcfg n) 16 5
  if c < 24 then some c else none
/-- STEP of rail n. -/
def State.railStep (s : State) (n : Nat) : Nat := s.fld (rPwrRcfg n) 8 6
/-- Rail n depends on rail m directly. -/
def State.railDep (s : State) (n m : Nat) : Bool := s.flag (rPwrRdep n) m
/-- STATE of PWR_RSTAT[n]: 0 off, 1 waiting for permission, 2 start delay, 3 waiting for PG, 4 debounce, 5 good,
6 discharging, 7 failed. -/
def State.railState (s : State) (n : Nat) : Nat := s.fld (rPwrRstat n) 29 3
/-- STATE of rail n set. -/
def State.setRailState (s : State) (n v : Nat) : State := s.setFld (rPwrRstat n) 29 3 v
/-- EN of rail n is high. -/
def State.railEn (s : State) (n : Nat) : Bool := s.flag rPwrEn n
/-- PG of rail n, filtered. -/
def State.railPg (s : State) (n : Nat) : Bool := s.flag rPwrPg n
/-- Rail n is good. -/
def State.railGood (s : State) (n : Nat) : Bool := s.railState n == 5
/-- The rail numbers. -/
def rails : List Nat := List.range 24

/-- The rail record changed. -/
def State.updRail (s : State) (n : Nat) (f : Rail → Rail) : State :=
  { s with pwr := { s.pwr with rails := updAt s.pwr.rails n f } }

/-- The rail record. -/
def State.railRec (s : State) (n : Nat) : Rail := s.pwr.rails.getD n ⟨true, false, false, 0, false, false⟩

/-- EN of rail n is driven. -/
def State.driveEn (s : State) (n : Nat) (b : Bool) : State := (s.setFlag rPwrEn n b).emit (.railEn n b)

/-- The outputs of heaters whose rail is not good are low (R320). -/
def State.heatersLow (s : State) : State :=
  { s with thm := s.thm.mapIdx (fun z x =>
      let r := s.fld (rThmCfg z) 20 5
      if r < 24 && !s.railGood r then { x with high := 0 } else x) }

/-- Rail n is switched off: EN falls, the rail discharges until it is found off (R310), and the heaters it supplies are low (R320). -/
def State.switchOff (s : State) (n : Nat) : State :=
  (((s.driveEn n false).setRailState n 6).updRail n (fun r => { r with off := false, expired := false })).heatersLow

/-- Of the rails in `l`, the one switched off next: one on which no rail of `l` depends, with the highest STEP, and of
those the highest number (R309). -/
def State.nextOff (s : State) (l : List Nat) : Option Nat :=
  let free := l.filter (fun n => !(l.any (fun m => s.railDep m n)))
  free.foldl (fun best n => match best with
    | none => some n
    | some b => if s.railStep b < s.railStep n ∨ (s.railStep b = s.railStep n ∧ b < n) then some n else some b) none

/-- The power-down has passed rail n: it is off, or its DISTO has expired and its POLICY is PROCEED (R310). -/
def State.railPassed (s : State) (n : Nat) : Bool :=
  !s.railEn n && ((s.railRec n).off || ((s.railRec n).expired && !s.railWaits n))

/-- The rails that a power-down still has to pass (R310, R311): those on, and those switched off and not yet found off. -/
def State.downTodo (s : State) : List Nat := rails.filter (fun n => s.railUsed n && !s.railPassed n)

/-- Rail n and the rails that depend on it, directly or through others (R305). The walk is bounded by the rails' number. -/
def State.dependents (s : State) (l : List Nat) : Nat → List Nat
  | 0 => l
  | k + 1 => s.dependents (l ++ (rails.filter (fun n => !(l.contains n) && l.any (fun m => s.railDep n m)))) k

/-- The reading of a rail's SENSE channel is below OFFTH (R310). -/
def State.railReadsOff (s : State) (n : Nat) : Bool :=
  match s.railSense n with
  | some c => decide (s.fld (rPwrAdc c) 0 12 < s.fld (rPwrRoff n) 0 12)
  | none => false

/-- Rail n may start (R303): its step has been reached or is taken as met, and every rail it depends on is good. -/
def State.permitted (s : State) (n : Nat) : Bool :=
  ((s.railRec n).met || decide (s.railStep n < s.pwr.steps)) && rails.all (fun m => !s.railDep n m || s.railGood m)

/-- The rails that wait for permission and now have it begin their start delay (R303). -/
def State.permit (s : State) : State :=
  rails.foldl (fun t n => if s.railUsed n && s.railState n == 1 && s.permitted n then t.setRailState n 2 else t) s

/-- The conversion of a voltage at a ball, in nanovolts (R314; the unit is the model's, log entry 141). -/
def adcCode (v : Int) : Nat := (sat (roundHalfEven (v * 4096) 1250000000) 0 4095).toNat

/-- PULL of PWR_SEQ. -/
def State.seqPull (s : State) : Bool := s.flag rPwrSeq 28
/-- PHASE of PWR_SEQ: 0 idle, 1 power-up, 2 power-down, 3 power-down held by WAIT. -/
def State.seqPhase (s : State) : Nat := s.fld rPwrSeq 30 2
/-- PHASE set. -/
def State.setPhase (s : State) (v : Nat) : State := s.setFld rPwrSeq 30 2 v

/-- The part pulls SEQ_SYNC low (R302). -/
def State.pullSeq (s : State) : State := (s.setFlag rPwrSeq 28 true).setFlag rPwrSeq 29 false

/-- In a step that is open, the part releases SEQ_SYNC once every enabled rail of the step or below is good or skipped (R302); not
while a warm reset holds the line low (R18, R379). -/
def State.releaseSeq (s : State) : State :=
  if !(s.dom.resetting == 2 && !s.dom.main) ∧ s.seqPhase = 1 ∧ s.pwr.downCause = 0 ∧ s.pwr.steps ≠ 0 ∧
      rails.all (fun n => !s.railUsed n || decide (s.pwr.steps ≤ s.railStep n) || s.railGood n || (s.railRec n).skipped) then
    s.setFlag rPwrSeq 28 false
  else s

/-- A rail starts again at an entry to SERVICE, or once it is off thereafter (R307). -/
def State.restartRail (s : State) (n : Nat) : State :=
  ((s.setFlag (rPwrRstat n) 27 false).setRailState n 1).updRail n (fun _ => ⟨true, false, false, 0, false, true⟩)

/-- The rails HOLD switches off, one at a time: the next one begins when none discharges (R307, R309). -/
def State.holdOffNext (s : State) : State :=
  match s.pwr.discharging with
  | some _ => s
  | none =>
    match s.nextOff s.pwr.holdList with
    | none => s
    | some n =>
      let s1 := (s.switchOff n).setFlag (rPwrRstat n) 27 true
      { s1 with pwr := { s1.pwr with holdList := s1.pwr.holdList.filter (fun m => !(m == n)), discharging := some n } }

/-- Entry to HOLD, for the rails (R307, R308, R312): during a power-down nothing changes; rails of an OFF policy that have
not started are skipped, and those that are on go off in the order of R309. -/
def State.holdRails (s : State) : State :=
  if 2 ≤ s.fld rPwrSeq 30 2 then s
  else
    let off := rails.filter (fun n => s.railUsed n && (s.railHold n == 1 || s.railHold n == 2))
    let s1 := (off.filter (fun n => s.railState n == 1 || s.railState n == 2)).foldl (fun t n =>
      ((t.updRail n (fun r => { r with skipped := true })).setFlag (rPwrRstat n) 27 true).setRailState n 0) s
    let on := off.filter (fun n => s.railEn n)
    { s1 with pwr := { s1.pwr with holdList := on } }.holdOffNext.releaseSeq

/-- Entry to SERVICE from HOLD, for the rails (R307): an OFF_RESTART rail that is found off starts again with its step
condition met; one still on stays on. -/
def State.serviceRails (s : State) : State :=
  let s0 := { s with pwr := { s.pwr with holdList := [] } }
  (rails.foldl (fun t n =>
    if t.railUsed n && t.railHold n == 1 && t.flag (rPwrRstat n) 27 && (t.railRec n).off then t.restartRail n else t) s0).permit

end Sys2Proof.Machine
end

