-- ==== Sys2Proof/Machine/MotionOps.lean ====
section
/-! DEFINITION. The motion axes' shared operations: intervals (R286), braking (R287, R289, R293), coming to rest, and the
fault stop (R295). -/

namespace Sys2Proof.Machine

/-- The integer square root, by bits from `k` down. -/
def isqrtBits (n : Nat) : Nat → Nat → Nat
  | 0, r => r
  | k + 1, r => let t := r + 2 ^ k; isqrtBits n k (if t * t ≤ n then t else r)

/-- ⌊√n⌋ for n < 2^128. -/
def isqrt (n : Nat) : Nat := isqrtBits n 64 0

/-- The interval before a microstep issued at state V2, in u24.8 ticks (R286): 6.4 × 10^10 / √V2 rounded to the nearest
integer, a tie to the even one, by integer comparison of (2n + 1)²·V2 with 1.6384 × 10^22. -/
def interval (v2 : Nat) : Nat :=
  if v2 = 0 then 0
  else
    let n := isqrt (4096000000000000000000 / v2)
    let m := (2 * n + 1) * (2 * n + 1) * v2
    if m < 16384000000000000000000 then n + 1
    else if m = 16384000000000000000000 then (if n % 2 = 0 then n else n + 1)
    else n

/-- The axis record. -/
def State.axis (s : State) (a : Nat) : Axis := s.mot.getD a Axis.reset
/-- The axis record changed. -/
def State.updAxis (s : State) (a : Nat) (f : Axis → Axis) : State := { s with mot := updAt s.mot a f }
/-- VSTART², VS2 of R287. -/
def State.vs2 (s : State) (a : Nat) : Nat := s.fld (rMotVstart a) 0 24 * s.fld (rMotVstart a) 0 24
/-- The axis is at rest. -/
def State.atRest (s : State) (a : Nat) : Bool := (s.axis a).run == .rest
/-- MOT_POS as a number. -/
def State.axisPos (s : State) (a : Nat) : Int := signed 32 (s.rd (rMotPos a))
/-- STATE of MOT_STAT set. -/
def State.setAxisState (s : State) (a v : Nat) : State := s.setFld (rMotStat a) 29 3 v
/-- The rail named by RAIL of an axis: 24–30 are taken as none. -/
def State.axisRail (s : State) (a : Nat) : Option Nat :=
  let r := s.fld (rMotCfg a) 20 5
  if r < 24 then some r else none

/-- Microsteps to brake from V2 to VS2 (R287). -/
def brakeDist (v2 vs2 dec : Nat) : Nat := if vs2 < v2 then ceilDiv (v2 - vs2) (2 * dec) else 0

/-- Every packet waiting on the axis completes. -/
def State.axisReply (s : State) (a : Nat) (r : Reply) : State :=
  let x := s.axis a
  let s1 := match x.pk with | some pk => s.complete pk r | none => s
  let s2 := x.stopPk.foldl (fun t pk => t.complete pk r) s1
  s2.updAxis a (fun y => { y with pk := none, stopPk := [] })

/-- The axis comes to rest after a move or a stop request: `kept` is the distance not issued (R293). The pending command
replies OK with the position, an AXIS_STOP with MOT_REMAIN (Table 3-4). -/
def State.axisRests (s : State) (a : Nat) (kept : Nat) : State :=
  let x := s.axis a
  let k : Int := if x.dir then (kept : Int) else -(kept : Int)
  let s1 := (((s.setAxisState a 0).wr (rMotIvl a) 0).wr (rMotRemain a) (unsigned 32 k))
  let s2 := if kept = 0 then s1 else s1.setFlag (rMotStat a) 28 true
  let s3 := match x.pk with | some pk => s2.complete pk (.ok (s2.rd (rMotPos a))) | none => s2
  let s4 := x.stopPk.foldl (fun t pk => t.complete pk (.ok (unsigned 32 k))) s3
  s4.updAxis a (fun y => { y with run := .rest, pk := none, stopPk := [], left := 0 })

/-- The axis is homing. -/
def AxisRun.homing (r : AxisRun) : Bool :=
  match r with
  | .homeSeek _ _ _ _ _ => true
  | .homeBrake _ _ => true
  | .homeBack _ _ _ => true
  | .homeIndex _ => true
  | _ => false

/-- Homing by hard stop (R291, R292, R297): METHOD 2, its back-off included (log entry 58). -/
def AxisRun.hardStop (r : AxisRun) : Bool :=
  match r with
  | .homeSeek 2 _ _ _ _ => true
  | .homeBack 2 _ _ => true
  | _ => false

/-- A homing that a stop ends has ended without a home (R299). -/
def State.homeLost (s : State) (a : Nat) : State :=
  if (s.axis a).run.homing then s.updAxis a (fun y => { y with failed := true }) else s

/-- PROFILE of the axis: jerk-limited. -/
def State.jerky (s : State) (a : Nat) : Bool := s.flag (rMotCfg a) 29

/-- The axis's braking distance from the state of the microstep under way (R287, R293): by DEC, or by the recorded steps. -/
def State.stopDist (s : State) (a : Nat) : Nat :=
  let x := s.axis a
  if s.jerky a then x.table.length else brakeDist x.v2 (s.vs2 a) (s.fld (rMotDec a) 0 31)

/-- LEVEL of an axis. -/
def State.axisLevel (s : State) (a : Nat) : Nat := s.fld (rMotStat a) 16 5

/-- The current code of an axis that moves: IHOME in hard-stop homing, else by the boost level. -/
def State.moveCode (s : State) (a : Nat) (hard : Bool) : State :=
  let cur := s.rd (rMotCur a)
  let run := bits cur 8 8
  let code := if hard then bits cur 0 8 else run + s.axisLevel a * (bits cur 16 8 - run) / 16
  s.updAxis a (fun y => { y with code := code })

/-- A stop request (AXIS_STOP, entry to HOLD): the axis brakes by its profile and keeps the distance not issued (R293). The recorded
step of the microstep under way is the first that a jerk-limited stop replays. A homing axis stops with it, and its homing ends
there (log entry 20): it moves from then on by the code of a moving axis (R291). -/
def State.stopRequest (s0 : State) (a : Nat) : State :=
  let s := s0.homeLost a
  let x := s.axis a
  match x.run with
  | .rest => s
  | .trap r _ =>
    let b := min r (brakeDist x.v2 (s.vs2 a) (s.fld (rMotDec a) 0 31))
    let kept := x.left + (r - b)
    if b = 0 then s.axisRests a kept
    else (s.setAxisState a 4).updAxis a (fun y => { y with run := .trap b true, left := kept })
  | .jerk r _ down _ al fa =>
    let b := if down then r else min r x.table.length
    let kept := x.left + (r - b)
    if b = 0 then s.axisRests a kept
    else (s.setAxisState a 4).updAxis a (fun y =>
      { y with run := .jerk b false true true al fa, left := kept, table := if down then y.table else y.table.drop 1 })
  | .interp segs fast _ =>
    if segs.isEmpty then s.axisRests a 0
    else (s.setAxisState a 4).updAxis a (fun y => { y with run := .interp segs fast true })
  | .homeSeek _ _ _ _ _ =>
    let b := s.stopDist a
    if b = 0 then s.axisRests a 0
    else ((s.setAxisState a 4).updAxis a (fun y =>
      { y with run := if s.jerky a then .jerk b false true true 0 false else .trap b true, left := 0, table := y.table.drop 1 })).moveCode a false
  | .homeBrake _ r =>
    if r = 0 then s.axisRests a 0
    else (s.setAxisState a 4).updAxis a (fun y =>
      { y with run := if s.jerky a then .jerk r false true true 0 false else .trap r true, left := 0 })
  | .homeBack _ _ _ => s.axisRests a 0
  | .homeIndex _ => s.axisRests a 0

/-- A fault stop (R295): no further microstep; POS_UNCERTAIN if the mechanism may have run on; MOT_REMAIN clears; a pending
command completes with BAD_PARAM and the MOT_STAT bit of the cause. Where the cause has no bit there (a rail, a fault of
severity 4), the DETAIL byte is a free value (log entry 3). -/
def State.faultStop (s : State) (a : Nat) (bitOf : Option Nat) : State :=
  let x := s.axis a
  match x.run with
  | .rest => s
  | _ =>
    let s0 := s.homeLost a
    let s1 := if s.vs2 a < x.last2 then (s0.setFlag (rMotStat a) 27 true).setFlag (rMotStat a) 26 false else s0
    let s2 := ((s1.setAxisState a 0).wr (rMotIvl a) 0).wr (rMotRemain a) 0
    let (d, s3) := match bitOf with
      | some b => (b, s2)
      | none => (s2.freeVal % 256, s2.tookFree)
    (s3.axisReply a (.plain 2 (6 * 2 ^ 24 + d) 0)).updAxis a (fun y => { y with run := .rest, left := 0 })

/-- Every axis in motion. -/
def State.eachAxis (s : State) (f : State → Nat → State) : State := (List.range 8).foldl f s

end Sys2Proof.Machine
end

