-- ==== Sys2Proof/Machine/Operands.lean ====
section
/-! DEFINITION. The operand forms of Polcon packets: the parameter layouts of Tables 3-4, 3-6 and 3-11, and the checks of
R57 in their order. -/

namespace Sys2Proof.Machine

/-- A parameter field: its offset, its size in bytes, and the values it may take. -/
structure PField where
  off  : Nat
  size : Nat
  ok   : Nat → Bool

/-- A field that takes any value. -/
def anyField (off size : Nat) : PField := ⟨off, size, fun _ => true⟩

/-- The first non-zero byte between two offsets of the packet, below LENGTH. -/
def gapBad (bs : List Byte) (len a b : Nat) : Option Nat :=
  firstNonZero a (slice bs a (min b len - a))

/-- The offset of the first bad field from `pos` on (R57, step 6): a field that LENGTH does not cover, a value out of
range, or a non-zero byte that no field occupies. -/
def badFieldFrom (bs : List Byte) (len pos : Nat) : List PField → Option Nat
  | [] => gapBad bs len pos len
  | f :: t =>
    match gapBad bs len pos f.off with
    | some o => some o
    | none =>
      if len < f.off + f.size then some f.off
      else if f.ok (getU bs f.off f.size) then badFieldFrom bs len (f.off + f.size) t
      else some f.off

/-- The offset of the first bad parameter of a packet. -/
def badField (pk : Packet) (fs : List PField) : Option Nat := badFieldFrom pk.bytes (pkLength pk) 0x20 fs

/-- A TIME parameter at `o` (R56); a bad part of it is named by its own offset (log entry 22), and one that LENGTH does
not cover whole by the offset of the field. -/
def timeFields (o : Nat) : List PField :=
  [⟨o, 16, fun _ => true⟩, ⟨o + 8, 4, fun v => decide (v < 1000000000)⟩, anyField (o + 12) 2]

/-- What Table 3-4 says of an opcode: its code, its functions, its modes, its parameters. -/
structure OpSpec where
  op     : Nat
  funcs  : List Master
  modes  : List Nat
  fields : List PField

/-- "all" in the Functions column. -/
def fnAll : List Master := [.h0, .h1, .h2]
/-- "all, H3". -/
def fnAll3 : List Master := [.h0, .h1, .h2, .h3]
/-- "H0, H1". -/
def fn01 : List Master := [.h0, .h1]
/-- "run" in the Modes column. -/
def modesRun : List Nat := [1, 2, 3, 4]
/-- "any". -/
def modesAny : List Nat := [1, 2, 3, 4, 5]
/-- "run, HOLD". -/
def modesRunHold : List Nat := [1, 2, 3, 4, 5]

/-- The opcodes the movement decides one at a time, in fetch order (R66), with the FX opcodes performed as them. -/
def serialOps : List Nat := [0x10, 0x11, 0x13, 0x14, 0x20, 0x21, 0x30, 0x31, 0x32, 0x33, 0x81, 0x82, 0x83]

/-- An earlier fetched packet with an opcode of the list has not been decided yet. -/
def State.earlierOf (s : State) (pk : Packet) (ops : List Nat) : Bool :=
  ops.contains (pkOpcode pk) && s.cmd.started.any (fun e => !e.taken && ops.contains (pkOpcode e.pk) && decide (e.pk.id < pk.id))

/-- The opcodes that a unit answers from an on-chip array: the calibration slots, the residency table, the hole log, always-on RAM. -/
def arrayOps (a : Nat) : List Nat :=
  if a = 3 then [0x42]
  else if a = 9 then [0x10, 0x11, 0x20, 0x21, 0x22, 0x30, 0x32, 0x33, 0x41, 0x94, 0x81, 0x82]
  else if a = 10 then [0x15, 0x84]
  else if a = 13 then [0x61, 0x90, 0x8A]
  else []

/-- The unit that would answer the packet has stopped at an uncorrectable word (R325; log entry 143). -/
def State.unitStopped (s : State) (pk : Packet) : Bool := s.flt.stopped.any (fun a => (arrayOps a).contains (pkOpcode pk))

/-- The packet is not decided yet: an earlier fetched one goes first, of R66, or a CHECK_RUN before a CHECK_RUN (R144), or its unit has
stopped (R325). -/
def State.serialBlocked (s : State) (pk : Packet) : Bool :=
  s.earlierOf pk serialOps || s.earlierOf pk [0x40] || s.unitStopped pk

/-- The packet would be decided now, and no check of R57 would turn it away. -/
def State.decides (s : State) (pk : Packet) (o : OpSpec) : Bool :=
  s.ready pk && pkOpcode pk == o.op && !s.serialBlocked pk && o.funcs.contains pk.fn && o.modes.contains s.mode &&
    (badField pk o.fields).isNone

/-- The decision of a started packet (R57, steps 4 to 7): the function, the mode, the parameters, and then the opcode's
own rules. A command about a packet that has not been started, or has another opcode, or must wait its turn (R66), finds no
packet to decide and changes nothing (log entry 2). -/
def State.decidePk (s : State) (pk : Packet) (o : OpSpec) (act : State → State) : State :=
  if !s.ready pk || pkOpcode pk != o.op || s.serialBlocked pk then s
  else
    let s1 := s.take pk
    if !o.funcs.contains pk.fn then s1.complete pk (.plain 0x03 0 0)
    else if !o.modes.contains s.mode then s1.complete pk (.plain 0x04 0 0)
    else
      match badField pk o.fields with
      | some off => s1.complete pk (.badParam off)
      | none => act s1

/-- R57, step 2: the offset of the first bad header field. `q` is the QUEUE byte the packet must carry. -/
def headerBad (bs : List Byte) (q : Nat) : Option Nat :=
  if getU bs 1 1 / 4 ≠ 0 then some 0x01
  else if getU bs 4 1 ≠ q then some 0x04
  else if getU bs 5 1 ≠ 0 then some 0x05
  else if getU bs 8 8 % 8 ≠ 0 then some 0x08
  else firstNonZero 0x14 (slice bs 0x14 12)

/-- R53: LENGTH is below 32, above 1,024 or not a multiple of 4. -/
def lengthBad (len : Nat) : Bool := decide (len < 32) || decide (1024 < len) || !(len % 4 == 0)

/-- The opcodes of Table 3-4. -/
def knownOps : List Nat :=
  [0x00, 0x01, 0x02, 0x03, 0x04, 0x05, 0x06, 0x07, 0x10, 0x11, 0x12, 0x13, 0x14, 0x15, 0x20, 0x21, 0x22, 0x23,
   0x30, 0x31, 0x32, 0x33, 0x34, 0x40, 0x41, 0x42, 0x50, 0x51, 0x52, 0x53, 0x54, 0x55, 0x60, 0x61, 0x62, 0x63,
   0x70, 0x71, 0x72, 0x73, 0x80, 0x81, 0x82, 0x83, 0x84, 0x85, 0x86, 0x87, 0x88, 0x89, 0x8A, 0x8B,
   0x90, 0x91, 0x92, 0x93, 0x94, 0xA0, 0xA1]

/-! ### Parameter layouts -/

/-- W_A of MODE_ARM and STRIPE_ARM: 0, or 100–100,000 µs. -/
def waOk (v : Nat) : Bool := v == 0 || (decide (100 ≤ v) && decide (v ≤ 100000))
/-- W_C: 0, or 1,000–1,000,000 µs. -/
def wcOk (v : Nat) : Bool := v == 0 || (decide (1000 ≤ v) && decide (v ≤ 1000000))

/-- MODE_ARM (Table 3-6). TARGET is a mode value of Table 2-1. -/
def fModeArm : List PField :=
  [⟨0x20, 1, fun v => decide (v < 6)⟩, ⟨0x24, 4, waOk⟩, ⟨0x28, 4, wcOk⟩] ++ timeFields 0x30
/-- STRIPE_ARM (Table 3-6). -/
def fStripeArm : List PField := [anyField 0x20 4, ⟨0x24, 4, waOk⟩, ⟨0x28, 4, wcOk⟩] ++ timeFields 0x30
/-- CLAIM: OP, OWNER, RES. -/
def fClaim : List PField :=
  [⟨0x20, 1, fun v => v == 1 || v == 2⟩,
   ⟨0x21, 1, fun v => v == 0x30 || v == 0x31 || v == 0x32 || v == 0x40 || v == 0x41 || v == 0x42 ||
      (decide (0x10 ≤ v) && decide (v < 0x26))⟩,
   ⟨0x22, 1, fun v => decide (v < 20)⟩]
/-- HOLE_READ (R72). -/
def fHoleRead (fx : Bool) : List PField :=
  [anyField 0x20 4, anyField 0x24 2] ++ (if fx then [] else [⟨0x26, 1, fun v => decide (v < 2)⟩])
/-- One field of a byte at 0x20 below a bound. -/
def fByte (bound : Nat) : List PField := [⟨0x20, 1, fun v => decide (v < bound)⟩]
/-- AXIS_MOVE: AXIS, TARGET at 0x24, MODE at 0x28. -/
def fAxisMove : List PField :=
  [⟨0x20, 1, fun v => decide (v < 8)⟩, anyField 0x24 4, ⟨0x28, 1, fun v => decide (v < 4)⟩]
/-- HEATER_SET: ZONE, SETPOINT at 0x22, ENABLE at 0x24. -/
def fHeaterSet : List PField :=
  [⟨0x20, 1, fun v => decide (v < 6)⟩, anyField 0x22 2, ⟨0x24, 1, fun v => decide (v < 2)⟩]
/-- FAULT_READ: FROM, MAX. -/
def fFaultRead : List PField := [anyField 0x20 2, anyField 0x22 2]
/-- FAULT_ACK: a source, or 0xFFFF. -/
def fFaultAck : List PField := [⟨0x20, 2, fun v => v == 0xFFFF || isSource v⟩]

end Sys2Proof.Machine
end

