-- ==== Sys2Proof/Machine/Readings.lean ====
section
/-! DEFINITION. The readings of a CHECK run: steps and measured beams (Table 7-2), the classes of Table 7-3, and how a run goes from
reading to reading (R143–R146, R203). -/

namespace Sys2Proof.Machine

/-! ### Steps -/

/-- Steps after the dark step (Table 7-2). -/
def checkSteps (kind : Nat) : Nat := if kind = 2 then 32768 else if kind = 3 then 2048 else 0

/-- The beams measured at step t (Table 7-2), in segment order. -/
def checkBeams (kind slice t : Nat) : List Nat :=
  (List.range 8).map (fun d =>
    if kind = 2 then 512 * (64 * d + t / 512) + t % 512 else 512 * (64 * d + t / 32) + 16 * (t % 32) + slice)

/-- Readings of a run: two in the dark step and two in each later step (R145). -/
def checkReadings (kind : Nat) : Nat := 2 + 2 * checkSteps kind

/-! ### Classes -/

/-- Insertion into a rising list. -/
def insertUp (a : Nat) : List Nat → List Nat
  | [] => [a]
  | b :: t => if a ≤ b then a :: b :: t else b :: insertUp a t

/-- The list in rising order. -/
def sortUp : List Nat → List Nat
  | [] => []
  | a :: t => insertUp a (sortUp t)

/-- Saturated (Table 7-3, class 6). -/
def beamSat (b : BeamReading) : Bool := b.qh == 4095 || b.ql == 4095

/-- The reference response of a FULL run (R146): the median Delta, if any beam counts. -/
def fullQref (bs : List BeamReading) : Option Nat :=
  let ds := sortUp (bs.filterMap (fun b => if beamSat b ∨ b.qh ≤ b.ql then none else some (b.qh - b.ql)))
  ds[(ds.length - 1) / 2]?

/-- G and off of a beam (R146); none where Delta ≤ 0. -/
def beamFit (c : CheckRun) (b : BeamReading) : Option (Int × Int) :=
  if b.qh ≤ b.ql then none
  else
    let delta : Nat := b.qh - b.ql
    let dh : Int := (b.qh : Int) - c.qd.getD (b.beam / 512 / 64) 0
    let w : Int := (c.vHi : Int) - c.vLo
    some (roundHalfEven (16384 * c.qref : Nat) delta, roundHalfEven (c.vHi * delta - dh * w) delta)

/-- The class of a measured beam (Table 7-3). -/
def beamClass (c : CheckRun) (b : BeamReading) : Nat :=
  if beamSat b then 6
  else
    match beamFit c b with
    | none => 3
    | some (g, off) =>
      if c.vHi ≤ c.vLo then 3
      else if 0x8000 < g then 3
      else if g < 0x2000 then 4
      else if off < -128 ∨ 127 < off then 5
      else if (c.weakG : Int) ≤ g then 2 else 1

/-- How many beams of a run have a class in `l`. -/
def classCount (c : CheckRun) (l : List Nat) : Nat := (c.beams.filter (fun b => l.contains (beamClass c b))).length

/-- The DEAD, WEAK, UNMEASURED and STUCK bytes of CHECK_RUN's reply (R148). -/
def checkCounts (dead weak unm stuck : Nat) : List Byte :=
  leBytes 4 dead ++ leBytes 4 weak ++ leBytes 4 unm ++ leBytes 1 stuck ++ zeros 3

/-- The counts of a run (R148). -/
def CheckRun.counts (c : CheckRun) : List Byte :=
  checkCounts (classCount c [3, 4, 5]) (classCount c [2]) (classCount c [6]) c.stuck

/-- A run ends, or is stopped (R146, log entry 166): its beams are classified against WEAK_G as it stands, and in a FULL run against the median; without a beam that
counts QREF is a free value (log entry 3). -/
def State.closeRun (s : State) (c : CheckRun) : CheckRun × State :=
  let d := { c with weakG := s.fld rBmhThr 16 16, done := true }
  if c.kind = 2 then
    match fullQref c.beams with
    | some q => ({ d with qref := q }, s)
    | none => ({ d with qref := s.freeVal % 65536 }, s.tookFree)
  else (d, s)

/-! ### From reading to reading -/

/-- The next reading (R145, R203): one to be repeated, else the next of the run. -/
def CheckRun.nextReading (c : CheckRun) : CheckRun :=
  match c.redo with
  | r :: t => { c with shot := 0, damaged := false, now := r, redo := t, redone := c.redone ++ [r] }
  | [] => { c with shot := 0, damaged := false, now := c.reading, done := c.reading == checkReadings c.kind }

/-- After the reading being taken none is left. -/
def CheckRun.lastReading (c : CheckRun) : Bool :=
  c.redo.isEmpty && (if c.now = c.reading then c.reading + 1 == checkReadings c.kind else c.reading == checkReadings c.kind)

/-- Every pattern shot of the run has been fired. -/
def CheckRun.allFired (c : CheckRun) : Bool := c.done || (c.lastReading && decide (c.reps ≤ c.shot))

/-- The readings of beams with one of them changed, for those measured in the same step. -/
def rereadBeams (c : CheckRun) (t : Nat) (f : BeamReading → Nat → BeamReading) : List BeamReading :=
  let bs := checkBeams c.kind c.slice t
  c.beams.map (fun b => match (List.range 8).find? (fun d => bs.getD d 0 == b.beam) with
    | some d => f b d
    | none => b)

/-- A reading's eight codes enter the run (R145). -/
def CheckRun.put (c : CheckRun) (q : List Nat) : CheckRun :=
  let n := c.now
  let t := (n - 2) / 2
  if n = 0 then { c with qb := q }
  else if n = 1 then { c with qd := q }
  else if n % 2 = 0 then
    if n + 1 < c.reading then { c with beams := rereadBeams c t (fun b d => { b with qh := q.getD d 0 }) } else { c with pendH := q }
  else if n < c.reading then { c with beams := rereadBeams c t (fun b d => { b with ql := q.getD d 0 }) }
  else
    let bs := checkBeams c.kind c.slice t
    { c with pendH := [], beams := ((List.range 8).map (fun d =>
        (⟨bs.getD d 0, c.pendH.getD d 0, q.getD d 0⟩ : BeamReading))).reverse ++ c.beams }

/-- The reading being taken is stored, and the next one begins. -/
def readingStored (c : CheckRun) (q : List Nat) : CheckRun :=
  let d := c.put q
  (if c.now = c.reading then { d with reading := c.reading + 1 } else d).nextReading

end Sys2Proof.Machine
end

