-- ==== Sys2Proof/Machine/Hold.lean ====
section
/-! DEFINITION. Holes and the end of a stripe (R119, R130, R176, R183, R203), the strobes' cut (R198, R199), entry to HOLD
(R69), and a raise with all its actions (R327–R335): the shared operations that every unit's faults go through. -/

namespace Sys2Proof.Machine

/-! ### Runs of blanked lines and groups -/

/-- The lower boundary of line j of a stripe, in pu. -/
def lineY (x : Stripe) (pitch : Nat) (j : Int) : Int := 16 * (x.y0 + j * pitch)

/-- The last shot or interval of a stripe plus one: LINES, or LINES/CHANNELS. -/
def State.ends (s : State) (x : Stripe) : Nat :=
  match s.jobOf x.job with
  | some j => if j.scan then x.lines / j.chans else x.lines
  | none => x.lines

/-- The hole of a run of blanked lines (R119), and of a NO_LIVE_HIT run (R130). REMAINDER is set where LAST is the stripe's last (R70). -/
def State.runHole (s : State) (x : Stripe) (r : LineRun) : Hole :=
  let (p, m, ch) := s.geom x
  if s.mode = 3 then
    ⟨x.stripe, x.job, r.first, r.last, chanMask ch, x.pass, r.reason, true, decide (s.ends x ≤ r.last + 1), false,
      lineY x p (r.first * ch), lineY x p (r.last * ch + ch - 1), 0⟩
  else
    ⟨x.stripe, x.job, r.first, r.last + 511 * m, 0xFFFF, x.pass, r.reason, false, decide (s.ends x ≤ r.last + 511 * m + 1), false,
      lineY x p r.first, lineY x p r.last, 0⟩

/-- The hole of a run of shots with blanked groups (R70, R203). -/
def State.groupHole (s : State) (x : Stripe) (r : GroupRun) : Hole :=
  let (p, _, _) := s.geom x
  ⟨x.stripe, x.job, r.first, r.last, r.mask, x.pass, 0x08, false, decide (s.ends x ≤ r.last + 1), false, lineY x p r.jLo, lineY x p r.jHi, 0⟩

/-- T̄ of the SOS tracking (R179): the mean of the last eight intervals, or of as many as there are (log entry 49). -/
def tBar (l : List Nat) : Nat := sumN l / max 1 l.length

/-- How long the shots or intervals of a hole take at the admitted rate (R343). -/
def State.holeTime (s : State) (x : Stripe) (h : Hole) : T16 :=
  (h.last + 1 - h.first) * (if h.scan then tBar s.scan.intervals else pMin x.rate)

/-- The hole of a run is logged, and charged where an internal raise caused it (R343). -/
def State.logHole (s : State) (x : Stripe) (h : Hole) (internal : Bool) : State :=
  let t := s.addHole x.handle h
  if internal then t.charge (t.holeTime x h) else t

/-- The hole of a run of lines or intervals is logged. -/
def State.logLines (s : State) (x : Stripe) (r : LineRun) : State := s.logHole x (s.runHole x r) r.internal

/-- The hole of a run of groups is logged. -/
def State.logGroups (s : State) (x : Stripe) (r : GroupRun) : State := s.logHole x (s.groupHole x r) r.internal

/-- Line j is settled for R130: it extends the run of lines with such a pixel, begins one, or ends it. -/
def State.noLiveLine (s : State) (x : Stripe) (j : Nat) : State :=
  if s.dose.noLive.contains j then
    match s.foot.noLive with
    | some r => { s with foot := { s.foot with noLive := some { r with last := j } } }
    | none => { s with foot := { s.foot with noLive := some ⟨0x05, j, j, false⟩ } }
  else
    match s.foot.noLive with
    | some r => let t := s.logLines x r
                { t with foot := { t.foot with noLive := none } }
    | none => s

/-- The lines below `lim` are settled for R130. -/
def State.noLiveUpto (s : State) (x : Stripe) (lim : Nat) : State :=
  let t := ((List.range (lim - s.dose.nlNext)).map (fun k => s.dose.nlNext + k)).foldl (fun t j => t.noLiveLine x j) s
  { t with dose := { t.dose with nlNext := max t.dose.nlNext lim,
                                 noLive := t.dose.noLive.filter (fun j => decide (lim ≤ j)) } }

/-- The unlogged runs of the stripe are logged. A run of blanked groups counts in the report and stays open while statuses of its
stripe are awaited, which may still extend it (R203, log entry 149). -/
def State.flushRuns (s0 : State) (h : Nat) : State :=
  match s0.stripeOf h with
  | none => s0
  | some x =>
    let s := s0.noLiveUpto x (s0.dose.noLive.foldl max 0 + 1)
    let s1 := match s.foot.run with | some r => s.logLines x r | none => s
    let s2 := match s.foot.noLive with | some r => s1.logLines x r | none => s1
    let s3 := match s.scan.run with | some r => s2.logLines x r | none => s2
    let s4 := match s.bal.run with
      | some r =>
        if s.bal.status.isEmpty then s3.logGroups x r
        else s3.updStripe h (fun y => y.withHole (s.groupHole x r) (decide (s3.lay.holes.length < 1024)))
      | none => s3
    { s4 with foot := { s4.foot with run := none, noLive := none }, scan := { s4.scan with run := none },
              bal := { s4.bal with run := if s.bal.status.isEmpty then none else s4.bal.run } }

/-- The group run of a stripe that has completed is logged: its shots' statuses have come (R203). -/
def State.flushTail (s : State) : State :=
  match s.bal.run, s.bal.tail with
  | some r, some x =>
    let t := s.logGroups x r
    { t with bal := { t.bal with run := none } }
  | _, _ => s

/-! ### The firing span -/

/-- BLANK_ALL is asserted (R196). -/
def State.assertBlank (s : State) : State :=
  if s.bal.blankAll then s else { s with bal := { s.bal with blankAll := true } }.count (rBalCnt 6) 1

/-- The commit step of an open RUN_SYNC step opens (R44, R155) once 1 µs has passed since the ARMED edge (the part pulls the
line again) and no stripe pass and no CHECK run is in progress: the part applies and releases the line. -/
def State.commitReady (s : State) : State :=
  match s.run.cur with
  | none => s
  | some c =>
    if c.phase == StepPhase.commitWait && s.run.pull && s.esc.firing.isNone && s.gen.cur.isNone then
      { s with run := { s.run with cur := some { c with phase := .applied, saved := s.applied }, pull := false } }
    else s

/-- The firing span ends: BLANK_ALL is asserted, no strobe is awaited, and one IDLE frame goes out (R190, R196). -/
def State.endSpan (s : State) : State :=
  let s1 := if s.bal.span then s.assertBlank.sendIdle else s.assertBlank
  let s2 := if s1.bal.status.isEmpty then s1.flushTail else s1
  { s2 with bal := { s2.bal with span := false, high := [], times := [], risen := [], fell := [], late := [] },
            clk := { s2.clk with gated := s2.clk.gated || s2.bal.span },
            esc := { s2.esc with firing := none } }.commitReady

/-- A CHECK run's firing span ends when the last strobe of its last pattern shot has fallen (R190, R196): of a run that has stopped,
the last one fired. -/
def State.checkSpanEnd (s : State) : State :=
  let last := match s.gen.cur with | some c => c.allFired | none => true
  if s.bal.span && s.esc.firing.isNone && s.bal.high.isEmpty && s.bal.risen.isEmpty && last then s.endSpan else s

/-- DET_GATE, a function of GPIO2, changes (R141, R143); it leaves the part only where GPIO2 has that function (log entry 167). -/
def State.setGate (s : State) (high : Bool) : State :=
  if s.gen.gate == high then s
  else
    let t : State := { s with gen := { s.gen with gate := high } }
    if s.fld (rPadGpioCfg 2) 28 4 = 2 then t.emitPin (.detGate high) else t

/-- Every strobe that is high is cut, and every strobe not yet risen is suppressed (R198, R199); the span ends. -/
def State.cutStrobes (s : State) : State :=
  (s.bal.high.foldl (fun t h => t.emit (.strobe h.g false none)) s).endSpan

/-- Nothing of the aborted stripe is left to fire: no locked shot below the limit, and no strobe to rise or to fall. -/
def Firing.spent (f : Firing) (b : BalState) : Bool :=
  decide (f.limit ≤ f.fired) && b.high.isEmpty && b.risen.all (fun p => p.2 == 0xFFFF)

/-- The lowest shot that has not been locked. -/
def Firing.lowestUnlocked (f : Firing) : Nat := f.pend

/-- The hole of a blanked remainder, from shot (R176) or interval (R183) `sb`. -/
def State.restHole (s : State) (x : Stripe) (reason sb : Nat) : Hole :=
  let (p, m, ch) := s.geom x
  if s.mode = 3 then
    ⟨x.stripe, x.job, sb, s.ends x - 1, chanMask ch, x.pass, reason, true, true, false,
      lineY x p (sb * ch), lineY x p (x.lines - 1 : Int), 0⟩
  else
    ⟨x.stripe, x.job, sb, x.lines - 1, 0xFFFF, x.pass, reason, false, true, false,
      lineY x p (sb - 511 * m : Nat), lineY x p (x.lines - 1 : Int), 0⟩

/-- The strobes are cut while locked shots of a stripe that has been aborted still fire (R198, R199): what no longer fires at full
width is logged, with the other fields as in R176 (log entry 150). -/
def State.cutHole (s : State) (f : Firing) (reason sb : Nat) (internal : Bool) : State :=
  match s.bal.tail with
  | none => s
  | some x =>
    if f.limit ≤ sb then s
    else
      let h := s.restHole x reason sb
      let t := s.addHole f.handle h
      if internal then t.charge (t.holeTime x { h with last := f.limit - 1 }) else t

/-- The lowest shot not yet fired, or the lowest interval not yet begun (R176, R183). -/
def State.lowestUnfired (s : State) : Nat :=
  match s.esc.firing with
  | none => 0
  | some f => if s.mode = 3 then (if s.scan.started then s.scan.interval else 0) else f.fired

/-- A cancel of the stripe is decided on this clock, behind this command (R176). -/
def State.cancelWaits (s : State) (h : Nat) : Bool :=
  s.ties (fun c => match c with
    | .stripeCancel pk => s.decides pk ⟨0x13, [.h0], modesRunHold, [anyField 0x20 4]⟩ && pkU pk 0x20 4 == h
    | .fxAbort pk => s.decides pk ⟨0x83, [.h3], modesRun, []⟩ && s.lay.fxHandle == h
    | _ => false)

/-- A HOLD command is decided on this clock, behind this command (R176). -/
def State.holdWaits (s : State) : Bool :=
  s.ties (fun c => match c with
    | .hold pk => s.decides pk ⟨0x03, fnAll, modesAny, [anyField 0x20 4]⟩
    | _ => false)

/-- An entry to HOLD, or a cancel, that is decided on the same clock takes precedence (R176): its reason, and the lower of the two first
shots. -/
def State.precedence (s : State) (f : Firing) (reason sb : Nat) : Nat × Nat :=
  if reason = 0x0C ∨ reason = 0x0D then (reason, sb)
  else if s.holdWaits then (0x0C, min sb (if s.mode = 3 then s.lowestUnfired else s.bal.full))
  else if s.cancelWaits f.handle then (0x0D, min sb (if s.mode = 3 then s.scan.interval else f.pend))
  else (reason, sb)

/-- The remainder of the stripe past its COMMIT edge is blanked from `sb` with a reason (R176, R183): one hole is logged, the
stripe completes STRIPE_ABORTED with SHOTS = `sb`, and what is locked below `sb` still fires. With `cut` (HOLD, a watchdog
cut) the strobes are cut instead. A HOLD or a cancel of the same clock takes precedence. Where nothing is left to blank, the stripe completes normally in its own time. -/
def State.blankRest (s : State) (reason sb : Nat) (cut internal : Bool) : State :=
  match s.esc.firing with
  | none => s
  | some f =>
    match s.stripeOf f.handle with
    | none => if cut then (s.cutHole f reason sb internal).cutStrobes else s
    | some x =>
      if s.ends x ≤ sb then (if cut then s.cutStrobes else s)
      else
        let (why, from_) := s.precedence f reason sb
        let sb' := if f.pend = 0 then 0 else from_
        let s1 := s.flushRuns f.handle
        let h := s1.restHole x why sb'
        let t := s1.holeTime x h
        let s2 := (s1.addHole f.handle h).updStripe f.handle (fun y => { y with shots := sb' })
        let s3 := if internal then
            { s2.charge t with flt := { (s2.charge t).flt with credit := s2.flt.credit + t } } else s2
        let s4 := (s3.completeStripe f.handle).boundary
        let f' : Firing := { f with ended := true, limit := sb', locks := f.locks.filter (fun l => decide (l.shot < sb')) }
        let s5 := { s4 with esc := { s4.esc with firing := some f', cancels := if why = 0x0D then some (f.handle, s.tim.elapsed) else none }, scan := { s4.scan with started := false, rest := decide (s.mode = 3) } }
        if cut then s5.cutStrobes
        else if s.mode = 3 ∨ !s.bal.span then { s5 with esc := { s5.esc with firing := none } }.commitReady
        else if f'.spent s5.bal then s5.endSpan
        else s5

/-! ### RUN_SYNC and replies at HOLD -/

/-- This part shows itself armed, from its release in the arm phase to the closing rise (GLB_MODE, log entry 30), or committed. -/
def State.ownFlag (s : State) (committed : Bool) : Bool :=
  match s.run.cur with
  | some c => if committed then c.phase == StepPhase.applied else c.armed
  | none => false

/-- The parts of the roster whose last heartbeat did not show them armed, or committed (R45), as bits; a member whose heartbeat
is lost counts (R270), and this part stands for itself. -/
def State.laggards (s : State) (committed : Bool) : Nat :=
  s.net.roster.foldl (fun m i =>
    if i = s.sysIdx then (if s.ownFlag committed then m else m ||| 2 ^ i)
    else
      match s.net.peers.find? (fun p => p.idx == i) with
      | some p => if !p.lost && (if committed then p.committed else p.armed) then m else m ||| 2 ^ i
      | none => m ||| 2 ^ i) 0

/-- The MODE_SPLIT reply of R45: the laggards of indices 0–31 and 32–63. -/
def State.modeSplit (s : State) (committed : Bool) : Reply :=
  let m := s.laggards committed
  .plain 0x13 (m % 2 ^ 32) (m / 2 ^ 32)

/-- A step command that HOLD ends (R69): MODE_ARM with MODE_SPLIT, STRIPE_ARM with STRIPE_ABORTED and its report. -/
def State.holdStep (s : State) (committed : Bool) (c : StepCmd) : State :=
  if c.handle = 0 then s.complete c.pk (s.modeSplit committed)
  else
    match s.stripeOf c.handle with
    | some x => s.complete c.pk ⟨0x21, 0, 0, reportBytes { x with shots := 0 } 0x21, 1, false⟩
    | none => s.complete c.pk (.plain 0x21 0 0)

/-- The open step and the queued ones are abandoned; what the step had applied is restored (R28, R46). -/
def State.holdRun (s : State) : State :=
  let s1 : State := match s.run.cur with
    | none => s
    | some c =>
      let com : Bool := c.phase == StepPhase.commitWait || c.phase == StepPhase.applied
      let s0 := match c.cmd with | some k => s.holdStep com k | none => s
      if c.phase == StepPhase.applied then { s0 with applied := c.saved } else s0
  let s2 := s1.run.queue.foldl (fun t k => t.holdStep false k) s1
  { s2 with run := { s2.run with cur := none, queue := [], pull := true, line := false } }

/-- How a CHECK_RUN that ends early replies, from the steps completed and the counts of R148. -/
abbrev ChkReply : Type := Nat → List Byte → Reply

/-- The CHECK run under way stops, its results are kept, and CHECK_RUN completes with the steps done and its counts (R147, R148,
R328). The later slots of a shot that has been fired still rise (R194). -/
def State.stopCheck (s : State) (f : ChkReply) : State :=
  match s.gen.cur with
  | none => s
  | some c =>
    let (c1, s0) := s.closeRun c
    let s1 := s0.complete c.pk (f (s.fld rBmhRun 0 16) c1.counts)
    ((((({ s1 with gen := { s1.gen with cur := none, kept := some c1 } }.setFld
      rBmhRun 30 2 3).wr rBmhRunId c.run).setGate false).pulse 28).checkSpanEnd).commitReady

/-! ### Entry to HOLD -/

/-- From now to the next entry to SERVICE is charged to the part (R343). -/
def State.outageFrom (s : State) : State :=
  match s.flt.outage with
  | some _ => s
  | none => { s with flt := { s.flt with outage := some s.tim.elapsed, credit := 0 } }

/-- Entry to HOLD (R26, R69, R199, R46, R293, R307): every axis gets a stop request; the stripe past its COMMIT edge is
aborted with reason HOLD from the lowest shot not wholly fired, or from `own` if lower; strobes are cut and BLANK_ALL is
asserted; admitted stripes are dropped, waiting admissions refused, pending steps completed; RUN_SYNC is pulled and
ALLSTOP set. The time in a HOLD entered through an internal raise is charged (R343). In STANDBY and in HOLD it does nothing. -/
def State.holdEntry (s : State) (cause src : Nat) (own : Option Nat) (internal : Bool) (chk : ChkReply) : State :=
  if s.mode = 0 ∨ s.mode = 5 then s
  else
    let s1 := (if internal then s.outageFrom else s).eachAxis State.stopRequest
    let sb0 := if s.mode = 3 then s1.lowestUnfired else s1.bal.full
    let sb := match own with | some b => min b sb0 | none => sb0
    let s2 := (s1.blankRest 0x0C sb true internal).cutStrobes
    let s3 := s2.holdRun
    let s4 := s3.lay.stripes.foldl (fun t x => t.dropStripe x.handle) s3
    let s5 := s4.lay.waiting.foldl (fun t w => t.complete w.pk (.plain 0x04 0 0)) s4
    let s6 := { s5 with lay := { s5.lay with waiting := [], stripes := [] } }
    let q := s6.gen.queue
    let s6b := q.foldl (fun t pk => t.complete pk (.plain 0x04 0 0)) { s6 with gen := { s6.gen with queue := [] } }
    let s7 := (s6b.stopCheck chk).boundary
    let s8 := ((s7.setFld rGlbMode 29 3 5).setFld rFltHold 28 4 cause).setFld rFltHold 0 11 src
    let s9 := { s8 with flt := { s8.flt with allstop := true, holdAt := s8.tim.elapsed } }
    s9.holdRails.aliveCheck

/-- The reply of a CHECK_RUN that an entry to HOLD without a fault source ends (log entry 21). -/
def chkHeld (steps : Nat) (counts : List Byte) : Reply := ⟨0x04, 0, steps, counts, 1, false⟩

/-- The reply of a CHECK_RUN that a raise ends (R148, R328). -/
def chkFault (src : Nat) (steps : Nat) (counts : List Byte) : Reply := ⟨2, 7 * 2 ^ 24 + src, steps, counts, 1, false⟩

/-! ### A raise -/

/-- The record of a source takes the part into HOLD at its next entry to SERVICE (R28, R339). -/
def State.carryRec (s : State) (src : Nat) : State := s.setRec { s.recOf src with carry := true }

/-- The actions of a raise at effective severity `e` (Table 15-4, R328, R339), with the remainder that the source's own rule
blanks (`own`: reason and first shot or interval). In STANDBY, and until the sections have been applied, the next entry to SERVICE acts on a
severe one (R28); of a power-down, on the one that caused it. -/
def State.actOn (s : State) (r : Raise) (e : Nat) (own : Option (Nat × Nat)) (chk : ChkReply) : State :=
  let internal := r.internal
  let s0 := if 2 ≤ e then { s with flt := { s.flt with lastSev2 := s.tim.elapsed } } else s
  let s1 := if 4 ≤ e then
      let t := s0.eachAxis (fun t a => t.faultStop a none)
      let t1 := if t.fld rPwrSeq 30 2 < 2 then { t with pwr := { t.pwr with downCause := 3 } }.carryRec r.src else t
      if internal then t1.outageFrom else t1
    else s0
  let s2 :=
    if 3 ≤ e then
      if s1.mode = 0 ∨ !s1.dom.cfgDone then s1.carryRec r.src
      else if s1.mode = 5 then { s1 with flt := { s1.flt with allstop := true } }
      else s1.holdEntry 1 r.src (own.map (·.2)) internal chk
    else
      let t : State := match own with
        | some (reason, sb) => s1.blankRest reason sb (reason == 0x09) internal
        | none => if e = 2 then s1.blankRest 0x0B s1.lowestUnfired false internal else s1
      let t1 := if e = 2 then t.stopCheck chk else t
      if e = 2 ∧ t1.mode = 5 then { t1 with flt := { t1.flt with allstop := true } } else t1
  s2.aliveCheck

/-- An injection of the source is active. -/
def State.injected (s : State) (src : Nat) : Bool := s.flt.inj.any (fun j => j.src == src)

/-- An injection holds the source's pair (Table 15-6). -/
def State.pairInjected (s : State) (src : Nat) : Bool := s.flt.inj.any (fun j => j.src == src && bitAt j.value 31)

/-- The source's pair is held invalid: a raise shows only as the WIRE raise (R326, R341). -/
def State.pairHeld (s : State) (src : Nat) : Bool :=
  (s.recOf src).wire || s.pairInjected src

/-- A raise by itself (R327–R335): merged into its record, or recorded, logged, with a snapshot where one is due, and acted on.
Where the pair is held, only what the detecting unit itself does remains; a source whose detector's domain is down reads as not
raised. -/
def State.raiseOne (s : State) (r : Raise) (own : Option (Nat × Nat)) (chk : ChkReply) : State :=
  if !s.collects r.src then s
  else if !r.wire && s.pairHeld r.src then
    match own with
    | some (reason, sb) => (s.markOnset r).blankRest reason sb (reason == 0x09) r.internal
    | none => s.markOnset r
  else if s.merges r then
    let t := (s.mergeMore r.src 1).markOnset r
    match own with
    | some (reason, sb) => t.blankRest reason sb (reason == 0x09) r.internal
    | none => t
  else
    let e := s.effSev r
    let snap := snapsItself r.src || decide (3 ≤ e) || r.wire
    let s1 := (s.record r e snap).countInternal r e
    let s2 := if snap then s1.takeSnapshot r.src (railOf r.src) else s1
    s2.actOn r e own chk

/-- MOT_HOMEFAIL of an axis whose homing has ended without a home (R299). -/
def State.homeFailOut (s : State) (a : Nat) : State :=
  if (s.axis a).failed then
    (s.updAxis a (fun y => { y with failed := false })).raiseOne (Raise.of (srcMot 3 a)) none (chkFault (srcMot 3 a))
  else s

/-- MOT_HOMEFAIL of every such axis; one that the first of these raises stops is seen in the second turn. -/
def State.homeFailsOut (s : State) : State := (s.eachAxis State.homeFailOut).eachAxis State.homeFailOut

/-- A raise, and the MOT_HOMEFAILs of the axes whose homing its actions end (R299), on one clock. -/
def State.raiseFull (s : State) (r : Raise) (own : Option (Nat × Nat)) (chk : ChkReply) : State :=
  s.onOneClock (fun t => (t.raiseOne r own chk).homeFailsOut)

/-- Entry to HOLD without a raise, and the MOT_HOMEFAILs that it brings (R299). -/
def State.enterHold (s : State) (cause src : Nat) (internal : Bool) : State :=
  (s.holdEntry cause src none internal chkHeld).homeFailsOut

/-- The onset of a level source's condition, or what its unit does at it; while the condition is present already on another input,
only the record notes it (R330, R341). -/
def State.onsetOr (s : State) (src : Nat) (f : State → State) : State :=
  if (s.recOf src).cond ∨ (s.recOf src).inj then s.markOnset (Raise.of src) else f s

/-- A raise whose source blanks nothing of its own. -/
def State.raise (s : State) (src : Nat) : State := s.raiseFull (Raise.of src) none (chkFault src)

/-- A raise with its DETAIL (Table 15-5). -/
def State.raiseWith (s : State) (src detail : Nat) : State :=
  s.raiseFull { Raise.of src with detail := some detail } none (chkFault src)

/-- A raise whose source's own rule blanks the remainder from shot or interval `sb` with `reason`. -/
def State.raiseBlank (s : State) (src reason sb : Nat) : State :=
  s.raiseFull (Raise.of src) (some (reason, sb)) (chkFault src)

/-- A refused register write: ACCESS, with the BAR0 offset of the write (R13, Table 15-5). -/
def State.access (s : State) (off : Nat) : State := s.raiseWith srcAccess off

end Sys2Proof.Machine
end

