-- ==== Sys2Proof/Machine/Inject.lean ====
section
/-! DEFINITION. What the detectors compare (R341, Table 15-6), the raise of a detector that trips, and the units that an uncorrectable
on-chip word stops (R325). -/

namespace Sys2Proof.Machine

/-- The reason with which a source's own rule blanks the remainder of a stripe (Tables 8-8, 9-7, 11-6, 12-5), if it does. -/
def ownReason (src : Nat) : Option Nat :=
  if src = srcSlip then some 0x02
  else if src = srcReversal then some 0x03
  else if src = srcShotClock then some 0x04
  else if src = srcBackchLoss then some 0x08
  else if srcStrobeStuck 0 ≤ src ∧ src ≤ srcStrobeStuck 15 then some 0x09
  else if src = srcSosLost ∨ src = srcFacetCount then some 0x0A
  else if src = srcPlinkLoss ∨ src = srcEncErr ∨ src = srcStall ∨ src = srcLinkCoast then some 0x0B
  else if srcMem 5 0 ≤ src ∧ src ≤ srcMem 5 3 then some 0x0B
  else none

/-- The form of a source's compared input (Table 15-6): 0 a level, 1 a reading, 2 a check, 3 a wait; 1 for a source that the
table does not place (log entry 67). -/
def injForm (src : Nat) : Nat :=
  if src < 0x10 then 2
  else if src < 0x100 then [3, 1, 0, 0, 0, 3, 3].getD ((src - 0x10) / 24) 1
  else if src < 0x109 then 1
  else if src < 0x10D then 3
  else if src = srcHbLoss then 3
  else if 0x200 ≤ src ∧ src < 0x208 then 2
  else if 0x20C ≤ src ∧ src < 0x210 then 2
  else if 0x230 ≤ src ∧ src < 0x250 then 2
  else if src = srcStream ∨ src = srcVerifyFail ∨ src = srcRle1Verify then 2
  else if src = srcMoveWdog then 3
  else if 0x400 ≤ src ∧ src < 0x441 then 2
  else if src = srcBackchLoss ∨ src = srcLaneLock then 0
  else if src = srcEncErr then 2
  else if src = srcSosMiss then 3
  else if srcStrobeStuck 0 ≤ src ∧ src ≤ srcStrobeStuck 15 then 3
  else if srcMot 1 0 ≤ src ∧ src ≤ srcMot 3 7 then 0
  else 1

/-! ### Comparisons on VALUE -/

/-- The number of a source among those of its kind, from `base` on. -/
def srcIn (src base n : Nat) : Bool := decide (base ≤ src) && decide (src < base + n)

/-- What the comparison on a reading says (R341): the reading against the limit that the source's rule gives, in the units of the reading's
register. None where no rule gives such a limit (log entry 174). -/
def State.readingTrips (s : State) (src v : Nat) : Option Bool :=
  if srcIn src (srcPwr 1 0) 24 then some (decide (s.fld (rPwrRtime (src - srcPwr 1 0)) 4 4 < v))
  else if srcIn src (srcClkCoast 0) 6 then some (decide (2 < v))
  else if src = srcPtpBigOfs then some (decide (min 999999999 (s.fld rTimJmax 0 30) < v))
  else if srcIn src (srcMem 4 0) 4 then
    some (decide (10 < (signed 8 v - signed 8 (s.fld (rMemTemp (src - srcMem 4 0)) 8 8)).natAbs))
  else if srcIn src (srcMem 5 0) 4 then
    some (decide (12 < (signed 8 v - signed 8 (s.fld (rMemTemp (src - srcMem 5 0)) 8 8)).natAbs))
  else if srcIn src (srcMem 6 0) 4 then some (decide (95 < signed 8 v))
  else if src = srcAccOver then some (decide (2 ^ 25 - 1 < v))
  else if src = srcSnapRaw then some (decide (5000 < v))
  else if src = srcSlip then
    let m := s.apFld rEscSlipmax 0 24
    match s.esc.firing.bind (fun f => s.stripeOf f.handle) with
    | some x => some (decide ((if m = 0 then 4 * (s.geom x).1 else min m 2097088) < v))
    | none => some false
  else if src = srcReversal then
    some (decide ((if s.apFld rEscCfg 0 2 ≠ 0 then s.apFld rEscRevtol 24 8 else s.apFld rEscRevtol 0 24) < v))
  else if src = srcPlinkLoss then some (decide (s.apFld rEscTrk 28 4 < v))
  else if src = srcSosLost then some (decide (s.apFld rEscScfg 24 8 < v))
  else if src = srcFacetCount then some (decide (v ≠ 0))
  else if src = srcStuckOn then some (decide (s.fld rBmhThr 8 8 < v))
  else if src = srcDetSat then some (decide (v = 4095))
  else if src = srcPlateAlarm then some (decide (v ≠ 0))
  else if srcIn src (srcMot 0 0) 8 then some (decide (s.fld (rMotLoad (src - srcMot 0 0)) 24 8 < v))
  else if srcIn src (srcHtrSensor 0) 6 then some (decide (v = 0 ∨ v = 4095))
  else if srcIn src (srcHtrOver 0) 6 then some (decide (signed 16 (s.fld (rThmSp (src - srcHtrOver 0)) 16 16) < signed 16 v))
  else none

/-- What the comparison on a level says: PG, LOADFB, HOME and block lock trip when the level seen is 0, a limit when it is 1. -/
def levelTrips (src v : Nat) : Bool := if srcIn src (srcMot 1 0) 8 then v == 1 else v == 0

/-- What the comparison on VALUE says at the detector's input (Table 15-6). None where no rule says. A wait does not trip by itself: it
expires. -/
def State.valueTrips (s : State) (src v : Nat) : Option Bool :=
  if bitAt v 31 then some false
  else match injForm src with
    | 0 => some (levelTrips src v)
    | 1 => s.readingTrips src v
    | 2 => some (v == 1)
    | _ => some false

/-- The detector compares now: a PG that should be high, an axis in motion, a zone that runs, a stripe past its COMMIT edge, a lane in use
outside a firing span; every other detector always does (log entry 174). -/
def State.detects (s : State) (src : Nat) : Bool :=
  if srcIn src (srcPwr 2 0) 24 then s.railGood (src - srcPwr 2 0) && !s.railOwn (src - srcPwr 2 0)
  else if srcIn src (srcPwr 3 0) 24 then s.railGood (src - srcPwr 3 0) && s.railOwn (src - srcPwr 3 0)
  else if srcIn src (srcPwr 4 0) 24 then decide (2 ≤ s.seqPhase) && s.railEn (src - srcPwr 4 0)
  else if srcIn src (srcMot 0 0) 32 then !s.atRest (src % 8)
  else if srcIn src (srcHtrSensor 0) 6 then s.flag (rThmCfg (src - srcHtrSensor 0)) 30
  else if srcIn src (srcHtrOver 0) 6 then s.flag (rThmCfg (src - srcHtrOver 0)) 30
  else if src = srcLaneLock then s.linkOn && !s.bal.span
  else if src = srcSosLost ∨ src = srcFacetCount then s.esc.firing.isSome && s.mode == 3
  else if src = srcBackchLoss then s.bal.span
  else if (ownReason src).isSome && !srcIn src (srcStrobeStuck 0) 16 && !srcIn src (srcMem 5 0) 4 then s.esc.firing.isSome
  else true

/-- The comparison of an injection trips: by its rule, or, where none gives a limit, as the free value drawn at INJECT has it. -/
def State.injTripsNow (s : State) (j : Injection) : Bool :=
  s.detects j.src && (s.valueTrips j.src j.value).getD j.open_

/-- An injection of the source trips, or withholds what the source waits for (Table 15-6). -/
def State.injTrips (s : State) (src : Nat) : Bool :=
  s.flt.inj.any (fun j => j.src == src && (s.injTripsNow j || (injForm src == 3 && j.value == 1)))

/-- An injection withholds what the source waits for: the injected wait expires though the arrival came (Table 15-6). -/
def State.withheld (s : State) (src : Nat) : Bool := s.flt.inj.any (fun j => j.src == src && injForm src == 3 && j.value == 1)

/-! ### The raise of a detector -/

/-- The unit that reads array `a` stops, and the word is not used (R325): the expander, the renderer and the footprint store; the hit
units; the SCN line buffer; the cores of the movement; the units of the calibration slots, the ride-through FIFOs, the residency table, the
hole log, the mailboxes and always-on RAM answer nothing from it until the part enters SERVICE anew. For array 15 no rule names the unit:
HOLD stops it (log entry 143). -/
def State.sramStops (s0 : State) (a : Nat) : State :=
  let s : State := { s0 with flt := { s0.flt with stopped := s0.flt.stopped.filter (fun x => !(x == a)) ++ [a] } }
  if a = 0 ∨ a = 1 ∨ a = 2 ∨ a = 14 then s.emptyFoot
  else if a = 4 ∨ a = 5 ∨ a = 6 then { s with dose := { s.dose with q := [], shots := [], values := [], adds := [] } }
  else if a = 7 then { s with scan := { s.scan with inBuf := [] }, dma := { s.dma with scnBuf := [[], []] } }
  else if a = 11 then { s with mbx := { s.mbx with coreHeld := [true, true, true] } }
  else s

/-- A detector trips, on its real input or on an injected one. A level source raises at the onset of its condition only; a second onset is
that of its other input (R325, R330, R341). -/
def State.raiseInput (s : State) (src : Nat) (inj : Bool) : State :=
  if !s.collects src then s
  else
    let x := s.recOf src
    let r : Raise := { Raise.of src with inj := inj && !(isLevel src && x.inj) }
    if isLevel src ∧ (x.cond ∨ x.inj) then s.markOnset r
    else if 0x240 ≤ src ∧ src < 0x250 then (s.raiseFull r none (chkFault src)).sramStops (src - 0x240)
    else s.raiseFull r ((ownReason src).map (fun b => (b, s.lowestUnfired))) (chkFault src)

/-- The detector of an injection compares (R341): it raises when the comparison comes to trip. -/
def State.injLook (s : State) (src : Nat) : State :=
  match s.flt.inj.find? (fun j => j.src == src) with
  | none => s
  | some j =>
    let b := s.injTripsNow j
    let t : State := { s with flt := { s.flt with inj := s.flt.inj.map (fun x => if x.src == src then { x with seen := b } else x) } }
    if b && !j.seen then t.raiseInput src true else t

/-- Every detector with an injection compares: at INJECT and at each tick (log entry 174). The injections stand in ascending order of source,
as the raises of one clock are taken (R333). -/
def State.injCheck (s : State) : State :=
  if s.flt.inj.isEmpty then s
  else s.onOneClock (fun t => (t.flt.inj.map (·.src)).foldl State.injLook t)

/-- The wait of an injection that withholds the arrival has expired (Table 15-6). -/
def State.waitOut (s : State) (src : Nat) : State := if s.withheld src then s.raiseInput src true else s

end Sys2Proof.Machine
end

