-- ==== Sys2Proof/Machine/Rle.lean ====
section
/-! DEFINITION. The run-length code (R88, R111): the greedy encoder, the decoder, and erratum A0-03. -/

namespace Sys2Proof.Machine

/-- The number of bytes equal to `b` at the head, at most `n`. -/
def runLen (b : Byte) : Nat → List Byte → Nat
  | 0, _ => 0
  | _ + 1, [] => 0
  | n + 1, x :: t => if x = b then runLen b n t + 1 else 0

/-- run_length of R111 at the head of a sequence: equal bytes, at most 130. -/
def runHead : List Byte → Nat
  | [] => 0
  | x :: t => 1 + runLen x 129 t

/-- The literals at the head: bytes at which no run of three begins, at most `n`. -/
def litLen : Nat → List Byte → Nat
  | 0, _ => 0
  | _ + 1, [] => 0
  | n + 1, x :: t => if runHead (x :: t) < 3 then 1 + litLen n t else 0

/-- The greedy parse of R111; `fuel` bounds the items by the bytes. -/
def rleEncodeFuel : Nat → List Byte → List Byte
  | 0, _ => []
  | _, [] => []
  | f + 1, x :: t =>
    let r := runHead (x :: t)
    if 3 ≤ r then BitVec.ofNat 8 (128 + (r - 3)) :: x :: rleEncodeFuel f ((x :: t).drop r)
    else
      let k := litLen 128 (x :: t)
      BitVec.ofNat 8 (k - 1) :: ((x :: t).take k ++ rleEncodeFuel f ((x :: t).drop k))

/-- The code of a sequence (R111). -/
def rleEncode (bs : List Byte) : List Byte := rleEncodeFuel bs.length bs

/-- The bytes a code stands for (R88), where it ends with an item and not inside one. -/
def rleDecodeFuel : Nat → List Byte → Option (List Byte)
  | _, [] => some []
  | 0, _ => none
  | f + 1, c :: t =>
    let n := c.toNat
    if n < 128 then
      if t.length < n + 1 then none
      else (rleDecodeFuel f (t.drop (n + 1))).map (fun r => t.take (n + 1) ++ r)
    else
      match t with
      | [] => none
      | b :: t' => (rleDecodeFuel f t').map (fun r => List.replicate (n - 128 + 3) b ++ r)

/-- The bytes a code stands for, exactly `n` of them (R80, R88). -/
def rleDecode (code : List Byte) (n : Nat) : Option (List Byte) :=
  match rleDecodeFuel code.length code with
  | some bs => if bs.length = n then some bs else none
  | none => none

/-- Whether the last item of a code is a run of exactly 130 (erratum A0-03). -/
def lastRun130Fuel : Nat → Bool → List Byte → Bool
  | 0, last, _ => last
  | _, last, [] => last
  | f + 1, _, c :: t =>
    if c.toNat < 128 then lastRun130Fuel f false (t.drop (c.toNat + 1)) else lastRun130Fuel f (c.toNat == 255) (t.drop 1)

/-- The last item of the code is a run of exactly 130 (erratum A0-03). -/
def lastRun130 (code : List Byte) : Bool := lastRun130Fuel code.length false code

end Sys2Proof.Machine
end

