-- ==== Sys2Proof/Machine/Ferix.lean ====
section
/-! DEFINITION. The Ferix records (R76–R88, R90, R93, R94): the walker of R80 with its causes (Table 4-3). -/

namespace Sys2Proof.Machine

/-- TYPE of the record at the head. -/
def recType (bs : List Byte) : Nat := getU bs 0 1
/-- The length of the record at the head, in bytes: LEN8 × 8. -/
def recLen (bs : List Byte) : Nat := 8 * getU bs 2 2

/-- CHECK of the record at the head matches (R77); the record lies whole in `bs`. -/
def recCheckOk (bs : List Byte) : Bool :=
  getU bs 4 4 == crc32c (slice bs 0 4 ++ slice bs 8 (recLen bs - 8))

/-- A tested field of a record: reserved, or defined with its values. -/
structure RField where
  off  : Nat
  size : Nat
  res  : Bool
  ok   : Nat → Bool

/-- A reserved field. -/
def rsv (off size : Nat) : RField := ⟨off, size, true, fun _ => true⟩
/-- A defined field. -/
def fld (off size : Nat) (ok : Nat → Bool) : RField := ⟨off, size, false, ok⟩
/-- Any value. -/
def anyV (_ : Nat) : Bool := true
/-- An s40 value, sign-extended in 8 bytes. -/
def s40ok (v : Nat) : Bool := let x := signed 64 v; decide (-(2 ^ 39 : Int) ≤ x) && decide (x < 2 ^ 39)
/-- An s24 value, sign-extended in 4 bytes. -/
def s24ok (v : Nat) : Bool := let x := signed 32 v; decide (-(2 ^ 23 : Int) ≤ x) && decide (x < 2 ^ 23)
/-- A value from `a` to `b`. -/
def inR (a b : Nat) (v : Nat) : Bool := decide (a ≤ v) && decide (v ≤ b)

/-- A coordinate field of a primitive: 8 bytes in stripe form, 4 in cell form (R85). -/
def coord (wide : Bool) (i : Nat) : RField := if wide then fld (8 + 8 * i) 8 s40ok else fld (8 + 4 * i) 4 s24ok

/-- The coordinate number `i` of a primitive, as a number. -/
def coordAt (bs : List Byte) (wide : Bool) (i : Nat) : Int := if wide then getS bs (8 + 8 * i) 8 else getS bs (8 + 4 * i) 4

/-- The offset after `n` coordinates. -/
def afterCoords (wide : Bool) (n : Nat) : Nat := if wide then 8 + 8 * n else 8 + 4 * n

/-- The length of Table 4-2 for a type, before the variable part; none for an unknown type. -/
def baseLen (ty : Nat) (wide : Bool) : Option Nat :=
  match ty with
  | 1 => some 32 | 2 => some 264 | 3 => some 16 | 4 => some 16 | 5 => some 48 | 6 => some 304 | 7 => some 32
  | 8 => some 40
  | 9 => some (if wide then 64 else 40)
  | 10 => some (if wide then 48 else 32)
  | 11 => some (if wide then 32 else 24)
  | 12 => some 16
  | _ => none

/-- The fields of a record from offset 0x08, with the values the walker accepts (R80, R82). -/
def recFields (ty : Nat) (wide : Bool) : List RField :=
  match ty with
  | 1 => [fld 0x08 1 (inR 0 1), fld 0x09 1 (fun v => [0, 1, 2, 4, 8, 16].contains v), fld 0x0A 1 (inR 1 16),
      fld 0x0B 1 (fun v => [0, 1, 2, 4, 8, 16, 32].contains v), fld 0x0C 4 (inR 128 2560),
      fld 0x10 4 (fun v => decide (v ≤ 32768) && v % 512 == 0), fld 0x14 2 (inR 0 160), rsv 0x16 2,
      fld 0x18 2 (fun v => v == 1), rsv 0x1A 6]
  | 3 => [fld 0x08 1 (inR 0 1), fld 0x09 1 (inR 0 1), fld 0x0A 1 (inR 0 1), fld 0x0B 1 (inR 0 1), rsv 0x0C 4]
  | 4 => [fld 0x08 2 (inR 0 159), rsv 0x0A 2, fld 0x0C 4 (fun v => inR 8 65536 v && v % 8 == 0)]
  | 5 => [fld 0x08 8 (fun v => v % 64 == 0), fld 0x10 8 s40ok, fld 0x18 8 s40ok, fld 0x20 1 (inR 0 10), rsv 0x21 3,
      fld 0x24 2 (inR 2 65535), fld 0x26 2 (inR 2 65535), rsv 0x28 8]
  | 6 => [fld 0x08 4 anyV, rsv 0x0C 4, fld 0x10 8 s40ok, fld 0x18 8 s40ok, fld 0x20 8 anyV, fld 0x28 4 (fun v => v % 8 == 0)]
  | 7 => [fld 0x08 2 (inR 0 159), fld 0x0A 1 (inR 0 7), rsv 0x0B 1, rsv 0x0C 4, fld 0x10 8 s40ok, fld 0x18 8 s40ok]
  | 8 => [fld 0x08 2 (inR 0 159), fld 0x0A 1 (inR 0 7), rsv 0x0B 1, fld 0x0C 2 (inR 1 65535), fld 0x0E 2 (inR 1 65535),
      fld 0x10 8 s40ok, fld 0x18 8 s40ok]
  | 9 => (List.range 6).map (coord wide) ++
      [fld (afterCoords wide 6) 1 (inR 0 63), rsv (afterCoords wide 6 + 1) 7]
  | 10 => (List.range 4).map (coord wide) ++
      [fld (afterCoords wide 4) 1 (inR 0 63), rsv (afterCoords wide 4 + 1) 7]
  | 11 => let o := afterCoords wide 2
      (List.range 2).map (coord wide) ++
      [fld o 1 (inR 1 64), fld (o + 1) 1 (inR 1 64), fld (o + 2) 1 (inR 0 63), rsv (o + 3) 1,
       fld (o + 4) 2 (inR 2 4128), rsv (o + 6) 2]
  | _ => []

/-- The cause of the first failing field (R80, test 5). -/
def fieldCause (bs : List Byte) : List RField → Option Nat
  | [] => none
  | f :: t =>
    let v := getU bs f.off f.size
    if f.res then (if v = 0 then fieldCause bs t else some 5)
    else if f.ok v then fieldCause bs t else some 4

/-- Ranges that relate fields: those of a TRAP and a RECT (R86, R87), and the reserved bits of a class word (R83). -/
def relCause (bs : List Byte) (ty : Nat) (wide : Bool) : Option Nat :=
  let c := coordAt bs wide
  match ty with
  | 2 => if (List.range 64).all (fun k => getU bs (8 + 4 * k) 4 / 2 ^ 22 == 0) then none else some 5
  | 9 => if c 0 < c 1 ∧ c 2 ≤ c 4 ∧ c 3 ≤ c 5 then none else some 4
  | 10 => if c 0 < c 2 ∧ c 1 < c 3 then none else some 4
  | _ => none

/-- W·H, CODE_BYTES and the code of a tile record. -/
def tileSize (bs : List Byte) (wide : Bool) : Nat :=
  let o := afterCoords wide 2
  getU bs o 1 * getU bs (o + 1) 1
/-- CODE_BYTES of a tile record. -/
def tileCodeLen (bs : List Byte) (wide : Bool) : Nat := getU bs (afterCoords wide 2 + 4) 2
/-- The code of a tile record. -/
def tileCode (bs : List Byte) (wide : Bool) : List Byte := slice bs (afterCoords wide 2 + 8) (tileCodeLen bs wide)

/-- The defined content of a record, in bytes; padding follows (R76). -/
def contentLen (bs : List Byte) (ty : Nat) (wide : Bool) : Nat :=
  match ty with
  | 4 => 16 + getU bs 0x0C 4
  | 11 => afterCoords wide 2 + 8 + tileCodeLen bs wide
  | _ => (baseLen ty wide).getD 0

/-- WIDE suits where the record stands (R80). -/
def formOk (ty : Nat) (wide nested : Bool) : Bool :=
  if ty == 9 || ty == 10 || ty == 11 then wide == !nested else true

/-- Tests 1–6 and 8–9 of R80 for the record at the head of `bs`, which has `room` bytes to lie in. The relations between fields are
tested after every field, reserved ones included (log entry 157). -/
def leafCause (bs : List Byte) (room : Nat) (nested : Bool) : Option Nat :=
  let ty := recType bs
  let fl := getU bs 1 1
  let wide := fl % 2 == 1
  let prim := ty == 9 || ty == 10 || ty == 11
  if (baseLen ty wide).isNone || (nested && !prim) then some 1
  else if recLen bs < (baseLen ty wide).getD 0 ∨ room < recLen bs then some 2
  else if !recCheckOk bs then some 3
  else if (if prim then fl / 2 else fl) ≠ 0 then some 5
  else if !formOk ty wide nested then some 6
  else
    match fieldCause bs (recFields ty wide) with
    | some c => some c
    | none =>
      match relCause bs ty wide with
      | some c => some c
      | none =>
        if recLen bs < (contentLen bs ty wide + 7) / 8 * 8 ∧ (ty = 4 ∨ ty = 11) then some 2
        else if ty = 11 ∧ (rleDecode (tileCode bs wide) (tileSize bs wide)).isNone then some 7
        else none

/-- Padding is 0 (R80, test 9). -/
def padOk (bs : List Byte) : Bool :=
  let wide := getU bs 1 1 % 2 == 1
  let n := contentLen bs (recType bs) wide
  (firstNonZero 0 (slice bs n (recLen bs - n))).isNone

/-- The nested records of a CELL_DEF body (R80, test 7): the first failing one's offset and cause. -/
def nestedCause (off : Nat) : Nat → List Byte → Option (Nat × Nat)
  | 0, _ => none
  | _, [] => none
  | f + 1, bs =>
    match leafCause bs bs.length true with
    | some c => some (off, c)
    | none =>
      if !padOk bs then some (off, 5)
      else nestedCause (off + recLen bs) f (bs.drop (recLen bs))

/-- The walk of R80 over a region's bytes: the first failing record's offset and cause, or none when it is clean. -/
def walkFuel (off : Nat) : Nat → List Byte → Option (Nat × Nat)
  | 0, _ => none
  | _, [] => none
  | f + 1, bs =>
    match leafCause bs bs.length false with
    | some c => some (off, c)
    | none =>
      let nest := if recType bs = 4 then
          let body := slice bs 16 (getU bs 0x0C 4)
          nestedCause (off + 16) body.length body
        else none
      match nest with
      | some e => some e
      | none => if !padOk bs then some (off, 5) else walkFuel (off + recLen bs) f (bs.drop (recLen bs))

/-- The walker (R80): the failing record's address and cause. -/
def walk (base : Nat) (bs : List Byte) : Option (Nat × Nat) := walkFuel base bs.length bs

/-- The records that lie whole in `bs`, one after another, with their offsets (as a command reads them again). -/
def splitRecs (off : Nat) : Nat → List Byte → List (Nat × List Byte)
  | 0, _ => []
  | f + 1, bs =>
    if bs.length < 8 ∨ recLen bs < 16 ∨ bs.length < recLen bs then []
    else (off, bs.take (recLen bs)) :: splitRecs (off + recLen bs) f (bs.drop (recLen bs))

/-- The bytes left after the whole records. -/
def tailAfter : Nat → List Byte → List Byte
  | 0, bs => bs
  | f + 1, bs =>
    if bs.length < 8 ∨ recLen bs < 16 ∨ bs.length < recLen bs then bs else tailAfter f (bs.drop (recLen bs))

end Sys2Proof.Machine
end

