-- ==== Sys2Proof/Machine/Ecc.lean ====
section
/-! DEFINITION. The job store's symbol correction (R235–R241): address orders, codewords and their errors, and the QoS ports
(R242, R248). -/

namespace Sys2Proof.Machine

/-- S, the size of the job store in bytes (R235). -/
def State.jsSize (s : State) : Nat := 68719476736 * 2 ^ s.fld rMemCfg 0 3

/-- Two byte ranges share a byte. -/
def overlap (a la b lb : Nat) : Bool :=
  decide (a < lb + b) && decide (b < la + a) && decide (0 < la) && decide (0 < lb)

/-! ### Addresses -/

/-- Field widths of Table 11-3: COL, BA, BG, ROW, RANK. -/
def State.memWidths (s : State) : Nat × Nat × Nat × Nat × Nat :=
  (if s.flag rMemCfg 3 then 4 else 5, 2, 3, if s.flag rMemCfg 4 then 17 else 16, if s.flag rMemCfg 5 then 1 else 0)

/-- Where a job-store address lies (R241). -/
structure MemPlace where
  chan : Nat
  sub  : Nat
  rank : Nat
  bg   : Nat
  bank : Nat
  row  : Nat
  col  : Nat
  byte : Nat
deriving DecidableEq, Repr

/-- The place of an address under the configured order (Tables 11-2 and 11-3). -/
def State.memPlace (s : State) (a : Nat) : MemPlace :=
  let (c, ba, bg, ro, ra) := s.memWidths
  let o := s.fld rMemCfg 8 2
  let (pc, pb, pg) :=
    match o with
    | 0 => (11, 11 + c, 11 + c + ba)
    | 1 => (11 + ba + bg, 11, 11 + ba)
    | _ => (11 + bg, 11 + bg + c, 11)
  let r := bits a (11 + c + ba + bg) ro
  let g := bits a pg bg
  let b := bits a pb ba
  ⟨bits a 9 2, bits a 8 1, bits a (11 + c + ba + bg + ro) ra, if o = 3 then g ^^^ bits r 0 3 else g,
    if o = 3 then b ^^^ bits r 3 2 else b, r, bits a pc c, bits a 0 8⟩

/-! ### Positions -/

/-- The position number of MEM_POSCNT_SEL. -/
def memPos (c k u i : Nat) : Nat := 40 * c + 20 * k + 10 * u + i

/-- No count stands at a position, and no error in a beat. -/
def posDefault (_ : Nat) : Nat := 0

/-- Corrected symbols of a position since cold reset. -/
def State.posCount (s : State) (p : Nat) : Nat := storeGet posDefault s.ddr.posCnt p

/-- The failed symbols of a rank and subchannel (R238). -/
def State.failedSyms (s : State) (c k u : Nat) : Nat := s.fld (rMemDevfail (2 * c + k)) (10 * u) 10

/-- A symbol is corrected in correct-one mode (R237, R238). -/
def State.symCorrected (s : State) (c k u i : Nat) : State :=
  let p := memPos c k u i
  let n := satAdd 0xFFFFFFFF (s.posCount p) 1
  let s1 : State := { s with ddr := { s.ddr with posCnt := storePut posDefault s.ddr.posCnt p n,
                                                 corr := updAt s.ddr.corr c (satAdd 0xFFFFFFFF 1) } }
  let s2 := (s1.count (rMemCnt 0) 1).raise (srcMem 0 c)
  if max 1 (s.fld rMemScrub 0 16) ≤ n ∧ !bitAt (s.failedSyms c k u) i then
    ((s2.setFlag (rMemDevfail (2 * c + k)) (10 * u + i) true).count (rMemCnt 6) 1).raise (srcMem 2 c)
  else s2

/-! ### Codewords -/

/-- The ten symbols that a beat's 32 data bits are written as (R236): symbol i is DQ[4i+3:4i], and the check symbols follow. -/
def codeword (w : Nat) : List Nat :=
  let d := (List.range 8).map (fun i => bits w (4 * i) 4)
  d ++ [(rsCheck d).1, (rsCheck d).2]

/-- The data bytes of a codeword. -/
def wordBytes (c : List Nat) : List Byte := leBytes 4 (sumN ((c.take 8).zipIdx.map (fun p => p.1 * 2 ^ (4 * p.2))))

/-- The error that stands in a beat, DQ0 to DQ39. Beat b holds bytes 4b to 4b + 3 (log entry 153). -/
def State.beatErr (s : State) (b : Nat) : Nat := storeGet posDefault s.ddr.errs b

/-- The ten symbols that a read of beat `b` brings. -/
def State.beatRead (s : State) (b : Nat) : List Nat :=
  (codeword (getU (s.memRead (4 * b) 4) 0 4)).zipIdx.map (fun p => p.1 ^^^ bits (s.beatErr b) (4 * p.2) 4)

/-- What the decoder makes of a beat: its symbols, and the symbol that it corrected; or nothing. -/
inductive BeatData where
  | good (syms : List Nat) (fixed : Option Nat)
  | bad
deriving DecidableEq, Repr

/-- A beat decoded with symbol `i` as an erasure (R238): one erasure is always recovered, any further error is uncorrectable. -/
def rsErase (i : Nat) (c : List Nat) : BeatData :=
  match ((List.range 16).map (fun e => updAt c i (fun v => v ^^^ e))).find?
      (fun d => gfEval (gfPow 1) d == 0 && gfEval (gfPow 2) d == 0) with
  | some d => .good d none
  | none => .bad

/-- A beat decoded by the mode of Table 11-1, or by erasure where its rank and subchannel have a failed symbol (R237, R238). -/
def State.beatDecode (s : State) (b : Nat) : BeatData :=
  let m := s.memPlace (4 * b)
  let c := s.beatRead b
  let plain : BeatData := match rsDecode (!s.flag rMemCfg 3) c with
    | .clean => .good c none
    | .corrected i d => .good d (some i)
    | .uncorrectable => .bad
  if s.flag rMemCfg 3 then plain
  else
    match (List.range 10).find? (bitAt (s.failedSyms m.chan m.rank m.sub)) with
    | none => plain
    | some i => rsErase i c

/-! ### Blocks -/

/-- The beats of a block in which an error stands. -/
def State.errBeats (s : State) (blk : Nat) : List Nat :=
  (s.ddr.errs.map (·.1)).filter (fun b => decide (blk ≤ 4 * b) && decide (4 * b < blk + 64))

/-- The blocks with an error that a range touches, in ascending order. -/
def State.errBlocks (s : State) (a n : Nat) : List Nat :=
  ((s.ddr.errs.map (fun e => e.1 / 16 * 64)).filter (fun b => overlap b 64 a n)).eraseDups

/-- A beat is read (R237, R238): a corrected symbol counts, and a mark that it brings stands for the next beat; and whether a beat so far was
uncorrectable. -/
def State.readBeat (q : State × Bool) (b : Nat) : State × Bool :=
  match q.1.beatDecode b with
  | .bad => (q.1, true)
  | .good _ none => q
  | .good _ (some i) =>
    let m := q.1.memPlace (4 * b)
    (q.1.symCorrected m.chan m.rank m.sub i, q.2)

/-- A block is read, beat by beat (R237–R239): each corrected symbol counts, and a block with a beat that the decoder cannot correct is
uncorrectable from now on. -/
def State.readBlock (s : State) (blk : Nat) : State :=
  let (t, bad) := (s.errBeats blk).foldl State.readBeat (s, false)
  if !bad || t.ddr.bad.contains blk then t else { t with ddr := { t.ddr with bad := t.ddr.bad ++ [blk] } }

/-- Every block that a range touches is read. -/
def State.readBlocks (s : State) (a n : Nat) : State := (s.errBlocks a n).foldl State.readBlock s

/-- The data of a range as the decoder delivers it: errors in two or more symbols of a beat may be miscorrected (R237). -/
def State.jsRead (s : State) (a n : Nat) : List Byte :=
  let lo := a / 4 * 4
  let fix (l : List Byte) (b : Nat) : List Byte := match s.beatDecode b with
    | .good c _ => patch l (4 * b - lo) (wordBytes c)
    | .bad => l
  match (s.ddr.errs.map (·.1)).filter (fun b => overlap (4 * b) 4 a n) with
  | [] => s.memRead a n
  | bs => slice (bs.foldl fix (s.memRead lo ((a + n + 3) / 4 * 4 - lo))) (a - lo) n

/-- Errors that have come up in the DRAM since the last command: flipped bits of beats. -/
def State.newErrs (s : State) (l : List (Nat × Nat)) : State :=
  l.foldl (fun t f =>
    if 4 * f.1 < t.jsSize then
      { t with ddr := { t.ddr with errs := storePut posDefault t.ddr.errs f.1 (t.beatErr f.1 ^^^ f.2 % 2 ^ 40) } }
    else t) s

/-- No error stands in a block: it has been encoded anew. -/
def State.encodeBlock (s : State) (blk : Nat) : State :=
  { s with ddr := { s.ddr with errs := s.ddr.errs.filter (fun e => !(decide (blk ≤ 4 * e.1) && decide (4 * e.1 < blk + 64))) } }

/-- A block is written back as the decoder delivered it: `s` is the state that was read, `t` the one after the read. -/
def State.rewriteOver (s t : State) (blk : Nat) : State := (t.memWrite blk (s.jsRead blk 64)).encodeBlock blk

/-- The blocks that a write covers in part. -/
def partBlocks (a n : Nat) : List Nat :=
  if n = 0 then []
  else
    let first := if a % 64 = 0 ∧ 64 ≤ n then [] else [a / 64 * 64]
    let last := if (a + n) % 64 = 0 ∨ (a + n) / 64 * 64 = a / 64 * 64 then [] else [(a + n) / 64 * 64]
    first ++ last

/-- The reads of a write's read-modify-write blocks; those that decode are encoded anew (R239). -/
def State.readPartial (s : State) (a n : Nat) : State :=
  (partBlocks a n).foldl (fun t b =>
    if (t.errBeats b).isEmpty then t
    else
      let u := t.readBlock b
      if u.ddr.bad.contains b then u else t.rewriteOver u b) s

/-! ### Ports -/

/-- The channels that a range touches (R241). -/
def chansOf (r : Nat × Nat) : List Nat :=
  (List.range 4).filter (fun c => (List.range 5).any (fun k =>
    (r.1 / 512 + k) % 4 == c && decide ((r.1 / 512 + k) * 512 < r.1 + r.2)) && decide (0 < r.2))

/-- The urgency of a request of port `p` and an age in ns (R242); a TARGET of 0 is taken as 1. -/
def State.urgency (s : State) (p age : Nat) : Nat := min 255 (256 * age / max 1 (s.fld (rMemQos p) 12 20))

/-- The age of a request, in ns. -/
def State.reqAge (s : State) (r : MemReq) : Nat := (s.tim.elapsed - r.since) / 65536

/-- Request `r` is served before request `q` (R242): the higher urgency, then the older, then the lower port. -/
def State.servedBefore (s : State) (r q : MemReq) : Bool :=
  let ur := s.urgency r.port (s.reqAge r)
  let uq := s.urgency q.port (s.reqAge q)
  decide (uq < ur) || (ur == uq && (decide (r.since < q.since) || (r.since == q.since && decide (r.port < q.port))))

/-- The request of a port that waits at a channel, or a new one. -/
def State.reqOf (s : State) (p c : Nat) : MemReq :=
  (s.ddr.reqs.find? (fun r => r.port == p && r.chan == c)).getD ⟨p, c, s.tim.elapsed⟩

/-- An eye scan has the channel closed to every port (R248); of several, the first decided is under way. -/
def State.memClosed (s : State) (c : Nat) : Bool :=
  match s.ddr.eye with
  | [] => false
  | e :: _ => e.chan == c

/-- A request of port `p` for some ranges has to wait: a channel is closed, or serves another first (R242, R248). -/
def State.portWaits (s : State) (p : Nat) (rs : List (Nat × Nat)) : Bool :=
  (rs.flatMap chansOf).any (fun c => s.memClosed c || s.ddr.reqs.any (fun r => r.chan == c && r.port != p && s.servedBefore r (s.reqOf p c)))

/-- The port's requests for some ranges wait from now on. -/
def State.portAsks (s : State) (p : Nat) (rs : List (Nat × Nat)) : State :=
  { s with ddr := { s.ddr with reqs := s.ddr.reqs.filter (fun r => r.port != p) ++ ((rs.flatMap chansOf).eraseDups).map (s.reqOf p) } }

/-- The port has no request waiting. -/
def State.portServed (s : State) (p : Nat) : State :=
  { s with ddr := { s.ddr with reqs := s.ddr.reqs.filter (fun r => r.port != p) } }

end Sys2Proof.Machine
end

