-- ==== Sys2Proof/Machine/Layout.lean ====
section
/-! DEFINITION. The job store's bounds and readers (R239, R251), the residency table (R22, R60), and what JOB_OPEN and
STRIPE_ADMIT test (R61–R65, R79–R84, R93, R94, R108). -/

namespace Sys2Proof.Machine

/-! ### The job store -/

/-- The first byte of the part area, the last 67,108,864 bytes of the job store (R251): S is a multiple of that size, which is how the
difference is written. -/
def State.partArea (s : State) : Nat := 67108864 * (1024 * 2 ^ s.fld rMemCfg 0 3 - 1)

/-- The job store serves uploads (R36, R249). -/
def State.memReady (s : State) : Bool := s.flag rMemStat 31

/-- A job-store address whose range has the fixed length `len` (R251). -/
def State.fJs (s : State) (off len : Nat) : PField :=
  ⟨off, 8, fun a => decide (a < s.jsSize) && decide (a + len ≤ s.jsSize)⟩

/-- A job-store address with a length field of the command (R251). -/
def State.fJsLen (s : State) (pk : Packet) (off lenOff lenSize : Nat) : List PField :=
  [⟨off, 8, fun a => decide (a < s.jsSize)⟩,
   ⟨lenOff, lenSize, fun l => decide (pkU pk off 8 + l ≤ s.jsSize)⟩]

/-- JOB_OPEN (Table 3-6); JOB is compared with the open jobs by R61, at this step. -/
def State.fJobOpen (s : State) (pk : Packet) : List PField :=
  ⟨0x20, 4, fun v => !(v == 0) && !(s.lay.jobs.any (fun j => j.id == v))⟩ :: s.fJsLen pk 0x28 0x30 8

/-- STRIPE_ADMIT (Table 3-6), with FX_STRIPE's reserved WAIT_US where `fx`. -/
def State.fStripeAdmit (s : State) (pk : Packet) (fx : Bool) : List PField :=
  [anyField 0x20 4, anyField 0x24 4, ⟨0x28, 1, fun v => decide (v < 16)⟩, anyField 0x2A 2, anyField 0x2C 4] ++
    s.fJsLen pk 0x30 0x38 8 ++ (if fx then [] else [⟨0x40, 4, fun v => decide (v ≤ 1000000)⟩])

/-- UPLOAD (Table 3-6, R251): JS_ADDR aligned to 64, LEN a multiple of 64 from 64 bytes to 4 GiB. -/
def State.fUpload (s : State) (pk : Packet) : List PField :=
  [anyField 0x20 8, ⟨0x28, 8, fun v => v % 64 == 0 && decide (v < s.jsSize)⟩,
   ⟨0x30, 8, fun v => v % 64 == 0 && decide (64 ≤ v) && decide (v ≤ 4294967296) &&
     decide (pkU pk 0x28 8 + v ≤ s.jsSize)⟩, anyField 0x38 4]

/-- The lowest uncorrectable block of a range (R239). -/
def State.badBlock (s : State) (a n : Nat) : Option Nat :=
  (s.ddr.bad.filter (fun b => overlap b 64 a n)).foldl (fun m b => match m with
    | none => some b
    | some x => some (min x b)) none

/-- An uncorrectable read (R239): MEM_UNCORR is raised for the block's channel, and the block is latched in MEM_ERRA. -/
def State.memUncorr (s : State) (blk : Nat) : State :=
  let c := bits blk 9 2
  let s1 := (s.wr rMemErraLo (blk / 64 * 64 % 2 ^ 32)).wr rMemErraHi (2 ^ 31 + blk / 2 ^ 32 % 128) |>.hwSet rMemErraHi (2 ^ 31) 0
  let s2 := { s1 with ddr := { s1.ddr with uncorr := updAt s1.ddr.uncorr c (satAdd 0xFFFFFFFF 1) } }
  (s2.count (rMemCnt 1) 1).raise (srcMem 1 c)

/-- A full write of blocks encodes them anew, and makes them correctable again (R236, R239). -/
def State.healBlocks (s : State) (a n : Nat) : State :=
  let whole (b : Nat) : Bool := decide (a ≤ b) && decide (b + 64 ≤ a + n)
  { s with ddr := { s.ddr with bad := s.ddr.bad.filter (fun b => !whole b), errs := s.ddr.errs.filter (fun e => !whole (e.1 / 16 * 64)) } }

/-- The first partly covered uncorrectable block of a write, which makes it fail (R239). -/
def State.partialBad (s : State) (a n : Nat) : Option Nat :=
  (s.ddr.bad.filter (fun b => overlap b 64 a n && !(decide (a ≤ b) && decide (b + 64 ≤ a + n)))).head?

/-- Whole blocks are written (UPLOAD, COMPRESS, CHECK_READ, EYE_SCAN). -/
def State.storeWrite (s : State) (a : Nat) (bs : List Byte) : State := (s.memWrite a bs).healBlocks a bs.length

/-- REFUSED_RESIDENCY, NOT_RESIDENT, naming a 64-byte block counted from `base` (Table 3-5). -/
def notResident (base a : Nat) : Reply := .refuse 0x11 1 ((a - base) / 64) 0

/-- A command's accesses to the job store pass their ports (R242, R248): where one has to wait, its request stands at its channels, and the
packet is decided anew (log entry 164). -/
def State.throughPorts (s : State) (pk : Packet) (l : List (Nat × Nat × Nat)) (f : State → State) : State :=
  match l.find? (fun q => s.portWaits q.1 [q.2]) with
  | some q => (s.portAsks q.1 [q.2]).untake pk
  | none => f (l.foldl (fun t q => t.portServed q.1) s)

/-- A read of `n` bytes at `a` for a command whose blocks count from `base`: on an uncorrectable block it refuses (R239). -/
def State.readChecked (s : State) (pk : Packet) (base a n : Nat) (f : State → List Byte → State) : State :=
  let t := s.readBlocks a n
  match t.badBlock a n with
  | some b => (t.memUncorr b).complete pk (notResident base (max b base))
  | none => f t (s.jsRead a n)

/-- A read for a command through port `p`. -/
def State.movementRead (s : State) (pk : Packet) (p base a n : Nat) (f : State → List Byte → State) : State :=
  s.throughPorts pk [(p, a, n)] fun t => t.readChecked pk base a n f

/-! ### The residency table -/

/-- The region that holds a byte. -/
def State.regionAt (s : State) (a : Nat) : Option Region :=
  s.lay.regions.find? (fun r => decide (r.base ≤ a) && decide (a < r.base + r.len))

/-- The first byte of a range that no region covers. The walk takes at most one step per region. -/
def State.firstHole (s : State) (a stop : Nat) : Nat → Option Nat
  | 0 => if a < stop then some a else none
  | k + 1 =>
    if stop ≤ a then none
    else
      match s.regionAt a with
      | none => some a
      | some r => s.firstHole (r.base + r.len) stop k

/-- The first byte of `n` at `a` that is not resident. -/
def State.notCovered (s : State) (a n : Nat) : Option Nat := s.firstHole a (a + n) s.lay.regions.length

/-- The covering region of lowest address that is not clean. -/
def State.unclean (s : State) (a n : Nat) : Option Region :=
  (s.lay.regions.filter (fun r => overlap r.base r.len a n && decide (r.cause ≠ 0))).foldl (fun m r => match m with
    | none => some r
    | some x => if r.base < x.base then some r else some x) none

/-- A region holds data of an admitted stripe that has not completed (R22), or its map (R94). An admission that waits in test 5 counts
from its decision (R66, log entry 79). -/
def State.pinnedRegion (s : State) (r : Region) : Bool :=
  (s.lay.stripes ++ s.lay.waiting.map (·.stripe)).any (fun x => overlap r.base r.len x.data x.len ||
    (match x.map with | some m => overlap r.base r.len m.addr (2 * m.nx * m.ny) | none => false))

/-- The table entry of the first pinned region that a range overlaps: entries are numbered in the order they were made
(log entry 24). -/
def State.pinnedEntry (s : State) (a n : Nat) : Option Nat :=
  let rec go (i : Nat) : List Region → Option Nat
    | [] => none
    | r :: t => if overlap r.base r.len a n && s.pinnedRegion r then some i else go (i + 1) t
  go 0 s.lay.regions

/-- Every region that a range overlaps is removed whole (R60). -/
def State.removeRegions (s : State) (a n : Nat) : State :=
  { s with lay := { s.lay with regions := s.lay.regions.filter (fun r => !overlap r.base r.len a n) } }

/-- A region is entered (R60). -/
def State.enterRegion (s : State) (r : Region) : State :=
  { s with lay := { s.lay with regions := s.lay.regions ++ [r] } }

/-- Why a destination is refused (R22, R60, R251), and none when it may be written. -/
def State.destRefused (s : State) (a n : Nat) : Option Reply :=
  if overlap a n s.partArea 67108864 then some (.refuse 0x11 4 0xFFFFFF 0)
  else
    match s.pinnedEntry a n with
    | some i => some (.refuse 0x11 4 i 0)
    | none =>
      if 4096 ≤ (s.lay.regions.filter (fun r => !overlap r.base r.len a n)).length then some (.refuse 0x11 8 0 0) else none

/-- The bytes `bs` become one resident region at `a` (R60). A region that no walker reads clean has cause TYPE at its first
byte. A region that COMPRESS or EYE_SCAN makes is walked as one of UPLOAD is (log entry 158). -/
def State.resident (s : State) (a : Nat) (bs : List Byte) : State :=
  let s1 := (s.removeRegions a bs.length).storeWrite a bs
  match walk a bs with
  | none => s1.enterRegion ⟨a, bs.length, 0, 0⟩
  | some (at_, c) => s1.enterRegion ⟨a, bs.length, c, at_⟩

/-- The bytes `bs` become one resident region at `a` and the command replies `ok`; a destination that can no longer be written when
they come is refused like one at the decision (log entry 154). -/
def State.residentReply (s : State) (pk : Packet) (a : Nat) (bs : List Byte) (ok : Reply) : State :=
  match s.destRefused a bs.length with
  | some r => s.complete pk r
  | none => (s.resident a bs).complete pk ok

/-- Engine 1 has failed a check (R213). -/
def State.rle1Fail (s : State) : State := (s.count (rRleCnt 3) 1).raise srcRle1Verify

/-! ### JOB_OPEN -/

/-- RECORD_CHECK: the name, and in RBUF the failing record's address and cause (R81). -/
def recordCheck (name at_ cause : Nat) : Reply :=
  ⟨0x11, 3 * 2 ^ 24 + name, 0, leBytes 8 at_ ++ leBytes 4 cause ++ zeros 4, 1, false⟩

/-- The name of the record number `i` of a job part whose head is `bs` (R81). -/
def jobRecName (i ncell : Nat) (bs : List Byte) : Nat :=
  if i = 0 then 0xFFFF00
  else if i = 1 then 0xFFFF01
  else if i = 2 then 0xFFFF02
  else if i < 3 + ncell ∧ recType bs = 4 then getU bs 8 2
  else 0xFFFF03

/-- The name of the record of a job part at or around an address (R81), from the bytes of the part and those after it; outside the
range it is 0xFF_FFFD. A record that HDR_LEN ends inside holds its bytes up to there. -/
def jobNameAt (hdr len : Nat) (bs : List Byte) (at_ : Nat) : Nat :=
  if at_ < hdr ∨ hdr + len ≤ at_ then 0xFFFFFD
  else
    let ncell := getU bs 0x14 2
    let recs := splitRecs hdr bs.length bs
    let before := recs.filter (fun p => decide (p.1 ≤ at_))
    let past := match recs.getLast? with | some p => p.1 + p.2.length | none => hdr
    let inside := before.any (fun p => decide (at_ < p.1 + p.2.length))
    let i := if inside then before.length - 1 else before.length
    let start :=
      if inside then (match before.getLast? with | some p => p.1 | none => hdr)
      else if past ≤ at_ ∧ at_ < past + recLen (bs.drop (past - hdr)) then past else at_
    jobRecName i ncell (bs.drop (start - hdr))

/-- The bytes that one nested record of a cell takes in its context (R84, R383): a tile is its header of 24 bytes unchanged,
its decoded bytes, and zeros up to a multiple of 8. -/
def loadRec (bs : List Byte) : List Byte :=
  if recType bs = 11 then
    let px := (rleDecode (tileCode bs false) (tileSize bs false)).getD []
    slice bs 0 24 ++ px ++ zeros ((8 - px.length % 8) % 8)
  else bs.take (recLen bs)

/-- Bounds of a cell-form record: lowest x and y, highest x and y, for a pitch. -/
def recBox (bs : List Byte) (pitch : Nat) : Int × Int × Int × Int :=
  let c := coordAt bs false
  match recType bs with
  | 9 => (min (c 2) (c 3), c 0, max (c 4) (c 5), c 1)
  | 10 => (c 0, c 1, c 2, c 3)
  | _ => (c 0, c 1, c 0 + getU bs 16 1 * pitch, c 1 + getU bs 17 1 * pitch)

/-- The nested records of a CELL_DEF. -/
def nestedRecs (off : Nat) (bs : List Byte) : List (Nat × List Byte) :=
  let body := slice bs 16 (getU bs 0x0C 4)
  splitRecs (off + 16) body.length body

/-- The first nested record that a cell may not hold: a tile off the pixel grid (ALIGN), or one that the decoder fails by
erratum A0-03 (TILE_CODE). -/
def badNested (pitch : Nat) : List (Nat × List Byte) → Option (Nat × Nat)
  | [] => none
  | (o, bs) :: t =>
    if recType bs = 11 then
      if coordAt bs false 0 % pitch ≠ 0 ∨ coordAt bs false 1 % pitch ≠ 0 then some (o, 12)
      else if lastRun130 (tileCode bs false) then some (o, 7)
      else badNested pitch t
    else badNested pitch t

/-- The cell of a CELL_DEF, as JOB_OPEN loads it (R84). -/
def loadCell (pitch : Nat) (off : Nat) (bs : List Byte) : Cell :=
  let ns := (nestedRecs off bs).map (·.2)
  let boxes := ns.map (fun r => recBox r pitch)
  let b0 := boxes.headD (0, 0, 0, 0)
  let box := boxes.foldl (fun (a : Int × Int × Int × Int) b =>
    (min a.1 b.1, min a.2.1 b.2.1, max a.2.2.1 b.2.2.1, max a.2.2.2 b.2.2.2)) b0
  ⟨getU bs 8 2, (ns.map loadRec).flatten, box.1, box.2.1, box.2.2.1, box.2.2.2,
    ns.any (fun r => recType r == 9 || recType r == 11), ns.any (fun r => recType r == 11)⟩

/-- The checks of R84 over the CELL_DEFs in order: the failing name, address and cause. Each one's CONTEXT, then its nested records,
then its size are tested before the next CELL_DEF (log entry 160). -/
def cellCause (pitch : Nat) (seen : List Nat) : List (Nat × List Byte) → Option (Nat × Nat × Nat)
  | [] => none
  | (o, bs) :: t =>
    let ctx := getU bs 8 2
    if seen.contains ctx then some (ctx, o, 1)
    else
      match badNested pitch (nestedRecs o bs) with
      | some (a, c) => some (ctx, a, c)
      | none => if 65536 < (loadCell pitch o bs).bytes.length then some (ctx, o, 11) else cellCause pitch (ctx :: seen) t

/-- KIND, M, CHANNELS and PIXELS of a JOB_HDR agree (R82, Table 4-4). -/
def hdrAgrees (h : List Byte) : Bool :=
  let m := getU h 9 1
  let ch := getU h 0x0B 1
  let px := getU h 0x10 4
  if getU h 8 1 = 0 then decide (m ≠ 0) && ch == 0 && px == 0 else m == 0 && decide (ch ≠ 0) && decide (px ≠ 0)

/-- The layout of R79 and the checks of R82: the failing name, address and cause, for the records `rs` of a job part `bs`. A record
that HDR_LEN ends inside is read on from `past`, the bytes after the part; its TYPE is tested before its length (log entry 128). -/
def jobLayout (hdr : Nat) (bs past : List Byte) (rs : List (Nat × List Byte)) : Option (Nat × Nat × Nat) :=
  let ncell := getU (bs ++ past) 0x14 2
  let tail := tailAfter bs.length bs
  let cut := hdr + bs.length - tail.length
  let want (i : Nat) (r : List Byte) : Bool :=
    if i = 0 then recType r == 1 else if i = 1 then recType r == 2 else if i = 2 then recType r == 3
    else decide (i < 3 + ncell) && recType r == 4
  let rec go (i : Nat) : List (Nat × List Byte) → Option (Nat × Nat × Nat)
    | [] => none
    | (o, r) :: t => if want i r then go (i + 1) t
      else some (if i = 0 then 0xFFFF00 else if i = 1 then 0xFFFF01 else if i = 2 then 0xFFFF02 else 0xFFFF03, o, 1)
  match go 0 (if tail.isEmpty then rs else rs ++ [(cut, tail ++ past)]) with
  | some e => some e
  | none =>
    if !tail.isEmpty then some (jobRecName rs.length ncell (tail ++ past), cut, 2)
    else if rs.length < 3 + ncell ∨ !hdrAgrees bs then some (0xFFFF00, hdr, 13)
    else none

/-- The first record of a list whose CHECK fails when it is read again. -/
def checkFails (rs : List (Nat × List Byte)) : Option Nat := (rs.find? (fun p => !recCheckOk p.2)).map (·.1)

/-- The job that a job part describes. -/
def jobFrom (id : Nat) (rs : List (Nat × List Byte)) : Job :=
  let rec0 := (rs.getD 0 (0, [])).2
  let rec1 := (rs.getD 1 (0, [])).2
  let rec2 := (rs.getD 2 (0, [])).2
  let p := getU rec0 0x0C 4
  ⟨id, getU rec0 8 1 == 1, getU rec0 9 1, getU rec0 0x0A 1, getU rec0 0x0B 1, p, getU rec0 0x10 4,
    (List.range 64).map (fun k => getU rec1 (8 + 4 * k) 4), (List.range 4).map (fun k => getU rec2 (8 + k) 1),
    (rs.drop 3).map (fun c => loadCell p c.1 c.2)⟩

/-- A job enters the table, which holds two (R61): JOB_OPEN refuses one more before this. -/
def State.pushJob (s : State) (j : Job) : State := { s with lay := { s.lay with jobs := (s.lay.jobs ++ [j]).take 2 } }

/-- JOB_OPEN, once its parameters stand (R61, R81). MEM_NOT_READY (R249) stands after JOBS_OPEN and before residency (log entry 159).
Its tile decodes count only where they fail (log entry 161). -/
def State.jobOpen (s : State) (pk : Packet) : State :=
  let hdr := pkU pk 0x28 8
  let len := pkU pk 0x30 8
  match s.lay.jobs with
  | a :: _ :: _ => s.complete pk (.refuse 0x10 5 0 a.id)
  | _ =>
    if s.ddr.badTemp.any id then s.complete pk (.refuse 0x11 5 0 0)
    else
    match s.notCovered hdr len with
    | some h => s.complete pk (notResident hdr h)
    | none =>
      match s.unclean hdr len with
      | some r => s.complete pk (recordCheck (jobNameAt hdr len (s.jsRead hdr (len + 32)) r.failAt) r.failAt r.cause)
      | none =>
        s.throughPorts pk [(4, hdr, min len 312), (0, hdr + 312, len - 312)] fun s => s.readChecked pk hdr hdr len fun s bs =>
          let rs := splitRecs hdr bs.length bs
          let past := s.jsRead (hdr + len) 32
          match checkFails rs with
          | some o => s.complete pk (.refuse 0x11 2 ((o - hdr) / 64) 0)
          | none =>
            if recType (bs ++ past) = 1 ∧ (getU (bs ++ past) 8 1 == 1) ≠ s.scnPort then s.complete pk (.badParam 0x28)
            else
              match jobLayout hdr bs past rs with
              | some (n, a, c) => s.complete pk (recordCheck n a c)
              | none =>
                match cellCause (getU bs 0x0C 4) [] (rs.drop 3) with
                | some (n, a, c) => (if c = 7 then s.rle1Fail else s).complete pk (recordCheck n a c)
                | none =>
                  let j := jobFrom (pkU pk 0x20 4) rs
                  match j.cells.find? (fun c => s.lay.jobs.any (fun o => o.cells.any (fun d => d.ctx == c.ctx))) with
                  | some c => s.complete pk (.refuse 0x11 6 c.ctx ((s.lay.jobs.headD j).id))
                  | none => (s.pushJob j).complete pk (.ok j.cells.length)

/-! ### STRIPE_ADMIT -/

/-- The records of a stripe part that admission reads: its BIN records with their addresses, its MAP_REF, and the address of
its END. -/
structure StripePart where
  bins  : List (Nat × List Byte)
  map   : Option (Nat × List Byte)
  endAt : Nat

/-- The BIN records at the head of `bs`; the first record always counts as one. -/
def binRecs (off : Nat) (first : Bool) : Nat → List Byte → List (Nat × List Byte)
  | 0, _ => []
  | f + 1, bs =>
    if bs.length < 8 ∨ recLen bs < 16 ∨ bs.length < recLen bs ∨ (!first ∧ recType bs ≠ 6) then []
    else (off, bs.take (recLen bs)) :: binRecs (off + recLen bs) false f (bs.drop (recLen bs))

/-- The address after the last of some records. -/
def recsEnd (base : Nat) (rs : List (Nat × List Byte)) : Nat :=
  match rs.getLast? with
  | some p => p.1 + p.2.length
  | none => base

/-- The stripe part at `base` (R79). -/
def stripePart (base : Nat) (bs : List Byte) : StripePart :=
  let bins := binRecs base true bs.length bs
  let a := recsEnd base bins
  let rest := bs.drop (a - base)
  let map := if recType rest = 5 ∧ 16 ≤ recLen rest ∧ recLen rest ≤ rest.length then some (a, rest.take (recLen rest)) else none
  let e := match bins.getLast? with
    | some p => base + getU p.2 0x20 8 + getU p.2 0x28 4
    | none => base
  ⟨bins, map, e⟩

/-- The movement's reads of some records (R237). -/
def State.readRecs (s : State) (l : List (Nat × List Byte)) : State := l.foldl (fun t q => t.readBlocks q.1 q.2.length) s

/-- The END record's bytes, read whole where DATA_LEN ends inside it; none where it would begin outside the range. -/
def State.endRec (s : State) (p : StripePart) (base len : Nat) : List Byte :=
  if p.endAt < base ∨ base + len ≤ p.endAt then []
  else s.jsRead p.endAt (recLen (s.jsRead p.endAt 8))

/-- The name of a record of a stripe part by its address (R81): `bs` are the bytes of the part, `er` those of END. The record at DATA_ADDR is
BIN 0, whatever it holds. A record before the first body that is not one of the BIN records found stands in MAP_REF's place where it is one, or
where no BIN record fits between it and the first body; else in that of the next BIN (log entry 181). -/
def stripeNameAt (base len : Nat) (bs er : List Byte) (p : StripePart) (at_ : Nat) : Nat :=
  if at_ = base then 0
  else if at_ < base ∨ base + len ≤ at_ ∨ (p.endAt + max 16 er.length ≤ at_ ∧ 0 < er.length) then 0xFFFFFD
  else
    let body (q : Nat × List Byte) : Bool :=
      decide (base + getU q.2 0x20 8 ≤ at_) && decide (at_ < base + getU q.2 0x20 8 + getU q.2 0x28 4)
    match p.bins.findIdx? (fun q => decide (q.1 ≤ at_) && decide (at_ < q.1 + q.2.length)) with
    | some i => i
    | none =>
      match p.bins.findIdx? body with
      | some i => i
      | none =>
        let next := recsEnd base p.bins
        let first := base + getU (p.bins.headD (0, [])).2 0x20 8
        let isMap := recType (bs.drop (next - base)) == 5 && decide (next ≤ at_) &&
          decide (at_ < next + max 8 (recLen (bs.drop (next - base))))
        if isMap || (decide (at_ < first) && decide (first < next + 304)) then 0xFFFFFE
        else if at_ < first then p.bins.length
        else 0xFFFFFF

/-- W of a stripe (R94): 512·M pixels, or PIXELS. -/
def Job.width (j : Job) : Nat := if j.scan then j.pixels else 512 * j.m

/-- The checks of R93 that a BIN fails, given what it must be: index, X0, Y_BIN and OFFSET. -/
def binBad (j : Job) (i : Nat) (x0 y : Int) (off : Nat) (r : List Byte) : Bool :=
  !(recType r == 6) || decide (getU r 8 4 ≠ i) || decide (getS r 0x10 8 ≠ x0) || decide (getS r 0x18 8 ≠ y) ||
  decide (getU r 0x20 8 ≠ off) || (j.scan && decide (getU r 0x2C 4 ≠ 0))

/-- The first BIN that breaks R93, from index `i` on. -/
def binsBad (j : Job) (x0 : Int) (i : Nat) (y : Int) (off : Nat) : List (Nat × List Byte) → Option (Nat × Nat)
  | [] => none
  | (a, r) :: t => if binBad j i x0 y off r then some (i, a)
    else binsBad j x0 (i + 1) (y + 64 * j.pitch) (off + getU r 0x28 4) t

/-- EDGES[i] of a BIN. -/
def binEdge (r : List Byte) (i : Nat) : Nat := getU r (0x30 + 4 * i) 4

/-- The first BIN with an edge event in a line at or beyond `from_` (R93). -/
def runoutBad (from_ : Nat) : Nat → List (Nat × List Byte) → Option (Nat × Nat)
  | _, [] => none
  | i, (a, r) :: t =>
    if (List.range 64).any (fun k => decide (from_ ≤ 64 * i + k) && decide (binEdge r k ≠ 0)) then some (i, a)
    else runoutBad from_ (i + 1) t

/-- The structure tests of R93 and R94 (test 1 (e)): the name, address and cause of what fails. -/
def stripeStructure (j : Job) (base len : Nat) (p : StripePart) (er : List Byte) : Option (Nat × Nat × Nat) :=
  let r0 := (p.bins.headD (0, [])).2
  let x0 := getS r0 0x10 8
  let y0 := getS r0 0x18 8
  let lines := getU er 8 4
  let nbin := getU er 0x0C 4
  let afterMap := match p.map with | some m => m.1 + m.2.length | none => recsEnd base p.bins
  let live := lines - 512 * j.m
  match binsBad j x0 0 y0 (afterMap - base) p.bins with
  | some (i, a) => some (i, a, 8)
  | none =>
    if p.bins.isEmpty then some (0, base, 8)
    else if !(recType er == 12) || decide (p.endAt + er.length ≠ base + len) || decide (nbin ≠ p.bins.length) ||
        decide (nbin ≠ ceilDiv lines 64) || (!j.scan && decide (lines ≤ 512 * j.m)) ||
        (j.scan && (decide (lines = 0) || decide (lines % j.chans ≠ 0))) then some (0xFFFFFF, p.endAt, 8)
    else
      match if j.scan then none else runoutBad live 0 p.bins with
      | some (i, a) => some (i, a, 9)
      | none =>
        match p.map with
        | none => none
        | some (a, m) =>
          let q : Int := j.pitch * 2 ^ getU m 0x20 1
          let mx := getS m 0x10 8
          let my := getS m 0x18 8
          if mx ≤ x0 ∧ x0 + j.width * j.pitch ≤ mx + (getU m 0x24 2 - 1) * q ∧
             my ≤ y0 ∧ y0 + lines * j.pitch ≤ my + (getU m 0x26 2 - 1) * q then none
          else some (0xFFFFFE, a, 10)

/-- The MAP_REF as the stripe keeps it. -/
def mapRef (m : List Byte) : MapRef :=
  ⟨getU m 0x08 8, getS m 0x10 8, getS m 0x18 8, getU m 0x20 1, getU m 0x24 2, getU m 0x26 2⟩

/-- The highest shot rate at the lane rate (Table 3-7). -/
def rateCap (laneRate : Nat) : Nat := [800000, 735000, 588000, 294000].getD laneRate 294000

/-- The highest line rate of a SCAN job (R108). -/
def scanCap (j : Job) : Nat := min 400000 (1000000000 / max (j.chans * j.pixels / 16) (100 + 5 * j.pixels))

/-- Test 2 of R62: none where it passes, else the highest RATE allowed. -/
def State.rateRefused (s : State) (j : Job) (f : Nat) : Option Nat :=
  let cap := if j.scan then scanCap j else rateCap (s.fld rBalCfg 0 2)
  if (if j.scan then 1000 else 50000) ≤ f ∧ f ≤ cap then none else some cap

/-- The busiest line of a BIN; in SCAN the busiest interval (R63). -/
def binLoad (j : Job) (r : List Byte) : Nat :=
  let ch := if j.scan then j.chans else 1
  ((List.range (64 / ch)).map (fun i => sumN ((List.range ch).map (fun k => binEdge r (ch * i + k))))).foldl max 0

/-- Test 3 of R62: the first BIN above the budget, and the highest RATE that the whole stripe allows. -/
def edgeRefused (j : Job) (f : Nat) (bins : List (Nat × List Byte)) : Option (Nat × Nat) :=
  let loads := bins.map (fun b => binLoad j b.2)
  match loads.findIdx? (fun e => decide (4 * (1000000000 / f) < e)) with
  | none => none
  | some i => some (i, 1000000000 / ceilDiv (loads.foldl max 0) 4)

/-- Test 4 of R62: the first window of `w` BINs above 64 MiB, and its bytes. -/
def windowRefused (w i : Nat) : List Nat → Option (Nat × Nat)
  | [] => none
  | x :: t =>
    let total := sumN ((x :: t).take w)
    if 67108864 < total then some (i, total)
    else if (x :: t).length ≤ w then none else windowRefused w (i + 1) t

/-- The slot of a kind that holds a generation, if any. -/
def State.slotOf (s : State) (kind gen : Nat) : Option Nat :=
  if gen = 0 then none
  else [2 * kind, 2 * kind + 1].find? (fun n => decide (s.slotState n ≠ 0) && s.genAt n == gen)

/-- Test 6 and the admission itself (R62, R65): the stripe enters the table with a handle, which is never 0. -/
def State.admitStripe (s : State) (pk : Packet) (x : Stripe) (after : State → Packet → Nat → State) : State :=
  if s.jobOf x.job = none then s.complete pk (.refuse 0x11 7 0 0)
  else if 8 ≤ s.lay.stripes.length then s.complete pk (.refuse 0x10 4 0 0)
  else
    let h := if s.lay.handles % 2 ^ 32 = 0xFFFFFFFF then 1 else s.lay.handles % 2 ^ 32 + 1
    let rb := s.now40 + 1000000 * 2 ^ 40
    let s1 := { s with lay := { s.lay with stripes := s.lay.stripes ++ [{ x with handle := h, readyBy := rb }], handles := h } }
    after s1 pk h

/-- The reply of an admission (Table 3-4, R65): the handle, the lead in µs, and the TIME ready-by. -/
def State.admitReply (s : State) (pk : Packet) (h : Nat) : State :=
  match s.stripeOf h with
  | none => s
  | some x =>
    let ns := x.readyBy / 2 ^ 40
    s.complete pk ⟨0, h, 1000, timeBytes (ns / 1000000000) (ns % 1000000000) (x.readyBy % 2 ^ 40 / 2 ^ 24), 1, false⟩

/-- The predicted microseconds until a fill is ready. -/
def State.readyIn (s : State) (n : Nat) : Nat :=
  match (s.gen.slots.getD n ⟨.empty, none, 0⟩).fill with
  | some f => ceilDiv (f.readyAt - s.tim.elapsed) 65536000
  | none => 0

/-- A calibration generation serves only the M it was built for (R127). -/
def State.builtFor (s : State) (x : Stripe) (kind n : Nat) : Bool :=
  kind != 0 || 2 ^ s.fld (rBmhGen n) 27 3 == (s.geom x).2.1

/-- Test 5 of R62 (R154), then the admission: `wait` is WAIT_US; `after` runs once the stripe is in the table. -/
def State.admitGen (s : State) (pk : Packet) (x : Stripe) (kind wait : Nat) (after : State → Packet → Nat → State) : State :=
  match (s.slotOf kind x.gen).filter (fun n => s.builtFor x kind n) with
  | none => s.complete pk (.refuse 0x14 1 x.gen 0)
  | some n =>
    if s.slotState n ≠ 1 then s.admitStripe pk x after
    else if wait < s.readyIn n then s.complete pk (.refuse 0x14 2 x.gen (s.readyIn n))
    else { s with lay := { s.lay with waiting := s.lay.waiting ++ [⟨pk, x, s.tim.elapsed + t16us wait⟩] } }

/-- STRIPE_ADMIT, once its parameters stand (R62): the tests in order. -/
def State.stripeAdmit (s : State) (pk : Packet) (wait : Nat) (fx : Bool) (after : State → Packet → Nat → State) : State :=
  let base := pkU pk 0x30 8
  let len := pkU pk 0x38 8
  let f := pkU pk 0x2C 4
  if s.ddr.badTemp.any id then s.complete pk (.refuse 0x11 5 0 0)
  else
  match s.jobOf (pkU pk 0x20 4) with
  | none => s.complete pk (.refuse 0x11 7 0 0)
  | some j =>
    if j.n ≤ pkU pk 0x28 1 then s.complete pk (.badParam 0x28)
    else
    match s.notCovered base len with
    | some h => s.complete pk (notResident base h)
    | none =>
      let bs := s.jsRead base len
      let p := stripePart base bs
      let er := s.endRec p base len
      match s.unclean base len with
      | some r => s.complete pk (recordCheck (stripeNameAt base len bs er p r.failAt) r.failAt r.cause)
      | none =>
        let mapRecs := match p.map with | some m => [m] | none => []
        let read := p.bins ++ mapRecs ++ [(p.endAt, er)]
        s.throughPorts pk (read.map (fun q => (4, q.1, q.2.length))) fun s =>
        let s := s.readRecs read
        match read.findSome? (fun q => s.badBlock q.1 q.2.length) with
        | some b => (s.memUncorr b).complete pk (notResident base (max b base))
        | none =>
          match checkFails (p.bins ++ mapRecs ++ (if recType er = 12 then [(p.endAt, er)] else [])) with
          | some o => s.complete pk (.refuse 0x11 2 ((o - base) / 64) 0)
          | none =>
            match stripeStructure j base len p er with
            | some (n, a, c) => s.complete pk (recordCheck n a c)
            | none =>
              let map := p.map.map (fun m => mapRef m.2)
              let hole := match map with | some m => s.notCovered m.addr (2 * m.nx * m.ny) | none => none
              match hole with
              | some a => s.complete pk (.refuse 0x11 1 0xFFFFFE ((a - (match map with | some m => m.addr | none => 0)) / 64))
              | none =>
                match s.rateRefused j f with
                | some top => s.complete pk (.refuse 0x10 3 0 top)
                | none =>
                  match edgeRefused j f p.bins with
                  | some (i, top) => s.complete pk (.refuse 0x10 1 i top)
                  | none =>
                    match if j.m ≤ 8 then none else windowRefused (8 * j.m) 0 (p.bins.map (fun b => getU b.2 0x2C 4)) with
                    | some (i, total) => s.complete pk (.refuse 0x10 2 i total)
                    | none =>
                      let r0 := (p.bins.headD (0, [])).2
                      let x : Stripe := ⟨0, j.id, pkU pk 0x24 4, pkU pk 0x28 1, pkU pk 0x2A 2, f, base, len, getU er 8 4,
                        p.bins.length, getS r0 0x10 8, getS r0 0x18 8, map, 0, .admitted, fx, none, 0, 0, 0, 0, false, 0, 0,
                        0, 0, 0, (128, 1, 1)⟩
                      s.admitGen pk x (if j.scan then 2 else 0) wait after

/-! ### Records in replies -/

/-- A reply of whole records (R55): RESULT counts those written. -/
def State.replyRecords (s : State) (pk : Packet) (unit : Nat) (data : List Byte) : State :=
  s.complete pk ⟨0, 0, min (data.length / unit) (s.room pk / unit), data, unit, false⟩

/-- A hole record's 48 bytes (R70). -/
def holeBytes (h : Hole) : List Byte :=
  leBytes 4 h.stripe ++ leBytes 4 h.job ++ leBytes 4 h.first ++ leBytes 4 h.last ++ leBytes 4 h.mask ++
  leBytes 1 h.pass ++ leBytes 1 h.reason ++ leBytes 2 (bit h.scan + 2 * bit h.remainder + 4 * bit h.lostBefore) ++
  leBytesS 8 h.yFirst ++ leBytesS 8 h.yLast ++ leBytes 4 h.logSeq ++ zeros 4

/-- HOLE_READ (R72). -/
def State.holeRead (s : State) (pk : Packet) (consume : Bool) : State :=
  let from_ := pkU pk 0x20 4
  let max_ := pkU pk 0x24 2
  let at_ := s.lay.holes.filter (fun h => decide ((h.logSeq + 2 ^ 32 - from_) % 2 ^ 32 < 2 ^ 31))
  let fit := s.room pk / 48
  let n := if max_ = 0 then fit else min max_ fit
  let got := at_.take n
  let s1 := s.complete pk ⟨0, 0, got.length, (got.map holeBytes).flatten, 48, decide (got.length < at_.length)⟩
  if consume && (s.chanFault (pkRbuf pk) (48 * got.length)).isNone then { s1 with lay := { s1.lay with holes := s1.lay.holes.filter (fun h => !(got.contains h)) } } else s1

end Sys2Proof.Machine
end

