-- ==== Sys2Proof/Machine/Regs.lean ====
section
/-! DEFINITION. Register accesses: who may reach what (R345, R352, R372–R374), the access types (R10–R13, R377), and the
registers that take effect at COMMIT edges (R158). -/

namespace Sys2Proof.Machine

/-- The code of a master identity (Table 16-2); the configuration load is 15 (Table 2-9). -/
def masterCode : Master → Nat
  | .m0 => 0 | .m1 => 1 | .m2 => 2 | .aoc => 3 | .debug => 4 | .h0 => 7 | .h1 => 8 | .h2 => 9 | .h3 => 10 | .peer _ => 11
  | .load => 15

/-- The PCIe function of a master, if it is one. -/
def hostFn : Master → Option Nat
  | .h0 => some 0 | .h1 => some 1 | .h2 => some 2 | .h3 => some 3 | _ => none

/-- The master of a PCIe function. -/
def fnMaster (f : Nat) : Master := if f = 0 then .h0 else if f = 1 then .h1 else if f = 2 then .h2 else .h3

/-- The number of a core of the main domain. -/
def coreOf : Master → Option Nat
  | .m0 => some 0 | .m1 => some 1 | .m2 => some 2 | _ => none

/-- PCIe answers: the link is up and the sections have been applied (R35). -/
def State.pcieUp (s : State) : Bool := s.dom.main && s.dom.link && s.dom.cfgDone

/-- The FLR of a host function is in progress: on the clock of its reset, for no rule says how long it lasts (R351, log entry 171). -/
def State.inFlr (s : State) (f : Nat) : Bool :=
  match s.dom.flr.getD f none with
  | some t => s.onCoreClock t
  | none => false

/-- Host function `f` is not OFF: the link is up, and the function is neither in D3hot nor in an FLR (R351). -/
def State.fnUp (s : State) (f : Nat) : Bool := s.pcieUp && !(s.dom.d3.getD f false) && !s.inFlr f

/-- The Requester ID lies in the peer range that the image sets (R345). -/
def State.peerId (s : State) (rid : Nat) : Bool :=
  match s.dom.peers with
  | some (lo, hi) => decide (lo ≤ rid) && decide (rid ≤ hi)
  | none => false

/-- A master can make accesses now: it is not OFF (R351), and a peer shows a Requester ID of the peer range (R345): a request of any other
one is its function's. -/
def State.masterUp (s : State) (m : Master) : Bool :=
  match m with
  | .m0 => s.dom.main && !(s.mbx.coreHeld.getD 0 true)
  | .m1 => s.dom.main && !(s.mbx.coreHeld.getD 1 true)
  | .m2 => s.dom.main && !(s.mbx.coreHeld.getD 2 true)
  | .aoc => s.dom.aon
  | .debug => s.dbg.session
  | .h0 => s.fnUp 0
  | .h1 => s.fnUp 1
  | .h2 => s.fnUp 2
  | .h3 => s.fnUp 3
  | .peer rid => s.pcieUp && s.peerId rid
  | .load => s.dom.main

/-- The identity with a code can make accesses; codes that name no identity cannot. -/
def State.codeUp (s : State) (c : Nat) : Bool :=
  [Master.m0, .m1, .m2, .aoc, .debug, .h0, .h1, .h2, .h3].any (fun m => masterCode m == c && s.masterUp m)

/-- The block is always on (Table 18-5), or the register is. -/
def alwaysOn (off : Nat) : Bool :=
  let b := off / 0x10000
  b == 0 || b == 2 || b == 3 || b == 4 || off == rTimRtcTrim || off == rBalWdog || off == rBalCut || off == rPadFilt

/-- SENDER of a mailbox channel. -/
def State.chSender (s : State) (ch : Nat) : Nat := s.fld (rMbxBind ch) 24 4
/-- RECEIVER of a mailbox channel. -/
def State.chReceiver (s : State) (ch : Nat) : Nat := s.fld (rMbxBind ch) 20 4
/-- EN of a mailbox channel. -/
def State.chEn (s : State) (ch : Nat) : Bool := s.flag (rMbxBind ch) 31

/-- The offset lies in the windows or registers of the shared mailboxes. -/
def inShm (off : Nat) : Bool := decide (0x2D000 ≤ off) && decide (off < 0x2E000)

/-- What a master sees at an offset (R374): H3 and a peer see a part of the map. -/
def State.visible (s : State) (m : Master) (off : Nat) : Bool :=
  match m with
  | .h3 => off == rGlbId || off == rGlbRev || inShm off ||
      (decide (0x10100 ≤ off) && decide (off < 0x10300) && s.fld (rCmdQctl ((off - 0x10100) / 0x20)) 24 2 == 3) ||
      (decide (0x11000 ≤ off) && decide (off < 0x11080) && s.fld (rCmdQctl ((off - 0x11000) / 8)) 24 2 == 3) ||
      off == rMbxDb 10 || off == rMbxDbmask 10 || off == rMbxRing 10
  | .peer _ => inShm off || (decide (0x2E000 ≤ off) && decide (off < 0x2E0B0) && off % 16 == 8) ||
      (decide (0x21000 ≤ off) && decide (off < 0x2D000) &&
        (let ch := (off - 0x21000) / 0x400
         let o := (off - 0x21000) % 0x400
         s.chSender ch == 11 && ((decide (0x208 ≤ o) && decide (o < 0x240)) || o == 0x240 || o == 0x244)))
  | _ => true

/-- How an access ends up: at a register or window byte, at a reserved offset (R373, R374), or in a domain that is down
(R352). -/
inductive Reach where
  | ok | reserved | down
deriving DecidableEq, Repr

/-- The windows of the mailboxes that accept data (R347, R355). -/
def inMbxWindow (off : Nat) : Bool :=
  (decide (0x21000 ≤ off) && decide (off < 0x2D000) && decide ((off - 0x21000) % 0x400 < 0x240)) ||
  (decide (0x2D000 ≤ off) && decide (off < 0x2E000) && decide ((off - 0x2D000) % 0x400 < 0x200))

/-- The register's domain answers accesses: always on, or of the main domain once the configuration load has written its fields
again (R10, R352, R381; log entry 129). The slots of the mailboxes and the table windows answer nothing while their unit has stopped (R325). -/
def State.serves (s : State) (off : Nat) : Bool :=
  (alwaysOn off || (s.dom.main && s.dom.cfgDone)) &&
    !(s.flt.stopped.contains 12 && decide (0x21000 ≤ off) && decide (off < 0x2E000)) &&
    !(s.flt.stopped.contains 3 && decide (0x800000 ≤ off) && decide (off < 0xB40000))

/-- What an access by a master at an offset reaches. -/
def State.reach (s : State) (m : Master) (off : Nat) : Reach :=
  if !s.serves off then .down
  else if !s.visible m off then .reserved
  else if (regAt off).isSome || inMbxWindow off then .ok
  else .reserved

/-- A register access counts (erratum A0-05). -/
def State.touch (s : State) : State := { s with mbx := { s.mbx with accesses := s.mbx.accesses + 1 } }

/-- A write of a master to the register at `off`: nothing where the master cannot make it or the domain is down, ACCESS where
the offset is reserved for it, else the register's own rule (log entry 2). -/
def State.regCmd (s : State) (m : Master) (off : Nat) (f : State → State) : Outcome :=
  if !s.masterUp m then .next s
  else
    match s.reach m off with
    | .reserved => .next (s.touch.access off)
    | .down => .next s.touch
    | .ok => .next (f s.touch)

/-- The registers that ARRAY, SCAN and CHECK read at COMMIT edges (R158, Tables of 09). -/
def appliedRegs : List Nat :=
  [rEscCfg, rEscTs, rEscLat, rEscYoffLo, rEscYoffHi, rEscXoffLo, rEscXoffHi, rEscSlipmax, rEscRevtol, rEscTrk,
   rEscEncScale, rEscScfg, rEscSdly, rEscPixp, rBalStb, rScnCfg] ++ (List.range 16).map rBalGskew

/-- The position source in force has changed (R158, R160, R166): the fit and the frame reference start over. -/
def State.sourceCheck (s : State) (old : Nat) : State :=
  if s.apFld rEscCfg 0 2 = old then s
  else
    { s with esc := { s.esc with samples := [], arrived := [], entered := 0, decides := [], subs := 0, refSeq := none } }.setFlag
      rEscStat 9 false

/-- The values written so far come into force (R158). -/
def State.applyRegs (s : State) : State :=
  { s with applied := appliedRegs.foldl (fun a o => storePut resetValue a o (BitVec.ofNat 32 (s.rd o))) s.applied }.sourceCheck
    (s.apFld rEscCfg 0 2)

/-- A value written takes effect at once in SERVICE and in HOLD (R158). -/
def State.applyNow (s : State) (off : Nat) : State :=
  if appliedRegs.contains off && (s.mode == 1 || s.mode == 5) then
    { s with applied := storePut resetValue s.applied off (BitVec.ofNat 32 (s.rd off)) }.sourceCheck (s.apFld rEscCfg 0 2)
  else s

/-- The lock bit of an offset's block is set (R377). -/
def State.locked (s : State) (off : Nat) : Bool := s.flag rGlbLock (off / 0x10000)

/-- What a register holds after a write of `v` by its access types (R10, R11). -/
def regNext (r : RegInfo) (rwl : Nat) (locked : Bool) (old v : Nat) : Nat :=
  let set := r.rw ||| r.rws ||| (if locked then 0 else rwl)
  let a := mergeBits set v old
  let b := a &&& (0xFFFFFFFF - (r.w1c &&& v))
  if r.clr &&& v ≠ 0 then b &&& (0xFFFFFFFF - r.clr) else b

/-- Every field of the register that a write can change is RWL. -/
def RegInfo.onlyRwl (r : RegInfo) : Bool := (r.rw ||| r.w1c ||| r.clr ||| r.rws ||| r.wo) == 0

/-- What a write of ones to W1C bits and clearable counts leaves of what hardware sets on its clock: the set wins (R12). -/
def State.setWins (s : State) (r : RegInfo) (off v : Nat) : Nat :=
  let l := s.setsNow off
  l.foldl (fun a x => a ||| (r.w1c &&& v &&& x.bits)) (if r.clr &&& v ≠ 0 then min r.clr (sumN (l.map (·.count))) else 0)

/-- A write by the access types alone (R10–R13). A locked RWL field keeps its value, and the attempt is an ACCESS; in a register
that other fields share, a write that leaves the locked field as it stands is none (log entry 26). -/
def State.writeByType (s : State) (load : Bool) (off v : Nat) : State :=
  match regAt off with
  | none => s.access off
  | some r =>
    let rwl := rwlMask off
    let locked := s.locked off && !load
    let old := s.rd off
    let s1 := (s.wr off (regNext r rwl locked old v ||| s.setWins r off v)).applyNow off
    if locked ∧ rwl ≠ 0 ∧ (r.onlyRwl ∨ mergeBits rwl v old ≠ old) then s1.access off else s1

/-- The queue that a queue register or doorbell belongs to. -/
def queueOf (off : Nat) : Option Nat :=
  if 0x10100 ≤ off ∧ off < 0x10300 then some ((off - 0x10100) / 0x20)
  else if 0x11000 ≤ off ∧ off < 0x11080 then some ((off - 0x11000) / 8)
  else none

/-- A write to a queue register is made through its function (R48). -/
def State.queueOwner (s : State) (m : Master) (q : Nat) : Bool :=
  m == .load || hostFn m == some (s.fld (rCmdQctl q) 24 2)

/-- MASTER of a DMA channel (R219). -/
def State.dmaMaster (s : State) (n : Nat) : Nat := if n < 4 then 0 else s.fld (rDmaCtl n) 4 4

/-- The master is the one that a DMA channel's MASTER field names: M0–M2, AOC, D, H1 or H2. Every other value names no master, and so
H0, H3 and P never are (R219, DMA_CTL). -/
def State.dmaNamed (s : State) (m : Master) (n : Nat) : Bool :=
  [0, 1, 2, 3, 4, 8, 9].contains (masterCode m) && masterCode m == s.dmaMaster n

/-- A GPIO offers a function (PAD_GPIO_CFG). -/
def gpioOffers (n f : Nat) : Bool :=
  f == 0 || (f == 1 && n == 0) || (f == 2 && n == 2) || (f == 3 && decide (16 ≤ n) && decide (n < 24)) ||
  (f == 4 && decide (24 ≤ n) && decide (n < 32)) || (f == 5 && decide (40 ≤ n) && decide (n < 48))

/-- The master restrictions that a register carries for a plain write (R48, R158, R219, R260–R262, R283, R346, R351). A write
that they turn away is ignored and raises ACCESS. -/
def State.mayWrite (s : State) (m : Master) (off v : Nat) : Bool :=
  let b := off / 0x10000
  if m == .load then true
  else if b = 1 then (match queueOf off with | some q => s.queueOwner m q | none => true)
  else if b = 2 then
    if 0x20100 ≤ off ∧ off < 0x201C0 then s.flag rMbxLock 0 || m == .h1
    else if 0x21000 ≤ off ∧ off < 0x2D000 then
      let ch := (off - 0x21000) / 0x400
      masterCode m == s.chSender ch || masterCode m == s.chReceiver ch
    else if 0x2E000 ≤ off ∧ off < 0x2E0B0 ∧ off % 16 < 8 then decide (masterCode m = (off - 0x2E000) / 16)
    else true
  else if b = 16 then
    if off < 0x100600 then s.dmaNamed m ((off - 0x100000) / 0x80) else true
  else if b = 18 then
    if off < 0x120400 ∧ (off - 0x120000) % 0x80 < 0x28 then
      (coreOf m).isSome && s.atRest ((off - 0x120000) / 0x80)
    else true
  else if off = rTimRtcTrim then m == .aoc
  else if off = rTimStepSecLo ∨ off = rTimStepSecHi ∨ off = rTimStepNs then !s.flag rTimStat 28
  else if 0x130000 ≤ off ∧ off < 0x1300C0 then
    s.locked off || gpioOffers ((off - 0x130000) / 4) (v / 2 ^ 28)
  else true

end Sys2Proof.Machine
end

