-- ==== Sys2Proof/Machine/Queue.lean ====
section
/-! DEFINITION. The Polcon queues (R48–R58): fetching, replying, doorbells, enabling and halting. -/

namespace Sys2Proof.Machine

/-- The registers of queue q as numbers: EN. -/
def State.qEn (s : State) (q : Nat) : Bool := s.flag (rCmdQctl q) 31
/-- HALTED of queue q. -/
def State.qHalted (s : State) (q : Nat) : Bool := s.flag (rCmdQstat q) 31
/-- SQ_HEAD of queue q. -/
def State.qHead (s : State) (q : Nat) : Nat := s.fld (rCmdQstat q) 0 12
/-- TAIL of queue q. -/
def State.qTail (s : State) (q : Nat) : Nat := s.fld (rCmdSqTail q) 0 12
/-- HEAD of queue q's completion queue. -/
def State.qCqHead (s : State) (q : Nat) : Nat := s.fld (rCmdCqHead q) 0 12
/-- Submission slots: a size below 15 is taken as 15. -/
def State.sqSlots (s : State) (q : Nat) : Nat := max 15 (s.fld (rCmdQsize q) 0 12) + 1
/-- Completion entries. -/
def State.cqSlots (s : State) (q : Nat) : Nat := max 15 (s.fld (rCmdQsize q) 16 12) + 1
/-- What the pair holds beyond its registers. -/
def State.queue (s : State) (q : Nat) : QueueState := s.cmd.queues.getD q ⟨0, 0, 16, 16, 0, true⟩

/-- The packet came from queue q. -/
def fromQueue (q : Nat) (pk : Packet) : Bool := pk.org == .queue q

/-- Packets of queue q that have been started and not completed (R52). -/
def State.outstanding (s : State) (q : Nat) : Nat :=
  (s.cmd.started.filter (fun e => fromQueue q e.pk && !e.discard)).length

/-- The completion queue is full (R51). -/
def State.cqFull (s : State) (q : Nat) : Bool :=
  let n := (s.queue q).cqSize
  ((s.queue q).cqw + n - s.qCqHead q % n) % n == n - 1

/-- The queue halts with an error code (R53); the first error stays. -/
def State.haltQueue (s : State) (q err : Nat) : State :=
  if s.qHalted q then s else (s.setFlag (rCmdQstat q) 31 true).setFld (rCmdQstat q) 24 4 err

/-- EN is cleared (R53): head, tail and PHASE return to their initial values, the error clears, and the replies of the packets
under way will be discarded. -/
def State.disableQueue (s : State) (q : Nat) : State :=
  let s1 := (((s.setFlag (rCmdQctl q) 31 false).wr (rCmdQstat q) 0).wr (rCmdSqTail q) 0).wr (rCmdCqHead q) 0
  let held := s1.cmd.held.filter (fun h => !fromQueue q h.pk)
  let gone := s1.cmd.held.filter (fun h => fromQueue q h.pk)
  let started := (s1.cmd.started.filter (fun e => !(gone.any (fun h => h.pk == e.pk)))).map
    (fun e => if fromQueue q e.pk then { e with discard := true } else e)
  { s1 with cmd := { s1.cmd with held := held, started := started,
                                 queues := updAt s1.cmd.queues q (fun x => { x with cqw := 0, phase := true }) } }

/-- EN is set: the bases and sizes are taken (R49, CMD_QCTL). -/
def State.enableQueue (s : State) (q : Nat) : State :=
  let x : QueueState := ⟨s.fld (rCmdSqbLo q) 12 20 * 4096 + s.rd (rCmdSqbHi q) * 2 ^ 32,
    s.fld (rCmdCqbLo q) 12 20 * 4096 + s.rd (rCmdCqbHi q) * 2 ^ 32, s.sqSlots q, s.cqSlots q, 0, true⟩
  { s with cmd := { s.cmd with queues := updAt s.cmd.queues q (fun _ => x) } }

/-- A reply that halts its queue once it is written (R53): its packet's LENGTH was below 32 or above 1,024. -/
def haltsQueue (h : Held) : Bool := decide (pkLength h.pk < 32) || decide (1024 < pkLength h.pk)

/-- Queue q can have a packet fetched (R50, R52): it is enabled, not halted, has work and fewer than 16 outstanding. -/
def State.hasWork (s : State) (q : Nat) : Bool :=
  s.qEn q && !s.qHalted q && !(s.qHead q == s.qTail q) && decide (s.outstanding q < 16) &&
    !(s.cmd.held.any (fun h => fromQueue q h.pk && haltsQueue h))

/-- The queue whose turn it is (R50): the first with work from the round-robin pointer on. -/
def State.turn (s : State) : Option Nat :=
  ((List.range 16).map (fun i => (s.cmd.next + i) % 16)).find? (fun q => s.hasWork q)

/-- A packet is started: it gets its fetch number. -/
def State.start (s : State) (org : Origin) (fn : Master) (bs : List Byte) : State × Packet :=
  let pk : Packet := ⟨s.cmd.nextId, org, fn, bs⟩
  ({ s with cmd := { s.cmd with started := s.cmd.started ++ [⟨pk, false, false, s.now40⟩], nextId := s.cmd.nextId + 1 } }, pk)

/-- A started packet goes through R57, step 2; a bad header completes it. -/
def State.checkHeader (s : State) (pk : Packet) (qbyte : Nat) : State :=
  match headerBad pk.bytes qbyte with
  | some o => s.complete pk (.badParam o)
  | none => s

/-- PACKET_FETCH (R50, R52, R53, R57): the next packet in turn is read from host memory, checked and started. A packet with
FENCE waits until every earlier one of its queue has completed; its queue only passes its turn. -/
def State.fetch (s : State) (q : Nat) (rd : HostRead) : State :=
  let s0 := { s with cmd := { s.cmd with next := (q + 1) % 16 } }
  match rd with
  | .failed => s0.haltQueue q 2
  | .bytes bs =>
    if bs.length < 32 then s0.haltQueue q 2
    else
      let len := getU bs 6 2
      let n := (s0.queue q).sqSize
      let need := ceilDiv len 32
      let advance (t : State) (k : Nat) : State := t.setFld (rCmdQstat q) 0 12 ((t.qHead q + k) % n)
      let fn := fnMaster (s0.fld (rCmdQctl q) 24 2)
      if len < 32 ∨ 1024 < len then
        let (s1, pk) := s0.start (.queue q) fn (bs.take 32)
        s1.complete pk (.plain 2 0x01000000 0)
      else if len % 4 ≠ 0 then s0.haltQueue q 1
      else if (s0.qTail q + n - s0.qHead q) % n < need then s0.haltQueue q 1
      else if bs.length < len then s0.haltQueue q 2
      else if getU bs 1 1 % 2 = 1 ∧ s0.outstanding q ≠ 0 then s0
      else
        let (s1, pk) := (advance s0 need).start (.queue q) fn (bs.take len)
        s1.checkHeader pk q

/-- PACKET_FETCH (R52). The movement fetches while M0 runs and PCIe is up. -/
def execPacketFetch (rd : HostRead) (s : State) : Outcome :=
  if !s.pcieUp || !s.masterUp .m0 then .next s
  else
    match s.turn with
    | none => .next s
    | some q => .next (s.fetch q rd)

/-- The 16 bytes of a reply (Table 3-2). -/
def replyBytes (h : Held) (sqHead : Nat) (phase : Bool) : List Byte :=
  leBytes 2 (pkSeq h.pk) ++ leBytes 1 (pkOpcode h.pk) ++ leBytes 1 h.status ++ leBytes 2 sqHead ++
  leBytes 2 (bit phase + 2 * bit h.more + 4 * bit h.written) ++ leBytes 4 h.detail ++ leBytes 4 h.result

/-- The packet has completed: it is outstanding no longer (R52). -/
def State.finish (s : State) (pk : Packet) : State :=
  { s with cmd := { s.cmd with started := s.cmd.started.filter (fun e => !(e.pk == pk)),
                               held := s.cmd.held.filter (fun h => !(h.pk == pk)) } }

/-- The oldest reply that queue q holds. -/
def State.heldOf (s : State) (q : Nat) : Option Held := s.cmd.held.find? (fun h => fromQueue q h.pk)

/-- A held reply goes into the next completion entry (R51). -/
def State.putReply (s : State) (q : Nat) (h : Held) : State :=
  let x := s.queue q
  let s1 := s.hostWrite (x.cqBase + 16 * x.cqw) (replyBytes h (s.qHead q) x.phase)
  let w := x.cqw + 1
  let x' := if w = x.cqSize then { x with cqw := 0, phase := !x.phase } else { x with cqw := w }
  let s2 := ({ s1 with cmd := { s1.cmd with queues := updAt s1.cmd.queues q (fun _ => x') } }).finish h.pk
  let s3 := if bitAt (getU h.pk.bytes 1 1) 1 && s2.flag (rCmdQctl q) 8 then
      s2.signal (s2.fld (rCmdQctl q) 24 2) (s2.fld (rCmdQctl q) 0 6) else s2
  if haltsQueue h then s3.haltQueue q 1 else s3

/-- A write to a register of queue q: only through its function (R48). -/
def State.queueCmd (s : State) (m : Master) (q off : Nat) (f : State → State) : Outcome :=
  s.regCmd m off (fun t => if t.queueOwner m q then f t else t.access off)

/-- CMD_SQ_TAIL_WRITE (R50). -/
def execCmdSqTailWrite (m : Master) (q : Fin 16) (v : Word) (s : State) : Outcome :=
  s.queueCmd m q (rCmdSqTail q) fun t =>
    let w := v.toNat % 4096
    if !t.qEn q then t.access (rCmdSqTail q)
    else if (t.queue q).sqSize ≤ w then t.haltQueue q 4
    else t.wr (rCmdSqTail q) w

/-- CMD_CQ_HEAD_WRITE (R50, R51). -/
def execCmdCqHeadWrite (m : Master) (q : Fin 16) (v : Word) (s : State) : Outcome :=
  s.queueCmd m q (rCmdCqHead q) fun t =>
    let w := v.toNat % 4096
    if !t.qEn q then t.access (rCmdCqHead q)
    else if (t.queue q).cqSize ≤ w then t.haltQueue q 4
    else t.wr (rCmdCqHead q) w

/-- A write of CMD_QCTL: its fields by type, then what a change of EN does (R53). -/
def State.writeQctl (s : State) (q v : Nat) (load : Bool) : State :=
  let was := s.qEn q
  let t := s.writeByType load (rCmdQctl q) v
  if was && !t.qEn q then t.disableQueue q
  else if !was && t.qEn q then t.enableQueue q
  else t

/-- NOP (R59). -/
def execNop (pk : Packet) (s : State) : Outcome :=
  .next (s.decidePk pk ⟨0x00, fnAll3, modesAny, []⟩ (fun t => t.complete pk (.ok 0)))

/-- RESERVED_OPCODE (R57, R59): a packet whose opcode Table 3-4 does not list gives BAD_OPCODE. -/
def execReservedOpcode (pk : Packet) (s : State) : Outcome :=
  if s.ready pk && !(knownOps.contains (pkOpcode pk)) then .next ((s.take pk).complete pk (.plain 0x01 0 0))
  else .next s

end Sys2Proof.Machine
end

