-- ==== Sys2Proof/Machine/Mailbox.lean ====
section
/-! DEFINITION. Mailbox channels, epochs, doorbells, shared mailboxes, and core supervision (R344–R355). -/

namespace Sys2Proof.Machine

/-! ### Doorbells and epochs -/

/-- MSI-X vectors 32 + bit of a host function, for the set bits of `w` (R351). -/
def State.doorbellMsix (s : State) (code w : Nat) : State :=
  if 7 ≤ code ∧ code ≤ 10 ∧ s.codeUp code then
    (List.range 32).foldl (fun t b => if bitAt w b then t.signal (code - 7) (32 + b) else t) s
  else s

/-- Doorbell bits of an identity are set (R351, R353); P has none. -/
def State.ringBits (s : State) (code w : Nat) : State :=
  if 10 < code then s
  else
    let old := s.rd (rMbxDb code)
    let rise := w &&& (0xFFFFFFFF - old) &&& (0xFFFFFFFF - s.rd (rMbxDbmask code))
    ((s.wr (rMbxDb code) (old ||| w)).hwSet (rMbxDb code) w 0).doorbellMsix code rise

/-- The owner number of an identity (R354). -/
def ownerNo (c : Nat) : Nat :=
  if 7 ≤ c ∧ c ≤ 10 then c - 6 else if c < 3 then c + 5 else if c = 3 then 8 else if c = 4 then 9 else 10

/-- The shared mailbox. -/
def State.shm (s : State) (k : Nat) : Shm := s.mbx.shms.getD k ⟨[], 0, none, none⟩
/-- The shared mailbox changed. -/
def State.updShm (s : State) (k : Nat) (f : Shm → Shm) : State := { s with mbx := { s.mbx with shms := updAt s.mbx.shms k f } }

/-- The owner a lock shows at this access (R354): after a release it is still held for 2 clocks, until a tick or another
register access has passed (erratum A0-05). -/
def State.shmOwner (s : State) (k : Nat) : Nat :=
  let x := s.shm k
  match x.releasedAt with
  | none => x.owner
  | some (a, t) => if s.mbx.accesses = a + 1 ∧ s.tim.elapsed = t then x.owner else 0

/-- The epoch of an identity increments (R350), and the shared mailboxes that it owns now are released, STALE (R354). -/
def State.bumpEpoch (s : State) (code : Nat) : State :=
  let s1 := s.wr (rMbxEpoch code) ((s.rd (rMbxEpoch code) + 1) % 256)
  (List.range 4).foldl (fun t k =>
    if t.shmOwner k = ownerNo code then (t.updShm k (fun y => { y with owner := 0, releasedAt := none })).setW1c (rMbxShmStat k) 29
    else t) s1

/-! ### Channels -/

/-- The channel record. -/
def State.chan (s : State) (ch : Nat) : MbxChan := s.mbx.chans.getD ch ⟨[], [], 0⟩
/-- The channel record changed. -/
def State.updChan (s : State) (ch : Nat) (f : MbxChan → MbxChan) : State :=
  { s with mbx := { s.mbx with chans := updAt s.mbx.chans ch f } }
/-- COUNT of a channel. -/
def State.chCount (s : State) (ch : Nat) : Nat := s.fld (rMbxChstat ch) 8 4
/-- HEAD of a channel. -/
def State.chHead (s : State) (ch : Nat) : Nat := s.fld (rMbxChstat ch) 0 3

/-- A post is accepted (R347, R349): staging goes into the slot after the newest, its header is stamped, the receiver's
doorbell rings. The first accepted post of a channel has SEQ 0 (log entry 27). -/
def State.postMsg (s : State) (m : Master) (ch v : Nat) : State :=
  let c := s.chan ch
  let peer := masterCode m == 11
  let rc := s.chReceiver ch
  let win := max 1 (s.fld (rMbxBind ch) 0 12)
  let slot : MbxSlot := ⟨if peer then 0x40 + bits v 16 6 else masterCode m, min 56 (bits v 0 6),
    if peer then bits v 24 8 else s.rd (rMbxEpoch (masterCode m)), s.rd (rMbxEpoch rc), c.seq, false, bits v 8 8,
    c.staging, true, s.tim.elapsed + win * t16us 100⟩
  let i := (s.chHead ch + s.chCount ch) % 8
  let s1 := s.updChan ch (fun x => { x with slots := x.slots.set i slot, seq := (x.seq + 1) % 65536 })
  (s1.setFld (rMbxChstat ch) 8 4 (s.chCount ch + 1)).ringBits rc (2 ^ s.fld (rMbxBind ch) 12 5)

/-- MBX_POST (R347, R348). -/
def execMbxPost (m : Master) (ch : Fin 48) (v : Word) (s : State) : Outcome :=
  s.regCmd m (rMbxPost ch) fun t =>
    if masterCode m ≠ t.chSender ch ∨ !t.chEn ch then t.access (rMbxPost ch)
    else
      let off := !t.codeUp (t.chReceiver ch)
      let full := decide (8 ≤ t.chCount ch)
      let t1 := if off then t.setW1c (rMbxChstat ch) 31 else t
      let t2 := if full then t1.setW1c (rMbxChstat ch) 30 else t1
      if off || full then t2 else t2.postMsg m ch v.toNat

/-- MBX_DONE (R347). -/
def execMbxDone (m : Master) (ch : Fin 48) (v : Word) (s : State) : Outcome :=
  s.regCmd m (rMbxDone ch) fun t =>
    if masterCode m ≠ t.chReceiver ch then t.access (rMbxDone ch)
    else if !bitAt v.toNat 0 ∨ t.chCount ch = 0 then t
    else
      let h := t.chHead ch
      let t1 := t.updChan ch (fun x => { x with slots := updAt x.slots h (fun y => { y with unread := false }) })
      (t1.setFld (rMbxChstat ch) 8 4 (t.chCount ch - 1)).setFld (rMbxChstat ch) 0 3 ((h + 1) % 8)

/-- The doorbell bits of identity r that a master may ring (R353): those of the channels it sends to r. -/
def State.ringable (s : State) (m : Master) (r : Nat) : Nat :=
  (List.range 48).foldl (fun w ch =>
    if s.chEn ch && s.chSender ch == masterCode m && s.chReceiver ch == r then w ||| 2 ^ s.fld (rMbxBind ch) 12 5 else w) 0

/-- MBX_RING (R353). -/
def execMbxRing (m : Master) (r : Fin 11) (v : Word) (s : State) : Outcome :=
  s.regCmd m (rMbxRing r) fun t =>
    let ok := t.ringable m r
    let t1 := t.ringBits r (v.toNat &&& ok)
    if v.toNat &&& (0xFFFFFFFF - ok) = 0 then t1 else t1.access (rMbxRing r)

/-- MBX_ALIVE_WRITE (R344). -/
def execMbxAliveWrite (m : Master) (v : Word) (s : State) : Outcome :=
  s.regCmd m rMbxAlive fun t =>
    match coreOf m with
    | none => t.access rMbxAlive
    | some c =>
      if bitAt v.toNat c then { t with mbx := { t.mbx with aliveAt := t.mbx.aliveAt.set c t.tim.elapsed } } else t

/-- LOCK of MBX_LOCK is set, and GLB_LOCK bit 2 mirrors it (R346, R377). -/
def State.setMbxLock (s : State) : State := (s.setFlag rMbxLock 0 true).setFlag rGlbLock 2 true

/-- MBX_LOCK_WRITE (R346). -/
def execMbxLockWrite (m : Master) (v : Word) (s : State) : Outcome :=
  s.regCmd m rMbxLock fun t => if bitAt v.toNat 0 then t.setMbxLock else t

/-- MBX_DBMASK_WRITE (R351): a set bit whose mask is cleared rings again. -/
def execMbxDbmaskWrite (m : Master) (i : Fin 11) (v : Word) (s : State) : Outcome :=
  s.regCmd m (rMbxDbmask i) fun t =>
    if masterCode m ≠ i.val then t.access (rMbxDbmask i)
    else
      let old := t.rd (rMbxDbmask i)
      (t.wr (rMbxDbmask i) v.toNat).doorbellMsix i (old &&& (0xFFFFFFFF - v.toNat) &&& t.rd (rMbxDb i))

/-- The receiver's DONE of slot `i` falls on this clock, behind the expiry of its window: it is in time (R342, R349). -/
def State.doneTies (s : State) (ch : Fin 48) (i : Nat) : Bool :=
  s.chHead ch == i && s.ties (fun c => match c with
    | .mbxDone m c' v => c' == ch && masterCode m == s.chReceiver ch && bitAt v.toNat 0
    | .registerWrite m off v => off == rMbxDone ch && masterCode m == s.chReceiver ch && bitAt v.toNat 0
    | _ => false)

/-- REPLY_WINDOW_EXPIRY (R349). -/
def execReplyWindowExpiry (ch : Fin 48) (slot : Fin 8) (s : State) : Outcome :=
  match (s.chan ch).slots[slot.val]? with
  | none => .next s
  | some x =>
    if x.unread && !x.timeout && !s.doneTies ch slot then
      .next ((s.updChan ch (fun c => { c with slots := updAt c.slots slot (fun y => { y with timeout := true }) })).setW1c
        (rMbxChstat ch) 29)
    else .next s

/-- FLAGS of a slot as its receiver reads it (R350, Table 16-3). -/
def State.slotFlags (s : State) (ch : Nat) (x : MbxSlot) : Nat :=
  bit (decide (x.sender < 0x40) && !(s.rd (rMbxEpoch x.sender) == x.sep)) + 2 * bit (!(s.rd (rMbxEpoch (s.chReceiver ch)) == x.rep)) +
    4 * bit x.timeout

/-- The 64 bytes of a slot as its receiver reads it (R347, Table 16-3). -/
def State.slotBytes (s : State) (ch : Nat) (x : MbxSlot) : List Byte :=
  leBytes 1 x.sender ++ leBytes 1 x.len ++ leBytes 1 x.sep ++ leBytes 1 x.rep ++ leBytes 2 x.seq ++
  leBytes 1 (s.slotFlags ch x) ++ leBytes 1 x.tag ++ x.data ++ zeros (56 - x.data.length)

/-- A core of the main domain is held in reset until SERVICE (R344). -/
def State.holdCore (s : State) (c : Nat) : State :=
  ({ s with mbx := { s.mbx with coreHeld := s.mbx.coreHeld.set c true } }).bumpEpoch c

/-- The core writes its bit of MBX_ALIVE on this clock (R342, R344). -/
def State.aliveTies (s : State) (core : Fin 3) : Bool :=
  s.onCoreClock (s.mbx.aliveAt.getD core 0) || s.ties (fun c => match c with
    | .mbxAliveWrite m v => coreOf m == some core.val && bitAt v.toNat core
    | .registerWrite m off v => off == rMbxAlive && coreOf m == some core.val && bitAt v.toNat core
    | _ => false)

/-- MOVE_WDOG (R344): the AOC supervises while the main domain runs. A write on its clock is in time, unless an injection withholds it
(R341). -/
def execMoveWdog (core : Fin 3) (s : State) : Outcome :=
  if s.dom.main && !(s.mbx.coreHeld.getD core true) && !s.aliveTies core then .next ((s.holdCore core).raise srcMoveWdog)
  else .next (if s.dom.main then s.waitOut srcMoveWdog else s)

/-! ### Shared mailboxes -/

/-- The lowest owner number of those that read lock k on this clock, behind this read (R354). -/
def State.shmRival (s : State) (k : Fin 4) (own : Nat) : Nat :=
  if s.clocked then
    s.beforeTick.foldl (fun w c => match c with
      | .mbxShmLockRead m j =>
        if j = k ∧ s.masterUp m ∧ s.reach m (rMbxShmLock k) = .ok then min w (ownerNo (masterCode m)) else w
      | _ => w) own
  else own

/-- MBX_SHM_LOCK_READ (R354). A free lock goes to the lowest owner number that reads it on the clock; the others read that number. -/
def execMbxShmLockRead (m : Master) (k : Fin 4) (s : State) : Outcome :=
  if !s.masterUp m then .next s
  else
    match s.reach m (rMbxShmLock k) with
    | .reserved => .next (s.touch.emit (.readValue m (rMbxShmLock k) 0#32))
    | .down => .next (s.touch.emit (.readError m (rMbxShmLock k)))
    | .ok =>
      let t := s.touch
      let own := ownerNo (masterCode m)
      let won := t.shmRival k own
      let o := if t.shmOwner k = 0 ∧ won < own then won else t.shmOwner k
      let t1 := t.emit (.readValue m (rMbxShmLock k) (BitVec.ofNat 32 o))
      if o = 0 then .next (t1.updShm k (fun x => { x with owner := ownerNo (masterCode m), releasedAt := none }))
      else .next t1

/-- MBX_SHM_LOCK_RELEASE (R354, erratum A0-05). -/
def execMbxShmLockRelease (m : Master) (k : Fin 4) (v : Word) (s : State) : Outcome :=
  s.regCmd m (rMbxShmLock k) fun t =>
    if t.shmOwner k = ownerNo (masterCode m) ∧ v.toNat % 16 = 0 then
      t.updShm k (fun x => { x with releasedAt := some (t.mbx.accesses, t.tim.elapsed) })
    else t.access (rMbxShmLock k)

/-- MBX_SHM_GO (R355): the packet in the slots is started as the owner's identity. A LENGTH that R53 or the slots do not allow
gives BAD_PARAM. -/
def execMbxShmGo (m : Master) (k : Fin 4) (v : Word) (s : State) : Outcome :=
  s.regCmd m (rMbxShmGo k) fun t =>
    if t.shmOwner k ≠ ownerNo (masterCode m) ∨ t.flag (rMbxShmStat k) 31 then t.access (rMbxShmGo k)
    else if !bitAt v.toNat 0 then t
    else
      let bs := (t.shm k).slots
      let len := getU bs 6 2
      let bad := lengthBad len || decide (512 < len)
      let (t1, pk) := t.start (.shared k) m (if bad then bs.take 32 else bs.take len)
      let t2 := (t1.setFlag (rMbxShmStat k) 31 true).updShm k (fun x => { x with run := some pk })
      if bad then t2.complete pk (.plain 2 0x01000000 0) else t2.checkHeader pk 0xFF

/-! ### Functions -/

/-- FUNCTION_D3HOT_CHANGE (R351): on leaving D3hot, set and unmasked doorbell bits are signalled (R351). -/
def execFunctionD3hotChange (f : Fin 4) (d3 : Bool) (s : State) : Outcome :=
  let was := s.dom.d3.getD f false
  let s1 := { s with dom := { s.dom with d3 := s.dom.d3.set f d3 } }
  if was && !d3 then
    .next (s1.doorbellMsix (7 + f.val) (s1.rd (rMbxDb (7 + f.val)) &&& (0xFFFFFFFF - s1.rd (rMbxDbmask (7 + f.val)))))
  else .next s1

end Sys2Proof.Machine
end

