-- ==== Sys2Proof/Machine/Claims.lean ====
section
/-! DEFINITION. Shared-resource claims (R37–R41). -/

namespace Sys2Proof.Machine

/-- The resource has an owner. -/
def State.clmHeld (s : State) (r : Nat) : Bool := s.flag (rClmEntry r) 30
/-- The claim is pinned. -/
def State.clmPinned (s : State) (r : Nat) : Bool := s.flag (rClmEntry r) 31
/-- The owner code. -/
def State.clmOwner (s : State) (r : Nat) : Nat := s.fld (rClmEntry r) 0 8
/-- The claiming master. -/
def State.clmMaster (s : State) (r : Nat) : Nat := s.fld (rClmEntry r) 20 4

/-- The resource has this owner. -/
def State.ownedBy (s : State) (r owner : Nat) : Bool := s.clmHeld r && s.clmOwner r == owner

/-- CLM_ENTRY of a claim: its owner and master, pinned when made by the configuration load (R38). -/
def claimEntry (master owner : Nat) : Nat := bit (master == 15) * 2 ^ 31 + 2 ^ 30 + master * 2 ^ 20 + owner

/-- A claim is granted. -/
def State.grant (s : State) (master owner r : Nat) : State := s.wr (rClmEntry r) (claimEntry master owner)

/-- A refused request: CLM_LAST and CLM_NCONF (R41). -/
def State.refusedClaim (s : State) (master owner r : Nat) : State :=
  (s.wr rClmLast (r * 2 ^ 24 + owner * 2 ^ 16 + s.clmOwner r * 2 ^ 8 + master * 2 ^ 4)).countIn 0xFFFF rClmNconf 1

/-- What a command asks of a resource: a claim or a release, its master, its owner code and the resource. -/
structure ClaimAsk where
  claims : Bool
  master : Nat
  owner  : Nat
  res    : Nat
deriving DecidableEq, Repr

/-- The request that a write of CLM_REQ[n] makes (R41), if the master may make it. -/
def State.reqAsk (s : State) (m : Master) (n : Nat) (op owner res : Nat) : Option ClaimAsk :=
  if masterCode m = n ∧ s.masterUp m ∧ s.reach m (rClmReq n) = .ok ∧ (op = 1 ∨ op = 2) ∧ res < 20 then some ⟨op == 1, n, owner, res⟩
  else none

/-- The packet CLAIM would pass its checks (R57). -/
def State.claimPasses (s : State) (pk : Packet) : Bool :=
  s.ready pk && pkOpcode pk == 0x07 && !s.serialBlocked pk && fn01.contains pk.fn && s.mode == 1 && (badField pk fClaim).isNone

/-- The request that a waiting command will make of a resource (R38, R41). -/
def State.asks (s : State) (c : Instr) : Option ClaimAsk :=
  match c with
  | .clmClaim m n owner res => s.reqAsk m n 1 owner.toNat res.toNat
  | .clmRelease m n owner res => s.reqAsk m n 2 owner.toNat res.toNat
  | .registerWrite m off v =>
    if 0x140020 ≤ off ∧ off < 0x140034 ∧ off % 4 = 0 then
      s.reqAsk m ((off - 0x140020) / 4) (bits v.toNat 24 2) (bits v.toNat 16 8) (bits v.toNat 0 8)
    else none
  | .claim pk => if s.claimPasses pk then some ⟨pkU pk 0x20 1 == 1, 2, pkU pk 0x21 1, pkU pk 0x22 1⟩ else none
  | _ => none

/-- The request would release the claim that stands. -/
def State.frees (s : State) (a : ClaimAsk) : Bool :=
  !a.claims && s.clmHeld a.res && !s.clmPinned a.res && s.clmMaster a.res == a.master && s.clmOwner a.res == a.owner

/-- A release of the resource falls on this clock, behind its claim (R38). -/
def State.freedNow (s : State) (r : Nat) : Bool :=
  s.ties (fun c => match s.asks c with | some a => a.res == r && s.frees a | none => false)

/-- The claim of the resource by the lowest master below this one that falls on this clock (R38). -/
def State.claimRival (s : State) (master r : Nat) : Option ClaimAsk :=
  if s.clocked then
    (s.beforeTick.filterMap s.asks).foldl (fun best a =>
      if a.claims && a.res == r && decide (a.master < (best.map (·.master)).getD master) then some a else best) none
  else none

/-- A claim or a release of the resource is carried out ahead of its command (R38). -/
def State.claimAhead (s : State) (r entry : Nat) : State :=
  { s with dom := { s.dom with ahead := s.dom.ahead.filter (fun x => s.onCoreClock x.at_) ++ [⟨r, entry, s.tim.elapsed⟩] } }

/-- The command's claim or release has been carried out on this clock already (R38). -/
def State.doneAhead (s : State) (r entry : Nat) : Bool :=
  s.dom.ahead.any (fun x => x.res == r && x.entry == entry && s.onCoreClock x.at_)

/-- A claim (R37): STATUS of CLM_RESULT, and the state after it. Of a claim and a release on one clock the release takes effect first; of two
claims the lower master's (R38). -/
def State.claim (s : State) (master owner r : Nat) : Nat × State :=
  if s.clmHeld r then
    if s.rd (rClmEntry r) = claimEntry master owner ∧ s.doneAhead r (claimEntry master owner) then (0, s)
    else if s.freedNow r then (0, (s.claimAhead r (s.rd (rClmEntry r))).grant master owner r)
    else (1, s.refusedClaim master owner r)
  else
    match s.claimRival master r with
    | none => (0, s.grant master owner r)
    | some a => (1, ((s.claimAhead r (claimEntry a.master a.owner)).grant a.master a.owner r).refusedClaim master owner r)

/-- A release (R38): a pinned claim cannot be released, nor one made by another master or held by another owner. -/
def State.release (s : State) (master owner r : Nat) : Nat × State :=
  if s.doneAhead r (claimEntry master owner) ∧ s.rd (rClmEntry r) ≠ claimEntry master owner then (0, s)
  else if s.clmPinned r then (3, s.refusedClaim master owner r)
  else if !s.clmHeld r || !(s.clmMaster r == master) || !(s.clmOwner r == owner) then (2, s.refusedClaim master owner r)
  else (0, s.wr (rClmEntry r) 0)

/-- The reply of a request made for the host: OK, or CLAIM_CONFLICT with the resource, its owner and its master (R37). -/
def State.claimReply (s : State) (r status : Nat) : Reply :=
  if status = 0 then .ok 0
  else .plain 0x12 (r * 2 ^ 24 + s.clmOwner r * 2 ^ 16 + s.clmMaster r * 2 ^ 12) 0

/-- CLAIM (R37, R38). M2 makes the claims of the host (Table 16-1). -/
def execClaim (pk : Packet) (s : State) : Outcome :=
  .next (s.decidePk pk ⟨0x07, fn01, [1], fClaim⟩ fun t =>
    let r := pkU pk 0x22 1
    let o := pkU pk 0x21 1
    let (st, t1) := if pkU pk 0x20 1 = 1 then t.claim 2 o r else t.release 2 o r
    t1.complete pk (t1.claimReply r st))

/-- A request in CLM_REQ[n] (R41): only from master n. A resource that Table 2-7 does not list has no claim to decide, and the
request only clears DONE (log entry 29). An OWNER that is no code of Table 2-8 is held as it is asked for (log entry 130). -/
def State.clmRequest (s : State) (m : Master) (n r : Nat) (f : State → Nat × State) : Outcome :=
  s.regCmd m (rClmReq n) fun t =>
    if masterCode m ≠ n then t.access (rClmReq n)
    else if 20 ≤ r then t.setFlag (rClmResult n) 31 false
    else
      let (st, t1) := f t
      t1.wr (rClmResult n) (2 ^ 31 + t1.clmOwner r * 2 ^ 16 + t1.clmMaster r * 2 ^ 12 + st)

/-- A write of CLM_REQ[n] whose OP is 0 or 3 (R41): it asks for nothing, and clears DONE as every write of the register does. -/
def State.clmIgnored (s : State) (m : Master) (n : Nat) : Outcome :=
  s.regCmd m (rClmReq n) fun t =>
    if masterCode m ≠ n then t.access (rClmReq n) else t.setFlag (rClmResult n) 31 false

/-- CLM_CLAIM (R38). -/
def execClmClaim (m : Master) (n : Fin 5) (owner res : Byte) (s : State) : Outcome :=
  s.clmRequest m n res.toNat (fun t => t.claim n owner.toNat res.toNat)

/-- CLM_RELEASE (R38). -/
def execClmRelease (m : Master) (n : Fin 5) (owner res : Byte) (s : State) : Outcome :=
  s.clmRequest m n res.toNat (fun t => t.release n owner.toNat res.toNat)

end Sys2Proof.Machine
end

