-- ==== Sys2Proof/Machine/DmaOps.lean ====
section
/-! DEFINITION. The DMA channels' shared operations: descriptor fields, starting, halting and completing (R224–R226), and the SCN
interleave's settings (10). -/

namespace Sys2Proof.Machine

/-- A channel at reset. -/
def dmaFresh : DmaChan := ⟨0, [], [], 0, 0, 0, none, false⟩

/-- STATE of a channel: 0 IDLE, 1 RUN, 2 HALTED. -/
def State.dmaState (s : State) (n : Nat) : Nat := s.fld (rDmaStat n) 30 2
/-- N0 of the descriptor. -/
def State.dmaN0 (s : State) (n : Nat) : Nat := s.fld (rDmaCnt01 n) 0 16 + 1
/-- N1 of the descriptor. -/
def State.dmaN1 (s : State) (n : Nat) : Nat := s.fld (rDmaCnt01 n) 16 16 + 1
/-- N2 of the descriptor. -/
def State.dmaN2 (s : State) (n : Nat) : Nat := s.fld (rDmaCnt2 n) 0 16 + 1
/-- ESIZE of the descriptor. -/
def State.dmaEs (s : State) (n : Nat) : Nat := s.fld (rDmaCnt2 n) 16 6 + 1
/-- MODE of the espalier. -/
def State.espMode (s : State) (n : Nat) : Nat := s.fld (rDmaEsp n) 0 3
/-- log2 I of the espalier; values above 4 are taken as 4. -/
def State.espIlv (s : State) (n : Nat) : Nat := min 4 (s.fld (rDmaEsp n) 4 3)

/-- The settings that R225 turns away: a reserved MODE, or a run above its limit (R229). -/
def State.badSetup (s : State) (n : Nat) : Bool :=
  let n0 := s.dmaN0 n
  let run := n0 * s.dmaEs n
  match s.espMode n with
  | 0 => false
  | 1 => decide (32 < n0) || decide (n0 % 2 ^ s.espIlv n ≠ 0)
  | 2 => decide (4096 < run) || decide (n0 % 2 ^ s.espIlv n ≠ 0)
  | 3 => decide (4096 < run)
  | _ => true

/-- The channel record set. -/
def State.setChan (s : State) (n : Nat) (c : DmaChan) : State := { s with dma := { s.dma with chans := s.dma.chans.set n c } }

/-- The channel record. -/
def State.dmaChan (s : State) (n : Nat) : DmaChan := s.dma.chans.getD n dmaFresh

/-- A channel at the start of a descriptor: its credit and its last start stay. -/
def State.freshChan (s : State) (n : Nat) : State :=
  s.setChan n { s.dmaChan n with read := 0, run := [], buf := [], wrote := 0, reload := false }

/-! ### Credit (R223) -/

/-- RATE: 0 and values above 256 are taken as 256. -/
def State.dmaRate (s : State) (n : Nat) : Nat :=
  let r := s.fld (rDmaDctl n) 0 9
  if r = 0 ∨ 256 < r then 256 else r

/-- The credit of a channel now: RATE bytes for every core clock of 1 ns, up to 512. -/
def State.creditNow (s : State) (n : Nat) : Nat :=
  let c := s.dmaChan n
  min 512 (c.credit + s.dmaRate n * (s.tim.elapsed / 65536 - c.at_ / 65536))

/-- The credit is brought up to now, less `b` bytes: before RATE changes, and as a read burst issues. -/
def State.settleCredit (s : State) (n b : Nat) : State :=
  s.setChan n { s.dmaChan n with credit := s.creditNow n - b, at_ := s.tim.elapsed }

/-! ### Loads on channel 2 (R219) -/

/-- The start of a slot's window (Table 7-6). -/
def slotBase (n : Nat) : Nat :=
  if n < 2 then 0x800000 + 0x180000 * n else if n < 4 then 0xB10000 + 0x40 * (n - 2) else 0xB20000 + 0x10000 * (n - 4)

/-- The settings of channel 2 for the load of slot `n` by a packet: CAL_LOAD's of its table (10); those of the other loads, and of a
calibration in table order, follow that table (log entry 156). `len` is the length of a kernel or facet record. -/
def loadRegs (n len : Nat) (pk : Packet) : List (Nat × Nat) :=
  let a := pkU pk 0x20 8
  let cal := n < 2
  let src := if cal then a + 0x40 else a
  let step := if cal then 6 else 16
  [(rDmaDctl 2, 2 * 2 ^ 28 + 2 ^ 25 + 2 ^ 23 + 8), (rDmaSrcLo 2, src % 2 ^ 32), (rDmaSrcHi 2, src / 2 ^ 32 % 2 ^ 32),
   (rDmaDstLo 2, slotBase n), (rDmaDstHi 2, 0),
   (rDmaCnt01 2, if cal then 511 * 2 ^ 16 + 511 else len / 16 - 1), (rDmaCnt2 2, (step - 1) * 2 ^ 16),
   (rDmaSs0 2, step), (rDmaSs1 2, if cal then 3072 else 0), (rDmaSs2 2, 0),
   (rDmaDs0 2, step), (rDmaDs1 2, if cal then 3072 else 0), (rDmaDs2 2, 0),
   (rDmaEsp 2, if cal ∧ pkU pk 0x2A 1 = 1 then 3 else 0), (rDmaEvmSel (12 + n / 2), 2 ^ 31 + 2)]

/-- The bytes of the facet record at an address, by the F it holds (R181, R251; log entry 41). -/
def State.facetLen (s : State) (a : Nat) : Nat := 0x40 + 16 * getU (s.jsRead (a + 2) 1) 0 1

/-- The length of the record that a packet loads into slot `n`. -/
def State.recordLen (s : State) (n : Nat) (pk : Packet) : Nat := if n < 4 then 0x40 else s.facetLen (pkU pk 0x20 8)

/-- Channel 2 starts on the load of slot `n`: its done pulse goes to the slot's swap sink alone. -/
def State.loadBegins (s : State) (n : Nat) (pk : Packet) : State :=
  let others := [12, 13, 14].filter (fun k => s.fld (rDmaEvmSel k) 0 6 == 2)
  let s1 := others.foldl (fun t k => t.setFlag (rDmaEvmSel k) 31 false) (s.settleCredit 2 0)
  let s2 := (loadRegs n (s.recordLen n pk) pk).foldl (fun t p => t.wr p.1 p.2) s1
  let s3 := (((s2.wr (rDmaStat 2) 0).wr (rDmaCrc 2) 0).freshChan 2).setFld (rDmaStat 2) 30 2 1
  { s3 with dma := { s3.dma with load := some n } }

/-- The next load that waits takes channel 2. -/
def State.loadNext (s : State) : State :=
  let t : State := { s with dma := { s.dma with load := none } }
  match t.dma.loads with
  | [] => t
  | n :: rest =>
    let u : State := { t with dma := { t.dma with loads := rest } }
    match (u.gen.slots.getD n ⟨.empty, none, 0⟩).fill with
    | some f => u.loadBegins n f.pk
    | none => u

/-- A load asks for channel 2. -/
def State.loadAsks (s : State) (n : Nat) (pk : Packet) : State :=
  if s.dma.load.isNone then s.loadBegins n pk else { s with dma := { s.dma with loads := s.dma.loads ++ [n] } }

/-- The load of slot `n` is over, `done` or not: a channel that is done is IDLE with its descriptor counted, and its done pulse is the one that
has reached the swap sink. -/
def State.loadEnds (s : State) (n : Nat) (done : Bool) : State :=
  if s.dma.load ≠ some n then { s with dma := { s.dma with loads := s.dma.loads.filter (fun k => k != n) } }
  else
    let s1 := (s.setFld (rDmaStat 2) 29 3 0).freshChan 2
    let s2 := if done && s.dmaState 2 == 1 then s1.setFld (rDmaStat 2) 0 16 1 else s1
    { s2 with dma := { s2.dma with pulses := s2.dma.pulses.erase 2 } }.loadNext

/-- The admissions that wait for a generation of a kind (R154). -/
def State.waitsFor (s : State) (kind gen : Nat) (w : Waiting) : Bool :=
  w.stripe.gen == gen && (match s.jobOf w.stripe.job with | some j => j.scan == (kind == 2) | none => false)

/-- A fill has failed or was retired: the admissions that wait for it are refused ABSENT (R154). -/
def State.absent (s : State) (kind gen : Nat) : State :=
  let mine := s.lay.waiting.filter (s.waitsFor kind gen)
  let s1 := mine.foldl (fun t w => t.complete w.pk (.refuse 0x14 1 gen 0)) s
  { s1 with lay := { s1.lay with waiting := s1.lay.waiting.filter (fun w => !mine.contains w) } }

/-- The reply of a command whose channel halted (R226): `base` is what its blocks count from. -/
def haltReply (n cause base addr : Nat) : Reply :=
  if cause = 1 then notResident base (max (addr / 64 * 64) base) else .plain 2 (0x02 * 2 ^ 24 + n * 2 ^ 8 + cause) 0

/-- Channel 2 has halted while a command ran on it (R226): the movement aborts the channel, frees the slot that it was filling, and
the command completes. -/
def State.loadHalts (s : State) (cause addr : Nat) : State :=
  match s.dma.load with
  | none => s
  | some n =>
    match (s.gen.slots.getD n ⟨.empty, none, 0⟩).fill with
    | none => s.loadEnds n false
    | some f =>
      let s1 := ((s.loadEnds n false).freeSlot n).absent (n / 2) (s.genAt n)
      s1.complete f.pk (haltReply 2 cause (pkU f.pk 0x20 8) addr)

/-! ### Halting and starting -/

/-- The channel halts (R226): its burst's address, direction and cause are latched, its halt event pulses, and DMA_BUSERR is
raised. -/
def State.haltChan (s : State) (n : Nat) (wr : Bool) (cause addr : Nat) : State :=
  let s1 := ((s.setFld (rDmaStat n) 30 2 2).setFlag (rDmaStat n) 28 wr).setFld (rDmaStat n) 24 4 cause
  let s2 := (s1.wr (rDmaErraLo n) (addr % 2 ^ 32)).wr (rDmaErraHi n) (addr / 2 ^ 32 % 2 ^ 32)
  ((s2.portServed 2).pulse (12 + n)).raise (srcDmaBusErr n)

/-- A channel halts; one that runs a command's load ends it (R226). -/
def State.dmaHaltAt (s : State) (n : Nat) (wr : Bool) (cause addr : Nat) : State :=
  let t := s.haltChan n wr cause addr
  if n = 2 then t.loadHalts cause addr else t

/-- The halves of the interval that channel 3 moves: the output half that the renderer has finished, and the line buffer's free
half (10, log entry 52). -/
def State.scnHalves (s : State) (n : Nat) : State :=
  if n = 3 ∧ s.fld (rDmaDctl 3) 30 2 = 3 then
    let h := s.scan.moved % 2
    (s.wr (rDmaSrcLo 3) (h * 0x80000)).wr (rDmaDstLo 3) (0x1000000 + h * 0x80000)
  else s

/-- A descriptor begins, or halts the channel with BAD_SETUP (R225). -/
def State.beginDesc (s : State) (n : Nat) : State :=
  let s1 := ((s.settleCredit n 0).freshChan n).setFld (rDmaStat n) 30 2 1
  if s1.badSetup n then s1.dmaHaltAt n false 6 0 else s1.scnHalves n

/-- An idle channel starts (R225): DONE and the CRC begin anew, and no error stands. -/
def State.startChan (s : State) (n : Nat) : State :=
  ((s.wr (rDmaStat n) 0).wr (rDmaCrc n) 0).beginDesc n

/-- The other kind of start has come on this clock: a GO and a pulse give one (R225). -/
def State.sameStart (s : State) (n : Nat) (byPulse : Bool) : Bool :=
  match (s.dmaChan n).began with
  | some (t, p) => p != byPulse && s.onCoreClock t
  | none => false

/-- A start arrives, by GO or by a pulse (R225): a GO and a pulse on the same clock give one; while the channel is RUN or HALTED it
pends. -/
def State.dmaStart (s : State) (n : Nat) (byPulse : Bool) : State :=
  if s.sameStart n byPulse ∨ (s.dmaState n ≠ 0 ∧ s.flag (rDmaStat n) 29) then s
  else
    let t := s.setChan n { s.dmaChan n with began := some (s.tim.elapsed, byPulse) }
    if t.dmaState n = 0 then t.startChan n else t.setFlag (rDmaStat n) 29 true

/-- The channel returns to IDLE, and its pending start begins (R225). -/
def State.dmaIdle (s : State) (n : Nat) : State :=
  let pend := s.flag (rDmaStat n) 29
  let s1 := (s.setFld (rDmaStat n) 29 3 0).freshChan n
  if pend then s1.startChan n else s1

/-- An abort (R225): PEND clears, and no done pulse comes. -/
def State.dmaStop (s : State) (n : Nat) : State := ((s.setFld (rDmaStat n) 29 3 0).freshChan n).portServed 2

/-- UPLOAD's transfer on channel 0 (R219): host memory to the job store. -/
def uploadRegs (pk : Packet) : List (Nat × Nat) :=
  let h := pkU pk 0x20 8
  let a := pkU pk 0x28 8
  [(rDmaDctl 0, 2 ^ 30 + hfunc pk.fn * 2 ^ 26 + 2 ^ 23), (rDmaSrcLo 0, h % 2 ^ 32), (rDmaSrcHi 0, h / 2 ^ 32),
   (rDmaDstLo 0, a % 2 ^ 32), (rDmaDstHi 0, a / 2 ^ 32)]

/-- UPLOAD's transfer has run, and left the CRC of its bytes. -/
def State.uploadRan (s : State) (pk : Packet) (crc : Nat) : State := s.duty 0 (uploadRegs pk ++ [(rDmaCrc 0, crc)])

/-- UPLOAD, once its parameters stand (R60): `host` is what host memory answers. A read that fails, or answers too few bytes, halts
channel 0: the movement aborts it, and the command says so (R226). -/
def State.upload (s : State) (pk : Packet) (host : HostRead) : State :=
  let a := pkU pk 0x28 8
  let n := pkU pk 0x30 8
  let fails (t : State) : State :=
    ((((uploadRegs pk).foldl (fun t p => t.wr p.1 p.2) t).haltChan 0 false 2 (pkU pk 0x20 8)).dmaStop 0).complete pk (haltReply 0 2 0 0)
  if !s.memReady then s.complete pk (.refuse 0x11 5 0 0)
  else
    match s.destRefused a n with
    | some r => s.complete pk r
    | none =>
      match host with
      | .failed => fails (s.removeRegions a n)
      | .bytes bs =>
        if bs.length < n then fails (s.removeRegions a n)
        else
          s.throughPorts pk [(2, a, n)] fun s =>
            let t := s.uploadRan pk (crc32c (bs.take n))
            if crc32c (bs.take n) ≠ pkU pk 0x38 4 then
              ((t.removeRegions a n).storeWrite a (bs.take n)).complete pk (.refuse 0x11 2 0 0)
            else (t.resident a (bs.take n)).complete pk (.ok 0)

/-- Intervals of the stripe that the renderer has finished. -/
def State.rendered (s : State) (j : Job) : Nat := s.foot.nextLine / max 1 j.chans

/-- At the COMMIT edge of a SCAN stripe the movement sets channel 3 for the interleave and connects its events, and starts it
for what is rendered already (10, log entry 52). -/
def State.scnSetup (s : State) (x : Stripe) : State :=
  match s.jobOf x.job with
  | none => s
  | some j =>
    if !j.scan ∨ !s.scnPort then s
    else
      let regs : List (Nat × Nat) :=
        [(rDmaDctl 3, 3 * 2 ^ 30 + 3 * 2 ^ 28 + 2 ^ 25), (rDmaSrcHi 3, 0), (rDmaDstHi 3, 0),
         (rDmaCnt01 3, (j.pixels / 64 - 1) * 2 ^ 16 + (j.chans - 1)), (rDmaCnt2 3, 63 * 2 ^ 16),
         (rDmaSs0 3, j.pixels), (rDmaSs1 3, 64), (rDmaSs2 3, 0),
         (rDmaEsp 3, 2 ^ 7 + min 4 (s.apFld rScnCfg 0 3) * 2 ^ 4 + 1),
         (rDmaEvmSel 3, 2 ^ 31 + 25), (rDmaEvmSel 16, 2 ^ 31 + 3)]
      let s1 := regs.foldl (fun t p => t.wr p.1 p.2) ((s.dmaStop 3).settleCredit 3 0)
      let k := s.rendered j
      let s2 := if 1 ≤ k then s1.dmaStart 3 true else s1
      if 2 ≤ k then s2.dmaStart 3 true else s2

end Sys2Proof.Machine
end

