-- ==== Sys2Proof/Machine/Fit.lean ====
section
/-! DEFINITION. The escapement's fit over the last eight samples (R166), the position it gives, and the codes of Table 8-9. -/

namespace Sys2Proof.Machine

/-! ### The fit -/

/-- Σ w(i)·v_i over the eight samples, oldest first (R166). -/
def fitSum (w : Nat → Int) (vs : List Int) : Int := sumI ((List.range 8).map (fun i => w i * vs.getD i 0))

/-- Sv of R166. -/
def fitSv (vs : List Int) : Int := fitSum (fun i => 2 * (i : Int) - 7) vs
/-- Sy of R166: 12 × the fitted position at t_last. -/
def fitSy (vs : List Int) : Int := fitSum (fun i => (i : Int) - 2) vs

/-- The y values of the samples, oldest first. -/
def State.fitYs (s : State) : List Int := (s.esc.samples.map (·.y)).reverse
/-- The x values of the samples, oldest first. -/
def State.fitXs (s : State) : List Int := (s.esc.samples.map (·.x)).reverse

/-- The fit is valid (R166). -/
def State.fitValid (s : State) : Bool := decide (8 ≤ s.esc.entered) && decide (0 < fitSv s.fitYs)

/-- TS in force: 100 ns for an encoder source (R163), else ESC_TS taken as the nearest limit. -/
def State.escTs (s : State) : Nat := if s.apFld rEscCfg 0 2 = 0 then clampN (s.ap rEscTs) 3276800 13107200 else 6553600

/-- SLIPMAX in pu (R172, ESC_SLIPMAX) for a pitch. -/
def State.slipMax (s : State) (pitch : Nat) : Nat :=
  let v := s.apFld rEscSlipmax 0 24
  if v = 0 then 4 * pitch else min v 2097088

/-- ŷ(t)·84·TS (R166), of the samples `vs`. -/
def State.fitAt (s : State) (vs : List Int) (t : Int) : Int :=
  7 * s.escTs * fitSy vs + fitSv vs * (t - s.esc.tLast)

/-- STATE of the escapement (Table 8-9). Between its last shot's fire and its completion a stripe pass shows Tracking. In SCAN a
blanked remainder shows to the end of its interval (log entry 148). -/
def State.escState (s : State) : Nat :=
  match s.mode, s.esc.firing with
  | 2, none => 1
  | 2, some f =>
    if f.ended then 4 else if f.pend = 0 then 2
    else match s.stripeOf f.handle with
      | some x => if f.fired < x.lines then 3 else 1
      | none => 1
  | 3, none => if s.scan.rest then 4 else 7
  | 3, some f => if f.ended then 4 else if s.scan.started then 3 else 2
  | 4, _ => 6
  | 5, _ => 5
  | _, _ => 0

/-- The fit's validity shows in ESC_STAT. -/
def State.showFit (s : State) : State := s.setFlag rEscStat 9 s.fitValid

/-- Eight samples have entered: the fitted position Sy/12 stands, whether or not the stage moves (R166). -/
def State.fitted (s : State) : Bool := decide (8 ≤ s.esc.entered)

/-- The fitted position at the COMMIT edge into CHECK is kept (R177). -/
def State.keepHome (s : State) : State :=
  { s with esc := { s.esc with homeX := fitSy s.fitXs, homeY := fitSy s.fitYs, homeOk := s.fitted } }

/-- The interval in which a remainder was blanked is over (Table 8-9, log entry 148). -/
def State.restDone (s : State) : State := { s with scan := { s.scan with rest := false } }

/-- The first fine-delay step at or after a time (R161): fire instants fall on SHOT clock edges plus steps of 640 (log entry 147). -/
def fineStep (t : Int) : Int := 640 * ((t + 639) / 640)

end Sys2Proof.Machine
end

