-- ==== Sys2Proof/Machine/RunSync.lean ====
section
/-! DEFINITION. Mode changes and stripe starts on RUN_SYNC (R25–R28, R42–R46, R67), and the mode commands. -/

namespace Sys2Proof.Machine

/-! ### Entry to SERVICE -/

/-- CORE's modulation stops (R274). -/
def State.stopSpread (s : State) : State :=
  if s.flag rClkSsc 30 then (s.setFlag rClkSsc 30 false).emit (.spread 0 0) else s

/-- CORE spreads as CLK_SSC says (R274): DEPTH and FMOD are taken as their nearest limits. -/
def State.startSpread (s : State) : State :=
  if s.flag rClkSsc 31 then
    (s.setFlag rClkSsc 30 true).emit (.spread (min 50 (s.fld rClkSsc 8 8)) (clampN (s.fld rClkSsc 0 8) 30 33))
  else s.stopSpread

/-- An open step leads into ARRAY, SCAN or CHECK: its validation has stopped the modulation, or will (R274). -/
def State.spreadBarred (s : State) : Bool :=
  match s.run.cur with
  | some c => (match c.cmd with | some k => k.handle == 0 && exposing k.target | none => false) && c.phase != StepPhase.invalid &&
      c.phase != StepPhase.guard && c.phase != StepPhase.guardDone
  | none => false

/-- Entry to SERVICE (R343, R344, R307, R325): units stopped at an uncorrectable word, and cores held by MOVE_WDOG run again, the time charged to the part since an internal raise
ends, and from HOLD the rails of policy OFF_RESTART start again and the line is released. -/
def State.enterService (s : State) : State :=
  let hold := s.mode == 5
  let s1 := (s.setFld rGlbMode 29 3 1).startSpread
  let s2 := { s1 with
    mbx := { s1.mbx with coreHeld := [false, false, false], aliveAt := List.replicate 3 s1.tim.elapsed }
    flt := { s1.flt with stopped := [] } }
  let s3 := match s2.flt.outage with
    | some t => { (s2.charge (s2.tim.elapsed - t - s2.flt.credit)) with
        flt := { (s2.charge (s2.tim.elapsed - t - s2.flt.credit)).flt with outage := none, credit := 0 } }
    | none => s2
  let s4 := if hold then
      let t := (s3.wr rFltHold 0).serviceRails
      { t with flt := { t.flt with allstop := false }, run := { t.run with pull := false } }
    else s3
  s4.aliveCheck

/-! ### Validation -/

/-- The transition stands in Table 2-2 and suits the part (R26, R27, R33). -/
def State.transitionOk (s : State) (target : Nat) : Bool :=
  (match s.mode with
   | 1 => target == 2 || target == 3 || target == 4
   | 2 => target == 1 || target == 4
   | 3 => target == 1
   | 4 => target == 1 || target == 2
   | _ => false) &&
  (target == 1 || !s.flag rGlbCfg 31) &&
  (target == 1 || (if s.scnPort then target == 3 else !(target == 3)))

/-- Every ball that the escapement's written settings use is claimed for that use (R15, R158, R178): encoder input 1 in every mode,
the SOS inputs in SCAN. -/
def State.ballsOk (s : State) (target : Nat) : Bool :=
  (decide (s.fld rEscCfg 0 2 ≠ 2) || (s.ownedBy 0 0x32 && s.ownedBy 1 0x32)) &&
  (decide (target ≠ 3) || (s.ownedBy 0 0x31 && (s.fld rEscCfg 2 2 == 0 || s.ownedBy 1 0x31)))

/-- The escapement's settings are usable (R158): no reserved value in force, and every ball that the written ones use claimed for its
use. -/
def State.escOk (s : State) (target : Nat) : Bool :=
  decide (s.apFld rEscCfg 0 2 ≠ 3) && decide (s.apFld rEscCfg 2 2 < 2) && s.ballsOk target

/-- Generator g is locked (R278). -/
def State.clkLocked (s : State) (g : Nat) : Bool := s.fld (rClkPll g) 30 2 == 2

/-- A roster member, this part included, shows DUP (R270). -/
def State.dupShown (s : State) : Bool :=
  s.net.dup || s.net.peers.any (fun p => p.dup && s.net.roster.contains p.idx)

/-- What every step into ARRAY, SCAN or CHECK and every stripe start needs (R158, R278, R306, R338). -/
def State.exposeOk (s : State) (target : Nat) : Bool :=
  s.escOk target && s.clkLocked 5 && (s.scnPort || s.clkLocked 3) &&
  rails.all (fun n => !s.railUsed n || s.railGood n) && !s.anySev 2

/-- WDMAX in ns, taken as the nearest limit. -/
def State.wdMax (s : State) : Nat := clampN (s.fld rBalWdog 0 11) 16 1024

/-- A lane in use has lost block lock by the last HEALTH block (R205). LOCK shows the physical lane that carries the logical
one (Table 9-5). -/
def State.laneLost (s : State) : Bool :=
  (List.range 64).any (fun l => !bitAt (s.fld (rBalPlate (l / 16)) 16 16) (l % 16))

/-- P_f of R182 in 2^-16 ns. -/
def pixPeriod (pixp : Nat) (ptrim : Int) : Int :=
  roundHalfEven (clampN pixp 327680 6553600 * (2 ^ 24 + ptrim)) (2 ^ 24)

/-- W of R179: the half-width of the SOS window. -/
def sosHalf (scfg tbar : Nat) : Nat := clampN (bits scfg 0 10) 1 511 * tbar / 1024

/-- The facets of a slot satisfy R182 for lines of `pixels`. -/
def State.facetsOk (s : State) (gen pixels : Nat) : Bool :=
  match s.slotOf 2 gen with
  | none => false
  | some n =>
    match (s.gen.slots.getD n ⟨.empty, none, 0⟩).table with
    | .facet f =>
      let tb := tBar s.scan.intervals
      let w := sosHalf (s.ap rEscScfg) tb
      let sd := signed 32 (s.rd rEscSdly)
      (f.fdly.length == 1 || s.fld rEscCfg 2 2 == 1) &&
      (f.fdly.zip f.ptrim).all (fun p =>
        decide (6553600 ≤ sd + p.1) &&
        decide (sd + p.1 + pixels * pixPeriod (s.rd rEscPixp) p.2 < (tb : Int) - w))
    | _ => false

/-- The arm check of a stripe (R67, R182, R198, R205, R206). -/
def State.armOk (s : State) (h : Nat) : Bool :=
  match s.stripeOf h with
  | none => false
  | some x =>
    match s.jobOf x.job with
    | none => false
    | some j =>
      x.phase == StripePhase.admitted && (j.scan == (s.mode == 3)) && (s.mode == 2 || s.mode == 3) &&
      !(s.lay.stripes.any (fun y => y.phase == StripePhase.armed || y.phase == StripePhase.started)) &&
      (if j.scan then
        s.flag rEscStat 11 && s.facetsOk x.gen j.pixels &&
          decide (2 ^ min 4 (s.fld rScnCfg 0 3) ≤ j.chans)
      else
        s.fld rBalCut 0 16 == 0 &&
        decide (widthOf (s.rd rBalStb) * 640 ≤ (s.wdMax - 16) * 65536) &&
        decide (x.rate ≤ rateCap (s.fld rBalCfg 0 2)) && !s.laneLost)

/-- How a step command fails validation (R43): none; 0x02 for an arm check (R67), 0x13 otherwise. -/
def State.stepFails (s : State) (c : StepCmd) : Option Nat :=
  if c.handle ≠ 0 then
    if !s.armOk c.handle then some 0x02
    else if s.dupShown || !s.exposeOk s.mode || !s.aliveLead then some 0x13
    else none
  else if !s.transitionOk c.target || s.dupShown then some 0x13
  else if !(if c.target = 1 then s.ballsOk 1 else s.exposeOk c.target) then some 0x13
  else none

/-! ### Opening and closing a step -/

/-- The queued command with the earliest t_open. -/
def earliest : List StepCmd → Option StepCmd
  | [] => none
  | c :: t => match earliest t with
    | none => some c
    | some d => if d.tOpen < c.tOpen then some d else some c

/-- A queued command's step opens (R43): the part pulls RUN_SYNC low and begins validation; a stripe is armed from here (R67). -/
def State.openStep (s : State) (c : StepCmd) : State :=
  let bad := s.stepFails c
  let o : OpenStep := ⟨some c, s.now40, 0, if bad.isSome then .invalid else .validating, [], bad.getD 0, false⟩
  let s1 := if bad.isNone ∧ c.handle ≠ 0 then s.updStripe c.handle (fun x => { x with phase := .armed }) else s
  { s1 with run := { s1.run with cur := some o, pull := true, line := false,
                                 queue := s1.run.queue.filter (fun d => !(d == c)) } }

/-- The next step opens if its t_open has come (R42). -/
def State.openNext (s : State) : State :=
  match s.run.cur, earliest s.run.queue with
  | none, some c => if c.tOpen ≤ s.now40 ∧ s.mode ≠ 0 ∧ s.mode ≠ 5 then s.openStep c else s
  | _, _ => s

/-- The closing rise: the step counter advances, and the next step may open (R42, R45). -/
def State.closeStep (s : State) : State :=
  { s with run := { s.run with cur := none, step := s.run.step + 1#32, closedAt := s.tim.elapsed, line := true } }.openNext

/-- T_OPEN_REACHED (R42, R43): while a step is open, the command waits until it closes. -/
def execTOpenReached (s : State) : Outcome :=
  match earliest s.run.queue with
  | none => .next s
  | some c =>
    if s.mode = 0 ∨ s.mode = 5 then .next s
    else if s.run.cur.isNone then .next (s.openStep c)
    else .next { s with run := { s.run with
      queue := s.run.queue.map (fun d => if d == c then { d with tOpen := min d.tOpen s.now40 } else d) } }

/-- RUN_SYNC_FALL (R18, R43): the next command's step opens if its t_open is no more than 1 ms ahead, else an unarmed step does. In reset no
step opens. -/
def execRunSyncFall (s : State) : Outcome :=
  if s.mode = 0 ∨ s.mode = 5 ∨ s.dom.resetting = 2 ∨ !s.dom.main then .next { s with run := { s.run with line := false } }
  else if s.run.cur.isSome then .next { s with run := { s.run with line := false } }
  else
    let unarmed : State := { s with run := { s.run with cur := some ⟨none, s.now40, 0, .unarmed, [], 0, false⟩, pull := true, line := false } }
    match earliest s.run.queue with
    | some c => if c.tOpen ≤ s.now40 + 1000000 * 2 ^ 40 then .next (s.openStep c) else .next unarmed
    | none => .next unarmed

/-- CORE still spreads, and the step opens into an exposing mode: the part holds RUN_SYNC until the modulation has stopped
(R274). -/
def State.spreadHolds (s : State) (c : OpenStep) : Bool :=
  s.flag rClkSsc 30 && (match c.cmd with | some k => exposing k.target | none => false)

/-- ARM_DONE (R43): a step that validated has loaded its shadow, and the part releases the line. -/
def execArmDone (s : State) : Outcome :=
  match s.run.cur with
  | some c => if c.phase == StepPhase.validating && !s.spreadHolds c then
      .next { s with run := { s.run with cur := some { c with phase := .released, armed := true }, pull := false } } else .next s
  | none => .next s

/-- ARMED_EDGE (R43, R45): the step counter advances (Table 2-10). -/
def execArmedEdge (s : State) : Outcome :=
  match s.run.cur with
  | some c => if c.phase == StepPhase.released then
      .next { s with run := { s.run with cur := some { c with phase := .commitWait, armedAt := s.now40 },
                                         step := s.run.step + 1#32, line := true } } else .next s
  | none => .next s

/-- COMMIT_STEP_OPEN (R44): 1 µs after the ARMED edge the part pulls the line low; its commit step opens at once, or at the end
of the stripe pass or CHECK run in progress. -/
def execCommitStepOpen (s : State) : Outcome :=
  match s.run.cur with
  | some c => if c.phase == StepPhase.commitWait then
      .next ({ s with run := { s.run with pull := true, line := false } }.commitReady) else .next s
  | none => .next s

/-- A stripe starts at its COMMIT edge (R67, R168): the escapement waits for the stage. A stripe cancelled meanwhile starts
nothing. -/
def State.startStripe (s : State) (h : Nat) (pk : Packet) : State :=
  match s.stripeOf h with
  | none => s
  | some x =>
    let n := match s.jobOf x.job with | some j => j.n | none => 0
    let s0 := (((s.flushTail.sparesAnew.footFor h).wr rEscShot 0xFFFFFFFF).setFld rDosStat 16 5 n).setFld rDosStat 12 4 x.pass
    let s1 := s0.updStripe h (fun y => { y with phase := .started, armPk := some pk })
    let t : State := { s1 with
      esc := { s1.esc with firing := some ⟨h, none, 0, [], 0, 0, 0, false, s.ends x⟩ }
      scan := { s1.scan with interval := 0, started := false, rest := false, run := none }
      clk := { s1.clk with gated := false }
      bal := { s1.bal with times := [], risen := [], fell := [], full := 0, late := [], framed := 0, status := [], run := none, tail := none }
      dose := { s1.dose with heat := [], q := [], shots := [], values := [], adds := [], nextKernel := true, noLive := [],
                             nlNext := 0 } }
    t.scnSetup x

/-- The mode changes at its COMMIT edge. CHECK runs that have not begun end with CHECK mode (log entry 43). -/
def State.changeMode (s : State) (target : Nat) : State :=
  let s1 := s.gen.queue.foldl (fun t pk => t.complete pk (.plain 0x04 0 0)) { s.restDone with gen := { s.gen with queue := [] } }
  if target = 1 then s1.enterService
  else
    let s2 := if target = 4 then
        { s1.keepHome with gen := { s1.keepHome.gen with checkFrom := s1.cmd.nextId } } else s1
    ((s2.setFld rGlbMode 29 3 target).stopSpread).aliveCheck

/-- UNARMED_STEP_END (R43): after 100 ms the part releases the line. -/
def execUnarmedStepEnd (s : State) : Outcome :=
  match s.run.cur with
  | some c => if c.phase == StepPhase.unarmed then
      .next { s with run := { s.run with cur := some { c with phase := .unarmedReleased }, pull := false } } else .next s
  | none => .next s

/-- The edge that the step under way awaits comes on this clock, behind this command (R45, R342). -/
def State.edgeTies (s : State) : Bool :=
  match s.run.cur with
  | none => false
  | some c => (c.phase == StepPhase.released && s.ties (· == .armedEdge)) || (c.phase == StepPhase.applied && s.ties (· == .commitEdge))

/-- WINDOW_EXPIRY (R45): the part pulls the line for the guard and restores what it had; the laggards are those of this
instant. A stripe stays admitted (R67). An edge on its clock is in time (R342). -/
def execWindowExpiry (s : State) : Outcome :=
  match s.run.cur with
  | none => .next s
  | some c =>
    let inArm := c.phase == StepPhase.validating || c.phase == StepPhase.invalid || c.phase == StepPhase.released
    let inCommit := c.phase == StepPhase.commitWait || c.phase == StepPhase.applied
    if s.edgeTies then .next s
    else if inArm || inCommit then
      let mask := if c.phase == StepPhase.invalid && c.detail == 0x02 then 2 ^ 64 else s.laggards inCommit
      let s1 := match c.cmd with
        | some k => s.updStripe k.handle (fun x => if x.phase == StripePhase.armed then { x with phase := .admitted } else x)
        | none => s
      let s2 := if c.phase == StepPhase.applied then { s1 with applied := c.saved } else s1
      .next { s2 with run := { s2.run with cur := some { c with phase := .guard, detail := mask }, pull := true, line := false } }
    else .next s

/-- GUARD_END (R45): the part releases the line, and the command completes: BAD_PARAM for a failed arm check (R67), MODE_SPLIT
with the laggards otherwise. -/
def execGuardEnd (s : State) : Outcome :=
  match s.run.cur with
  | none => .next s
  | some c =>
    if c.phase == StepPhase.guard then
      let s1 := { s with run := { s.run with cur := some { c with phase := .guardDone }, pull := false } }
      match c.cmd with
      | none => .next s1
      | some k =>
        .next (s1.complete k.pk (if c.detail = 2 ^ 64 then .badParam 0x20
          else .plain 0x13 (c.detail % 2 ^ 32) (c.detail / 2 ^ 32)))
    else .next s

/-- STEP_CLOSING_RISE (R43, R45): the first rise after the part's own release closes an unarmed step or a failed one. -/
def execStepClosingRise (s : State) : Outcome :=
  match s.run.cur with
  | some c => if c.phase == StepPhase.guardDone || c.phase == StepPhase.unarmedReleased then .next s.closeStep else .next s
  | none => .next s

/-- RUN_SYNC_LONG_LOW (R46). A rise on its clock is in time (R342). -/
def execRunSyncLongLow (s : State) : Outcome :=
  if exposing s.mode && s.run.cur.isNone && !s.ties (· == .stepClosingRise) then .next (s.enterHold 3 0 false) else .next s

/-! ### Commands -/

/-- The timekeeper at the packet's fetch. -/
def State.fetchedAt (s : State) (pk : Packet) : Nat :=
  match s.startedOf pk with
  | some e => e.fetched
  | none => s.now40

/-- A step command waits for its t_open (R42); T_OPEN lies at least 100 µs after the fetch (Table 3-6). -/
def State.queueStep (s : State) (pk : Packet) (handle target : Nat) : State :=
  let t := time40 (slice pk.bytes 0x30 16)
  if t < s.fetchedAt pk + 100000 * 2 ^ 40 then s.complete pk (.badParam 0x30)
  else
    let wa := pkU pk 0x24 4
    let wc := pkU pk 0x28 4
    let c : StepCmd := ⟨pk, handle, target, t, if wa = 0 then 2000 else wa, if wc = 0 then 50000 else wc⟩
    { s with run := { s.run with queue := s.run.queue ++ [c] } }

/-- MODE_ARM (R26, R42): a transition outside Table 2-2 is refused when the command is decided (log entry 31), before T_OPEN's
lead is tested (log entry 131). In HOLD the mode check of R57 comes first (R69; log entry 132). -/
def execModeArm (pk : Packet) (s : State) : Outcome :=
  .next (s.decidePk pk ⟨0x02, [.h0], modesRun, fModeArm⟩ fun t =>
    let target := pkU pk 0x20 1
    if !t.transitionOk target then t.complete pk (.plain 0x15 0 0) else t.queueStep pk 0 target)

/-- STRIPE_ARM (R67): the handle is tested by the arm check of its step. -/
def execStripeArm (pk : Packet) (s : State) : Outcome :=
  .next (s.decidePk pk ⟨0x12, [.h0], [2, 3], fStripeArm⟩ fun t =>
    let h := pkU pk 0x20 4
    t.queueStep pk (if h = 0 then 2 ^ 32 else h) 0)

/-- REASON of a HOLD is logged (Table 3-4, log entry 120). -/
def State.logReason (s : State) (r : Nat) : State := { s with flt := { s.flt with reasons := s.flt.reasons ++ [r] } }

/-- HOLD (R69, R339): REASON is the host's own, and is logged. -/
def execHold (pk : Packet) (s : State) : Outcome :=
  .next (s.decidePk pk ⟨0x03, fnAll, modesAny, [anyField 0x20 4]⟩ fun t =>
    ((t.logReason (pkU pk 0x20 4)).enterHold 2 0 false).complete pk (.ok 0))

end Sys2Proof.Machine
end

