-- ==== Sys2Proof/Machine/Render.lean ====
section
/-! DEFINITION. The layout expander and the renderer: placements and orientations (R90–R92), bins (R95, R98), slices and
coverage (R100–R103), and T (R104–R107, R122). -/

namespace Sys2Proof.Machine

/-! ### Primitives -/

/-- orient(u, v) of Table 4-6. -/
def orient (o : Nat) (u v : Int) : Int × Int :=
  match o with
  | 0 => (u, v) | 1 => (-v, u) | 2 => (-u, -v) | 3 => (v, -u)
  | 4 => (u, -v) | 5 => (v, u) | 6 => (-u, v) | _ => (-v, -u)

/-- A TRAP of an instance (Table 4-7): the bottom, top, left and right ends of the cell's trapezoid, rebuilt. -/
def placeTrap (o : Nat) (x y y0 y1 xl0 xl1 xr0 xr1 : Int) (cls : Nat) : Prim :=
  match o with
  | 2 => .trap (y - y1) (y - y0) (x - xr1) (x - xr0) (x - xl1) (x - xl0) cls
  | 4 => .trap (y - y1) (y - y0) (x + xl1) (x + xl0) (x + xr1) (x + xr0) cls
  | 6 => .trap (y + y0) (y + y1) (x - xr0) (x - xr1) (x - xl0) (x - xl1) cls
  | _ => .trap (y + y0) (y + y1) (x + xl0) (x + xl1) (x + xr0) (x + xr1) cls

/-- A RECT of an instance (R92): the rectangle of its two transformed corners, as a TRAP (R101). -/
def placeRect (o : Nat) (x y x0 y0 x1 y1 : Int) (cls : Nat) : Prim :=
  let a := orient o x0 y0
  let b := orient o x1 y1
  let l := x + min a.1 b.1
  let r := x + max a.1 b.1
  .trap (y + min a.2 b.2) (y + max a.2 b.2) l l r r cls

/-- The pixels of a tile after an even orientation, row by row from the lowest y (R92). -/
def placePix (o w h : Nat) (pix : List Nat) : List Nat :=
  let row (r : Nat) : List Nat := slice' pix (r * w) w
  let rows := (List.range h).map row
  match o with
  | 2 => (rows.reverse.map List.reverse).flatten
  | 4 => rows.reverse.flatten
  | 6 => (rows.map List.reverse).flatten
  | _ => pix
where
  /-- `n` values from position `o`. -/
  slice' (l : List Nat) (o n : Nat) : List Nat := (l.drop o).take n

/-- A tile of an instance (R92): its image block's lowest corner, and its pixels. -/
def placeTile (o : Nat) (ox oy x y : Int) (w h cls p : Nat) (pix : List Nat) : Prim :=
  let x' : Int := if o = 2 ∨ o = 6 then ox - x - w * p else ox + x
  let y' : Int := if o = 2 ∨ o = 4 then oy - y - h * p else oy + y
  .tile x' y' w h cls o (placePix o w h pix)

/-- A nested record of a loaded cell, placed by an instance at (ox, oy). -/
def placeRec (o : Nat) (ox oy : Int) (p : Nat) (r : List Byte) : Prim :=
  let c := coordAt r false
  match recType r with
  | 9 => placeTrap o ox oy (c 0) (c 1) (c 2) (c 3) (c 4) (c 5) (getU r 0x20 1)
  | 10 => placeRect o ox oy (c 0) (c 1) (c 2) (c 3) (getU r 0x18 1)
  | _ =>
    let w := getU r 0x10 1
    let h := getU r 0x11 1
    placeTile o ox oy (c 0) (c 1) w h (getU r 0x12 1) p ((slice r 24 (w * h)).map BitVec.toNat)

/-- The nested records of a loaded cell (R84): a tile takes 24 + W·H bytes, rounded up to 8. -/
def cellRecs : Nat → List Byte → List (List Byte)
  | 0, _ => []
  | f + 1, bs =>
    if bs.length < 8 then []
    else
      let n := if recType bs = 11 then (24 + getU bs 0x10 1 * getU bs 0x11 1 + 7) / 8 * 8 else recLen bs
      if n = 0 then [] else bs.take n :: cellRecs f (bs.drop n)

/-- A stripe-form primitive; a tile's pixels come with its decode. -/
def stripePrim (r : List Byte) : Prim :=
  let c := coordAt r true
  match recType r with
  | 9 => .trap (c 0) (c 1) (c 2) (c 3) (c 4) (c 5) (getU r 0x38 1)
  | 10 => .trap (c 1) (c 3) (c 0) (c 0) (c 2) (c 2) (getU r 0x28 1)
  | _ => .tile (c 0) (c 1) (getU r 0x18 1) (getU r 0x19 1) (getU r 0x1A 1) 0 []

/-- The y extent of a primitive. -/
def primY (p : Nat) : Prim → Int × Int
  | .trap y0 y1 _ _ _ _ _ => (y0, y1)
  | .tile _ y _ h _ _ _ => (y, y + h * p)

/-- Every resolved coordinate fits s40 (R95). -/
def primFits : Prim → Bool
  | .trap y0 y1 a b c d _ => [y0, y1, a, b, c, d].all (fun v => decide (-(2 ^ 39 : Int) ≤ v) && decide (v < 2 ^ 39))
  | .tile x y _ _ _ _ _ => [x, y].all (fun v => decide (-(2 ^ 39 : Int) ≤ v) && decide (v < 2 ^ 39))

/-! ### Bin bodies -/

/-- The records of a bin body as the expander reads it again (R95), or LAY_ERR.CAUSE 5, 6 or 7: of several faults of one record,
TYPE is found before LEN8 and LEN8 before CHECK (log entry 39). -/
def bodyRecs : Nat → List Byte → Except Nat (List (List Byte))
  | _, [] => .ok []
  | 0, _ => .error 6
  | f + 1, bs =>
    if bs.length < 8 then .error 6
    else
      let wide := getU bs 1 1 % 2 == 1
      let ty := recType bs
      if ty < 7 ∨ 11 < ty ∨ (9 ≤ ty ∧ !wide) then .error 7
      else if recLen bs < (baseLen ty wide).getD 0 ∨ bs.length < recLen bs then .error 6
      else if !recCheckOk bs then .error 5
      else
        match bodyRecs f (bs.drop (recLen bs)) with
        | .ok rs => .ok (bs.take (recLen bs) :: rs)
        | .error e => .error e

/-- What a body has given so far: LAY_ERR.CAUSE (0 for none), its primitives, and its stripe-form tiles still to decode, by
their place among the primitives. -/
structure Body where
  cause : Nat
  prims : List Prim
  tiles : List (Nat × Nat × List Byte)

/-- The origins of the instances that a PLACE or an ARRAY puts (R90); of an ARRAY the rows that reach the bin (R100). -/
def origins (r : List Byte) (c : Cell) (blo bhi : Int) : List (Int × Int) :=
  let o := getU r 0x0A 1
  let x := getS r 0x10 8
  let y := getS r 0x18 8
  if recType r = 7 then [(x, y)]
  else
    let vs := [(orient o c.xMin c.yMin).2, (orient o c.xMax c.yMax).2, (orient o c.xMin c.yMax).2, (orient o c.xMax c.yMin).2]
    let lo := vs.foldl min (vs.headD 0)
    let hi := vs.foldl max (vs.headD 0)
    let dx := getS r 0x20 4
    let dy := getS r 0x24 4
    let rows := (List.range (getU r 0x0E 2)).filter (fun (b : Nat) =>
      decide (y + b * dy + lo < bhi) && decide (blo < y + b * dy + hi))
    (rows.map (fun (b : Nat) => (List.range (getU r 0x0C 2)).map (fun (a : Nat) => (x + a * dx, y + b * dy)))).flatten

/-- One record of a body is expanded (R90–R92, R95). -/
def expandRec (j : Job) (x0 y0 blo bhi : Int) (b : Body) (r : List Byte) : Body :=
  let p := j.pitch
  if b.cause ≠ 0 then b
  else if 9 ≤ recType r then
    let q := stripePrim r
    if recType r = 11 ∧ ((coordAt r true 0 - x0) % p ≠ 0 ∨ (coordAt r true 1 - y0) % p ≠ 0) then { b with cause := 3 }
    else { b with
      prims := b.prims ++ [q]
      tiles := if recType r = 11 then b.tiles ++ [(b.prims.length, tileSize r true, tileCode r true)] else b.tiles }
  else
    match j.cells.find? (fun c => c.ctx == getU r 8 2) with
    | none => { b with cause := 1 }
    | some c =>
      let o := getU r 0x0A 1
      if o % 2 = 1 ∧ c.angled then { b with cause := 2 }
      else
        (origins r c blo bhi).foldl (fun b q =>
          if b.cause ≠ 0 then b
          else if c.tiled ∧ ((q.1 - x0) % p ≠ 0 ∨ (q.2 - y0) % p ≠ 0) then { b with cause := 3 }
          else
            let ps := (cellRecs c.bytes.length c.bytes).map (placeRec o q.1 q.2 p)
            if ps.all primFits then { b with prims := b.prims ++ ps } else { b with cause := 4 }) b

/-- A bin body is expanded: its cause, primitives and tiles. DESIGN CHOICE: TYPE, LEN8 and CHECK of every record of the body are tested
before any record is expanded, so causes 5 to 7 of a later record are found before causes 1 to 4 of an earlier one (log entry 39). -/
def expandBody (j : Job) (x0 y0 : Int) (idx : Nat) (bs : List Byte) : Body :=
  match bodyRecs bs.length bs with
  | .error e => ⟨e, [], []⟩
  | .ok rs =>
    let blo : Int := y0 + 64 * idx * j.pitch
    let r := rs.foldl (expandRec j x0 y0 blo (blo + 64 * j.pitch)) ⟨0, [], []⟩
    if r.cause = 0 then r else ⟨r.cause, [], []⟩

/-! ### Coverage -/

/-- U of an edge from (x0, y0) to (x1, y1) at y, in 2^-16 lu (R101). -/
def edgeU (x0 x1 y0 y1 y : Int) : Int := x0 * 65536 + roundHalfEven ((y - y0) * (x1 - x0) * 65536) (y1 - y0).toNat

/-- The denominator of Q without its factor 2: hi − lo, or 1 for an edge that does not move. -/
def qDen (u0 u1 : Int) : Nat := max 1 (u1 - u0).natAbs

/-- Q of R102 times 2·qDen. -/
def qNum (u0 u1 h x : Int) : Int :=
  let lo := min u0 u1
  if max u0 u1 ≤ x then h * (2 * x - u0 - u1) * qDen u0 u1
  else if x ≤ lo then 0
  else h * (x - lo) * (x - lo)

/-- The coverage of pixel column i by a primitive on the line whose lower boundary is `ylo` (R101–R103), u1.16. -/
def coverage (p : Nat) (x0 ylo : Int) (i : Nat) : Prim → Nat
  | .trap y0 y1 xl0 xl1 xr0 xr1 _ =>
    let ya := max ylo y0
    let yb := min (ylo + p) y1
    if yb ≤ ya then 0
    else
      let l0 := edgeU xl0 xl1 y0 y1 ya
      let l1 := edgeU xl0 xl1 y0 y1 yb
      let r0 := edgeU xr0 xr1 y0 y1 ya
      let r1 := edgeU xr0 xr1 y0 y1 yb
      let left (x : Int) : Int := qNum l0 l1 (yb - ya) x * qDen r0 r1 - qNum r0 r1 (yb - ya) x * qDen l0 l1
      let b0 := 65536 * (x0 + i * p)
      (roundHalfEven (left (b0 + 65536 * p) - left b0) (2 * qDen l0 l1 * qDen r0 r1 * p * p)).toNat
  | .tile x y w h _ _ pix =>
    let row := (ylo - y) / p
    let col := (x0 + i * p - x) / p
    if 0 ≤ row ∧ row < h ∧ 0 ≤ col ∧ col < w then
      (roundHalfEven ((pix.getD (row.toNat * w + col.toNat) 0) * 65536) 255).toNat
    else 0

/-- The class of a primitive. -/
def primClass : Prim → Nat
  | .trap _ _ _ _ _ _ c => c
  | .tile _ _ _ _ c _ _ => c

/-- The primitives that give a slice on a line: their y extent overlaps it over a positive length (R96, R100). -/
def slices (p : Nat) (ylo : Int) (ps : List Prim) : List Prim :=
  ps.filter (fun q => decide ((primY p q).1 < ylo + p) && decide (ylo < (primY p q).2))

/-- acc_k of a pixel (R104). -/
def accOf (p : Nat) (x0 ylo : Int) (ps : List Prim) (i k : Nat) : Nat :=
  sumN ((ps.filter (fun q => primClass q == k)).map (coverage p x0 ylo i))

/-- The classes that the primitives use, each once. -/
def classesOf (ps : List Prim) : List Nat := (List.range 64).filter (fun k => ps.any (fun q => primClass q == k))

/-- DOSE of a class (R83). -/
def Job.dose (j : Job) (k : Nat) : Nat := bits (j.classes.getD k 0) 0 20

/-- The class belongs to a layer in union mode (R83, R105). -/
def Job.unionClass (j : Job) (k : Nat) : Bool := j.modes.getD (bits (j.classes.getD k 0) 20 2) 0 == 1

/-- S of R106 for a pixel. -/
def pixelS (j : Job) (x0 ylo : Int) (ps : List Prim) (i : Nat) : Nat :=
  sumN ((classesOf ps).map (fun k =>
    let a := accOf j.pitch x0 ylo ps i k
    (if j.unionClass k then min a 65536 else a) * j.dose k))

/-- Some accumulator of the line overflows 25 bits (R104). -/
def accOver (j : Job) (x0 ylo : Int) (ps : List Prim) : Bool :=
  (List.range j.width).any (fun i => (classesOf ps).any (fun k => decide (33554431 < accOf j.pitch x0 ylo ps i k)))

/-! ### The map factor (R122) -/

/-- The grid node below a pixel centre along one axis, and the distance from it: a and fx. -/
def mapCell (d : Int) (g2 : Nat) : Int × Int := (Int.fdiv d g2, d - Int.fdiv d g2 * g2)

/-- dx and dy of R122 give the cell of pixel column i, and of line j. -/
def MapRef.cellOf (m : MapRef) (p : Nat) (org mOrg : Int) (k : Nat) : Int × Int :=
  mapCell (2 * (org + k * p - mOrg) + p) (2 * p * 2 ^ m.shift)

/-- m of a pixel from four node values. -/
def mapMix (g2 : Nat) (fx fy : Int) (v00 v10 v01 v11 : Nat) : Nat :=
  (roundHalfEven (v00 * (g2 - fx) * (g2 - fy) + v10 * fx * (g2 - fy) + v01 * (g2 - fx) * fy + v11 * fx * fy) (g2 * g2)).toNat

/-- A node value (R94). -/
def State.mapNode (s : State) (m : MapRef) (a b : Int) : Nat := leNat (s.jsRead (m.addr + 2 * (b * m.nx + a).toNat) 2)

/-- m of pixel column i of line j: 0x8000 without a map (R94). -/
def State.mapFactor (s : State) (x : Stripe) (p i j : Nat) : Nat :=
  match x.map with
  | none => 0x8000
  | some m =>
    let (a, fx) := m.cellOf p x.x0 m.mx0 i
    let (b, fy) := m.cellOf p x.y0 m.my0 j
    mapMix (2 * p * 2 ^ m.shift) fx fy (s.mapNode m a b) (s.mapNode m (a + 1) b) (s.mapNode m a (b + 1)) (s.mapNode m (a + 1) (b + 1))

/-- The ranges of the nodes that line j needs (R122): two rows of nodes. -/
def mapRanges (x : Stripe) (p w j : Nat) : List (Nat × Nat) :=
  match x.map with
  | none => []
  | some m =>
    let (b, _) := m.cellOf p x.y0 m.my0 j
    let a0 := (m.cellOf p x.x0 m.mx0 0).1
    let a1 := (m.cellOf p x.x0 m.mx0 (w - 1)).1 + 1
    let at_ (b : Int) : Nat := m.addr + 2 * (b * m.nx + a0).toNat
    let n := 2 * ((a1 - a0).toNat + 1)
    [(at_ b, n), (at_ (b + 1), n)]

/-- The map reader's reads for a line (R237). -/
def State.mapReads (s : State) (x : Stripe) (p w j : Nat) : State := (mapRanges x p w j).foldl (fun t r => t.readBlocks r.1 r.2) s

/-- The first uncorrectable block among the nodes that line j needs (R239). -/
def State.mapBad (s : State) (x : Stripe) (p w j : Nat) : Option Nat := (mapRanges x p w j).findSome? (fun r => s.badBlock r.1 r.2)

/-- T of a pixel, and whether it saturated (R106). -/
def tOf (S m : Nat) : Nat × Bool :=
  let t := (roundHalfEven (S * m) (2 ^ 39)).toNat
  if 65535 < t then (65535, true) else (t, false)

/-! ### Fetching and rendering -/

/-- The stripe that the expander and the renderer work for: the one past its COMMIT edge, else the armed one, else the first
admitted. -/
def State.renderStripe (s : State) : Option Stripe :=
  let cur := match s.esc.firing with
    | some f => s.stripeOf f.handle
    | none => none
  match cur with
  | some x => some x
  | none =>
    match s.lay.stripes.find? (fun x => x.phase == .armed) with
    | some x => some x
    | none => s.lay.stripes.head?

/-- LAY_STAT follows the expander (LAY_STAT): AHEAD counts the bins beyond the one being rendered. -/
def State.layStat (s : State) : State :=
  let st := if s.foot.handle = 0 then 0 else if s.foot.nextLine = 0 then 1 else 2
  let ahead := (s.foot.bins.filter (fun b => decide (s.foot.nextLine / 64 < b.idx))).length
  s.wr rLayStat (st * 2 ^ 30 + min 4 ahead * 2 ^ 27 + s.foot.nextLine / 64 % 2 ^ 26)

/-- A source of rendering is raised once for a bin of a stripe (R120). -/
def State.raiseBin (s : State) (h src bin : Nat) : State :=
  if s.foot.raised.contains (h, bin, src) then s
  else { s with foot := { s.foot with raised := s.foot.raised ++ [(h, bin, src)] } }.raise src

/-- A fetched bin of a stripe changed: one of the stripe being expanded, or of the next one, fetched ahead. -/
def State.updBin (s : State) (h idx : Nat) (f : Bin → Bin) : State :=
  let go (l : List Bin) : List Bin := l.map (fun b => if b.idx == idx then f b else b)
  if h = s.foot.handle then { s with foot := { s.foot with bins := go s.foot.bins } }
  else if h = s.foot.aheadOf then { s with foot := { s.foot with ahead := go s.foot.ahead } }
  else s

/-- The first bin error since the last clear is latched in LAY_ERR. -/
def State.layErr (s : State) (cause bin : Nat) : State :=
  if s.flag rLayErr 31 then s else (s.wr rLayErr (2 ^ 31 + cause * 2 ^ 27 + bin % 2 ^ 26)).hwSet rLayErr (2 ^ 31) 0

/-- A bin error (R95): the bin's lines will be blanked, LAY_ERR latches the cause, and STREAM is raised. -/
def State.binError (s : State) (h bin cause : Nat) : State :=
  ((s.updBin h bin (fun b => { b with err := cause, prims := [] })).layErr cause bin).raiseBin h srcStream bin

/-- The bin that the expander fetches next: those of lines that are past are skipped (R116). -/
def State.binToFetch (s : State) : Nat := max s.foot.nextBin (s.foot.nextLine / 64)

/-- A bin has been fetched for a stripe: for the one being expanded, or ahead for the next one (R117). -/
def State.addBin (s : State) (x : Stripe) (b : Bin) : State :=
  if x.handle = s.foot.handle then { s with foot := { s.foot with bins := s.foot.bins ++ [b], nextBin := b.idx + 1 } }
  else { s with foot := { s.foot with ahead := s.foot.ahead ++ [b] } }

/-- A bin that cannot be used is fetched: its error is latched and raised (R95, R239). -/
def State.addBad (s : State) (x : Stripe) (idx cause : Nat) : State :=
  ((s.addBin x ⟨idx, [], [], 0, cause⟩).layErr cause idx).raiseBin x.handle srcStream idx

/-- Bin `idx` of a stripe is fetched through port 0 (R95, R98, R242): its BIN record, and its body. A BIN record whose own CHECK fails as it is
read again makes the bin bad, as a record of its body would (log entry 180). -/
def State.binFetch (s : State) (x : Stripe) (j : Job) (idx : Nat) : State :=
  match (stripePart x.data (s.jsRead x.data x.len)).bins[idx]? with
  | none => s.addBad x idx 5
  | some (ra, r) =>
    let a := x.data + getU r 0x20 8
    let n := getU r 0x28 4
    let rs := [(ra, r.length), (a, n)]
    if s.portWaits 0 rs then s.portAsks 0 rs
    else
      let s1 := ((s.portServed 0).readBlocks ra r.length).readBlocks a n
      let edges := (List.range 64).map (binEdge r)
      match (s1.badBlock ra r.length).or (s1.badBlock a n) with
      | some blk => ((s1.addBin x ⟨idx, [], edges, getU r 0x2C 4, 9⟩).memUncorr blk).raiseBin x.handle srcStream idx
      | none =>
        if !recCheckOk r then s1.addBad x idx 5
        else
          let body := expandBody j x.x0 x.y0 idx (s.jsRead a n)
          let s2 := s1.addBin x ⟨idx, body.prims, edges, getU r 0x2C 4, body.cause⟩
          if body.cause ≠ 0 then (s2.layErr body.cause idx).raiseBin x.handle srcStream idx
          else { s2 with rle := { s2.rle with tiles := s2.rle.tiles ++ body.tiles.map (fun t => ⟨x.handle, idx, t.1, t.2.1, t.2.2⟩) } }

/-- The next stripe after the one being expanded, for priming (R117): the armed one, else the first admitted. -/
def State.nextStripe (s : State) (h : Nat) : Option Stripe :=
  let others := s.lay.stripes.filter (fun x => !(x.handle == h) && (x.phase == .admitted || x.phase == .armed))
  match others.find? (fun x => x.phase == .armed) with
  | some x => some x
  | none => others.head?

/-- The expander turns its lead to the next stripe; bins fetched ahead for another one are dropped. -/
def State.aheadFor (s : State) (h : Nat) : State :=
  if s.foot.aheadOf = h then s
  else
    { s with foot := { s.foot with ahead := [], aheadOf := h, raised := s.foot.raised.filter (fun r => !(r.1 == s.foot.aheadOf)) },
             rle := { s.rle with tiles := s.rle.tiles.filter (fun w => !(w.stripe == s.foot.aheadOf)) } }

/-- A bin of the next stripe is fetched ahead, up to four; the first one begins its priming, and takes a pending pulse of sink 15
(R117, R227, log entry 163). -/
def State.primeFetch (s : State) (h : Nat) : State :=
  match s.nextStripe h with
  | none => s
  | some y =>
    match s.jobOf y.job with
    | none => s
    | some j =>
      let t := s.aheadFor y.handle
      let k := t.foot.ahead.length
      let u : State := { t with dma := { t.dma with prime := false } }
      if 4 ≤ k ∨ y.nbin ≤ k then u else u.binFetch y j k

/-- The expander, the renderer or the footprint store has stopped at an uncorrectable word (R325): array 0, 1, 2, 8 or 14. -/
def State.renderStopped (s : State) : Bool := [0, 1, 2, 8, 14].any (fun a => s.flt.stopped.contains a)

/-- BIN_FETCH (R98, R117): a bin of the stripe being expanded, up to four beyond the one being rendered; once those are fetched, or
first where a pulse of sink 15 is pending, a bin of the next admitted stripe while this one fires. `errs` are the errors that have
come up in the DRAM since the last read. -/
def execBinFetch (errs : List (Nat × Nat)) (s : State) : Outcome :=
  match s.renderStripe with
  | none => .next s
  | some x =>
    match s.jobOf x.job with
    | none => .next s
    | some j =>
      if !s.dom.main ∨ s.renderStopped then .next (s.footFor x.handle)
      else
        let t := (s.footFor x.handle).newErrs errs
        let full := decide (t.foot.nextLine / 64 + 4 < t.binToFetch) || decide (x.nbin ≤ t.binToFetch)
        let fires := x.phase == .started || x.phase == .firing
        if fires && (full || t.dma.prime) && (t.nextStripe x.handle).isSome then .next (t.primeFetch x.handle).layStat
        else if full then .next t
        else .next (({ t with dma := { t.dma with prime := t.dma.prime && t.binToFetch != 0 } }).binFetch x j t.binToFetch).layStat

/-- The fetched bin of a line. -/
def State.binOfLine (s : State) (j : Nat) : Option Bin := s.foot.bins.find? (fun b => b.idx == j / 64)

/-- Every tile of a bin has been decoded. -/
def State.tilesDone (s : State) (idx : Nat) : Bool := !(s.rle.tiles.any (fun t => t.stripe == s.foot.handle && t.bin == idx))

/-- The first line that the expander or an interval that is still to be written may need: in SCAN mode an interval that a dropped release has
lost is judged by its bins when its SOS comes (R121, R228). -/
def State.oldestLine (s : State) (chans : Nat) : Nat :=
  if chans = 0 then s.foot.nextLine else min s.foot.nextLine ((if s.scan.started then s.scan.interval else 0) * chans)

/-- Bins whose lines are all past are dropped; `chans` is CHANNELS in SCAN mode, else 0. -/
def State.dropBins (s : State) (chans : Nat) : State :=
  { s with foot := { s.foot with bins := s.foot.bins.filter (fun b => decide (s.oldestLine chans / 64 ≤ b.idx)) },
           rle := { s.rle with tiles := s.rle.tiles.filter (fun t => t.stripe != s.foot.handle || decide (s.foot.nextLine / 64 ≤ t.bin)) } }

/-- The counted edge events of a line exceed its declared count (R107). -/
def edgeOver (p : Nat) (ylo : Int) (b : Bin) (j : Nat) : Bool :=
  decide (b.edges.getD (j % 64) 0 < 2 * (slices p ylo b.prims).length)

/-- A line is rendered (R100–R107): its T values, or VERIFY with the faults that its rules raise. Saturated pixels are counted
as the line is rendered. -/
def State.renderLine (s : State) (x : Stripe) (j : Job) (b : Bin) (l : Nat) : State × StagedLine :=
  let ylo : Int := x.y0 + l * j.pitch
  let ps := slices j.pitch ylo b.prims
  if b.err ≠ 0 then (s, ⟨l, some 7, [], 0, b.err == 8⟩)
  else if edgeOver j.pitch ylo b l || accOver j x.x0 ylo ps then
    let s1 := if accOver j x.x0 ylo ps then (s.count (rRasCnt 3) 1).raiseBin x.handle srcAccOver b.idx else s
    (if edgeOver j.pitch ylo b l then (s1.count (rRasCnt 1) 1).raiseBin x.handle srcEdgeOver b.idx else s1, ⟨l, some 7, [], 0, false⟩)
  else
    let t := s.mapReads x j.pitch j.width l
    match t.mapBad x j.pitch j.width l with
    | some blk => (t.memUncorr blk, ⟨l, some 7, [], 0, false⟩)
    | none =>
      let ts := (List.range j.width).map (fun i => tOf (pixelS j x.x0 ylo ps i) (s.mapFactor x j.pitch i l))
      let sat := (ts.filter (·.2)).length
      let s1 := if sat = 0 then t
        else (t.count (rRasCnt 0) sat).updStripe x.handle (fun y => { y with tSat := satAdd 0xFFFFFFFF y.tSat sat })
      (s1, ⟨l, none, ts.map (·.1), sat, false⟩)

/-- P of a pixel in pass n of N (R128). -/
def passShare (t n passes : Nat) : Nat := (n + 1) * t / passes - n * t / passes

/-- The values of a rendered SCAN line (R121); a blanked line sends 0. -/
def scanValues (j : Job) (pass : Nat) (l : StagedLine) : List Nat :=
  match l.blank with
  | some _ => List.replicate j.pixels 0
  | none => l.t.map (fun t => passShare t pass j.n)

/-- The interval whose last line has been rendered goes to its output half (R220), and clipped values are counted (R121). DESIGN CHOICE:
they are counted as they are rendered, also where the interval is written blank later (log entry 179). -/
def State.finishInterval (s : State) (x : Stripe) (j : Job) (n : Nat) : State :=
  let ls := s.scan.lines.filter (fun l => l.line / j.chans == n)
  let vs := (ls.map (scanValues j x.pass)).flatten
  let clips := (vs.filter (fun v => decide (255 < v))).length
  let s1 : State := { s with dma := { s.dma with scanOut := s.dma.scanOut.set (n % 2) (vs.map (fun v => BitVec.ofNat 8 (min v 255))) } }
  let s2 := s1.pulse 25
  if clips = 0 then s2
  else (s2.count (rDosCnt 0) clips).updStripe x.handle (fun y => { y with clip := satAdd 0xFFFFFFFF y.clip clips })

/-- In SCAN mode an interval's first line is rendered into an output half that no other interval holds (R220); a pending release
frees the half of the oldest one that channel 3 has moved (R227, sink 16). -/
def State.takeHalf (s : State) (k : Nat) : State × Bool :=
  let free (t : State) : Bool := !(t.scan.held.any (fun h => h % 2 == k % 2))
  if s.scan.held.contains k || free s then (s, true)
  else if s.dma.release then
    let t : State := { s with scan := { s.scan with held := s.scan.held.drop 1 }, dma := { s.dma with release := false } }
    (t, free t)
  else (s, false)

/-- A SCAN interval lost by a dropped release is passed over, and the half that the pulse was to release is free (R228, R116). -/
def State.skipLost (s : State) (j : Job) : State :=
  let k := s.foot.nextLine / max 1 j.chans
  if j.scan && s.scan.lost.contains k then
    { s with foot := { s.foot with nextLine := (k + 1) * j.chans },
             scan := { s.scan with held := s.scan.held.filter (fun h => !(decide (h < k) && h % 2 == k % 2)) } }
  else s

/-- A rendered line goes to its place: the staging buffer, or in SCAN mode its interval. -/
def State.placeLine (s : State) (x : Stripe) (j : Job) (l : Nat) (line : StagedLine) : State :=
  let t : State := { s with foot := { s.foot with nextLine := l + 1 } }
  if j.scan then
    let k := l / max 1 j.chans
    let u : State := { t with scan := { t.scan with lines := t.scan.lines ++ [line],
                                                    held := if t.scan.held.contains k then t.scan.held else t.scan.held ++ [k] } }
    if (l + 1) % j.chans = 0 then u.finishInterval x j (l / j.chans) else u
  else { t with foot := { t.foot with staged := t.foot.staged ++ [line] } }

/-- LINE_RENDER (R107, R115, R121): the next line whose bin is on chip, while the staging buffer (four lines), or in SCAN mode
the renderer's two output halves (R220), has room; its map nodes come through port 1 (R242). -/
def execLineRender (s : State) : Outcome :=
  match s.renderStripe with
  | none => .next s
  | some x =>
    match s.jobOf x.job with
    | none => .next s
    | some j =>
      let t := (s.footFor x.handle).skipLost j
      let l := t.foot.nextLine
      match t.binOfLine l with
      | none => .next t
      | some b =>
        let (u, room) := if j.scan then t.takeHalf (l / max 1 j.chans) else (t, decide (t.foot.staged.length < 4))
        if s.renderStopped || !t.tilesDone b.idx || !room || decide (x.lines ≤ l) then .next t
        else
          let nodes := mapRanges x j.pitch j.width l
          if u.portWaits 1 nodes then .next (t.portAsks 1 nodes)
          else
            .next (u.onOneClock (fun v =>
              let (v1, line) := (v.portServed 1).renderLine x j b l
              ((v1.placeLine x j l line).dropBins (if j.scan then j.chans else 0)).layStat))

end Sys2Proof.Machine
end

