-- ==== Sys2Proof/Machine/Footprint.lean ====
section
/-! DEFINITION. The footprint store (R109–R117) and the holes of blanked lines (R118, R119). -/

namespace Sys2Proof.Machine

/-! ### Decided lines -/

/-- A line has been decided: blanked lines with one reason form one run, and the run's hole is logged when it ends (R119). With the
reason goes whether an internal raise blanked the line (R343); one such line makes the run's hole such a one (log entry 178). -/
def State.decideLine (s : State) (x : Stripe) (j : Nat) (reason : Option (Nat × Bool)) : State :=
  match s.foot.run, reason with
  | some r, some (why, own) =>
    if r.reason = why ∧ r.last + 1 = j then
      { s with foot := { s.foot with run := some { r with last := j, internal := r.internal || own } } }
    else
      let t := s.logLines x r
      { t with foot := { t.foot with run := some ⟨why, j, j, own⟩ } }
  | some r, none =>
    let t := s.logLines x r
    { t with foot := { t.foot with run := none } }
  | none, some (why, own) => { s with foot := { s.foot with run := some ⟨why, j, j, own⟩ } }
  | none, none => s

/-- Stored bytes of a plane-line (Table 5-3). -/
def Plane.size : Plane → Nat
  | .blank => 0
  | .zero => 0
  | .code bs => 32 * ceilDiv bs.length 32
  | .raw _ => 1024

/-- Stored bytes of a line. -/
def StoredLine.size (l : StoredLine) : Nat := sumN (l.planes.map Plane.size)

/-- The entries of plane-line φ of a line (R109): T of columns n·M + φ. -/
def planeEntries (m ph : Nat) (ts : List Nat) : List Nat := (List.range 512).map (fun n => ts.getD (n * m + ph) 0)

/-- The 1,024 bytes of a plane-line (R111). -/
def planeSeq (es : List Nat) : List Byte := es.map (fun t => BitVec.ofNat 8 (t / 256)) ++ es.map (BitVec.ofNat 8)

/-- The stored form of a plane-line (Table 5-3). -/
def planeForm (es : List Nat) : Plane :=
  if es.all (fun t => t == 0) then .zero
  else
    let seq := planeSeq es
    let c := rleEncode seq
    if c.length < 1024 then .code c else .raw seq

/-- A line enters the store: its granules count (RAS_FP_USED, RAS_FP_PEAK). -/
def State.storeLine (s : State) (l : StoredLine) : State :=
  let s1 : State := { s with foot := { s.foot with store := s.foot.store ++ [l] } }
  let used := s1.rd rRasFpUsed + l.size / 32
  let s2 := s1.wr rRasFpUsed used
  if s2.fld rRasFpPeak 0 22 < used then s2.setFld rRasFpPeak 0 22 used else s2

/-- A line is freed once its last shot has read it (R115). -/
def State.freeLine (s : State) (j : Nat) : State :=
  match s.foot.store.find? (fun l => l.line == j) with
  | some l => { s with foot := { s.foot with store := s.foot.store.filter (fun k => !(k.line == j)) } }.wr rRasFpUsed
      (s.rd rRasFpUsed - l.size / 32)
  | none => s

/-- Shots of the pass whose hit computation has begun (R139): none before t_c, then two ahead of the fires. -/
def State.shotsBegun (s : State) : Nat :=
  match s.esc.firing with
  | some f => if f.tc.isNone then 0 else f.fired + 2
  | none => 0

/-- The bin's running total of stored bytes (R114). -/
def State.binBytes (s : State) (bin : Nat) : Nat := if s.foot.binOf = bin then s.foot.binTotal else 0

/-- A blanked line is stored (Table 5-3). -/
def State.storeBlank (s : State) (x : Stripe) (j m reason : Nat) (internal : Bool) : State :=
  (s.decideLine x j (some (reason, internal))).storeLine ⟨j, List.replicate m .blank⟩

/-- The footprint writer commits a rendered line (R111–R114). -/
def State.commitLine (s : State) (x : Stripe) (m : Nat) (l : StagedLine) (fp : Nat) (verifyOk : Bool) : State :=
  let bin := l.line / 64
  let s0 := s.wr rRasLine l.line
  match l.blank with
  | some why => s0.storeBlank x l.line m why l.internal
  | none =>
    let planes := (List.range m).map (fun ph => planeForm (planeEntries m ph l.t))
    let encs := (planes.filter (fun p => match p with | .code _ => true | .raw _ => true | _ => false)).length
    let gains := (planes.filter (fun p => match p with | .raw _ => true | _ => false)).length
    let s0 := if encs = 0 then s0 else s0.count (rRleCnt 0) encs
    let s0 := if gains = 0 then s0 else s0.count (rRleCnt 1) gains
    let anyCode := planes.any (fun p => match p with | .code _ => true | .raw _ => true | _ => false)
    if anyCode ∧ !verifyOk then
      ((s0.count (rRasCnt 4) 1).raiseBin x.handle srcVerifyFail bin).storeBlank x l.line m 7 true
    else
      let size := sumN (planes.map Plane.size)
      if fp < s0.binBytes bin + size then ((s0.count (rRasCnt 2) 1).raiseBin x.handle srcFpOver bin).storeBlank x l.line m 6 false
      else
        let raws := (planes.filter (fun p => match p with | .raw _ => true | _ => false)).length
        let zs := (planes.filter (fun p => match p with | .zero => true | _ => false)).length
        let s1 : State := { s0 with foot := { s0.foot with binTotal := s0.binBytes bin + size, binOf := bin } }
        let s2 := if raws = 0 then s1 else s1.count (rRasCnt 6) raws
        let s3 := if zs = 0 then s2 else s2.count (rRasCnt 7) zs
        (s3.decideLine x l.line none).storeLine ⟨l.line, planes⟩

/-- LINE_COMMIT (R115): the oldest staged line, once the hit computation of two shots earlier has begun. `verifyOk` is what
engine 0's self-verify finds (R112). -/
def execLineCommit (verifyOk : Bool) (s : State) : Outcome :=
  match s.foot.staged, s.stripeOf s.foot.handle with
  | l :: rest, some x =>
    if s.shotsBegun + 2 ≤ l.line ∨ s.renderStopped then .next s
    else
      let fp := match stripePart x.data (s.jsRead x.data x.len) |>.bins[l.line / 64]? with
        | some (_, r) => getU r 0x2C 4
        | none => 0
      let s1 : State := { s with foot := { s.foot with staged := rest } }
      .next (s1.commitLine x (s.geom x).2.1 l fp verifyOk)
  | _, _ => .next s

/-- The earlier reason of a line that is not committed when its hit computation begins (R118), and how many lines were counted
against their bin only now: VERIFY where the line was blanked as it was rendered, where its bin is bad, or where its declared edge
count is exceeded, whether or not its tiles have been decoded (R107). A line that was never rendered has no accumulators (log
entry 155). -/
def State.earlierReason (s : State) (p : Nat) (x : Stripe) (j : Nat) : Option Nat × Nat :=
  match s.foot.staged.find? (fun l => l.line == j), s.binOfLine j with
  | some l, _ => (l.blank, 0)
  | none, some b => if b.err ≠ 0 then (some 7, 0) else if edgeOver p (x.y0 + j * p) b j then (some 7, 1) else (none, 0)
  | none, none => (none, 0)

/-- Line j is blanked for a tile whose decode failed, with RLE1_VERIFY (R95, R343). -/
def State.tileFailed (s : State) (j : Nat) : Bool :=
  match s.foot.staged.find? (fun l => l.line == j), s.binOfLine j with
  | some l, _ => l.internal
  | none, some b => b.err == 8
  | none, none => false

/-- `lines` late lines from line j on raise their sources (R107, R120): LATE_LINE, and EDGE_OVER where the count of `edges` of them
is exceeded. -/
def State.raiseLate (s : State) (x : Stripe) (j lines edges : Nat) : State :=
  s.onOneClock (fun t =>
    let t1 := if edges = 0 then t else (t.count (rRasCnt 1) edges).raiseBin x.handle srcEdgeOver (j / 64)
    (t1.count (rRasCnt 5) lines).raiseBin x.handle srcLateLine (j / 64))

/-- Line j must be in the store when the hit computation of shot j begins, else it is late (R116). -/
def State.lateCheck (s : State) (x : Stripe) (j : Nat) : State :=
  let (p, m, _) := s.geom x
  if x.lines ≤ j ∨ s.foot.store.any (fun l => l.line == j) then s
  else
    let (why, edges) := s.earlierReason p x j
    let s1 : State := { s with foot := { s.foot with
      staged := s.foot.staged.filter (fun l => decide (j < l.line)), nextLine := max s.foot.nextLine (j + 1) } }
    ((s1.raiseLate x j 1 edges).storeBlank x j m (why.getD 1) (s.tileFailed j))|>.dropBins 0 |>.layStat

/-- Entry c of plane-line (j, φ): T, as stored; a blank or missing one reads 0 (R110, Table 5-3). -/
def State.entryT (s : State) (j ph c : Nat) : Nat :=
  match s.foot.store.find? (fun l => l.line == j) with
  | none => 0
  | some l =>
    match l.planes.getD ph .blank with
    | .blank => 0
    | .zero => 0
    | .raw bs => (bs.getD c 0).toNat * 256 + (bs.getD (512 + c) 0).toNat
    | .code bs => match rleDecode bs 1024 with
      | some d => (d.getD c 0).toNat * 256 + (d.getD (512 + c) 0).toNat
      | none => 0

end Sys2Proof.Machine
end

