-- ==== Sys2Proof/Machine/Dose.lean ====
section
/-! DEFINITION. Dose arithmetic: the pass split and the hit split (R128–R132), gain, heating and offset (R133–R136), the hit
computation of a shot (R139) and the beam probe (R375). -/

namespace Sys2Proof.Machine

/-! ### The splits -/

/-- φ of R129: the dither of pixel column i of line j over L live beams. -/
def dither (i j live : Nat) : Nat := (i * 0x9E37 + j * 0x7F4B) % 65536 % live

/-- h of a live beam of rank k among L (R129), before R131. -/
def hitShare (p live k i j : Nat) : Nat :=
  ((k + 1) * p + dither i j live) / live - (k * p + dither i j live) / live

/-- The product term of R133. -/
def hitTerm (h g q : Nat) : Int := shrRound (h * g * q : Nat) 28

/-- The output value of a share (R133). -/
def outValue (h g q : Nat) (off : Int) : Nat := if h = 0 then 0 else (sat (hitTerm h g q + off) 0 255).toNat

/-! ### Heating -/

/-- The cell of pixel column i of line j (R134). -/
def heatCell (p i j : Nat) : Nat × Nat := (i * p / 64000, j * p / 64000)

/-- The key of a cell in the map. -/
def cellKey (u v : Nat) : Nat := v * 1024 + u

/-- What a cell that no hit has reached holds. -/
def heatDefault (_ : Nat) : Nat := 0

/-- E of a cell; cells outside the stripe hold 0. -/
def State.heatAt (s : State) (u v : Int) : Nat :=
  if u < 0 ∨ v < 0 then 0 else storeGet heatDefault s.dose.heat (cellKey u.toNat v.toNat)

/-- The kernel that the hit units use, when it is enabled (R136). -/
def State.kernelOn (s : State) : Option Kernel :=
  match s.dose.kernel with
  | none => none
  | some n =>
    match (s.gen.slots.getD n ⟨.empty, none, 0⟩).table with
    | .kernel k => if k.enable then some k else none
    | _ => none

/-- q of a block before its clamp, as 16384 − shr_round(H, SH) (R135, R136). -/
def State.blockRaw (s : State) (k : Kernel) (m p shot br bc : Nat) : Int :=
  let i := 8 * bc * m + 8 * br % m
  let j := shot - 8 * br * m
  let (u, v) := heatCell p i j
  let h := sumI ((List.range 25).map (fun n =>
    k.w.getD n 0 * s.heatAt (u + (n % 5 : Nat) - 2) (v + (n / 5 : Nat) - 2)))
  16384 - shrRound h k.sh

/-- q of every block for a shot (R135, R136), row by row. -/
def State.blockQs (s : State) (m p shot : Nat) : List Int :=
  match s.kernelOn with
  | none => List.replicate 4096 16384
  | some k => ((List.range 64).map (fun br => (List.range 64).map (fun bc =>
      if shot < 8 * br * m then 16384 else s.blockRaw k m p shot br bc))).flatten

/-- q in its range (R136). -/
def clampQ (q : Int) : Nat := (sat q 8192 24576).toNat

/-- E of a cell after a shot (R134), and whether it saturated. -/
def heatNext (dec e a : Nat) : Nat × Bool :=
  let v := e - e * dec / 65536 + a
  if 2 ^ 40 - 1 < v then (2 ^ 40 - 1, true) else (v, false)

/-! ### A shot -/

/-- What one beam contributes to a shot: T, P, the share before and after R131, the value sent, its heat cell, and its events. -/
structure Hit where
  t    : Nat
  p    : Nat
  h0   : Nat
  h    : Nat
  o    : Nat
  cell : Option Nat
  dead : Bool
  hole : Option Nat       -- the line of an L = 0 pixel with P > 0, found by this beam (R130)
  hi   : Bool             -- output clamped at 255
  zero : Bool             -- non-zero share sent as 0

/-- A hit that delivers nothing. -/
def Hit.none' (t p : Nat) (dead : Bool) : Hit := ⟨t, p, 0, 0, 0, none, dead, none, false, false⟩

/-- The hit of beam (r, c) at a shot (R124–R133). -/
def hitOf (m pitch passes pass shot r c : Nat) (t : Nat) (e : CalEntry) (q : Nat) : Hit :=
  if shot < m * r then Hit.none' 0 0 e.dead
  else
    let j := shot - m * r
    let i := c * m + r % m
    let p := passShare t pass passes
    if e.dead then { Hit.none' t p true with hole := if e.noLive ∧ 0 < p ∧ r = r % m then some j else none }
    else
      let h0 := hitShare p e.count e.rank i j
      let h := min h0 255
      let o := outValue h e.gain q e.off
      let (u, v) := heatCell pitch i j
      ⟨t, p, h0, h, o, if h = 0 then none else some (cellKey u v), false, none,
        decide (h ≠ 0) && decide (255 < hitTerm h e.gain q + e.off), decide (h ≠ 0) && o == 0⟩

/-- The calibration entry of beam b; the entries are in table order. -/
def calEntry (es : List CalEntry) (b : Nat) : CalEntry := es.getD b ⟨0, 0, 0, 1, true, false, false, 0⟩

/-- The calibration entries of the generation of a stripe. -/
def State.calOf (s : State) (gen : Nat) : List CalEntry :=
  match s.slotOf 0 gen with
  | none => []
  | some n =>
    match (s.gen.slots.getD n ⟨.empty, none, 0⟩).table with
    | .cal es _ _ _ _ => es
    | _ => []

/-- All hits of a shot, in table order of the beams. -/
def State.hits (s : State) (x : Stripe) (shot : Nat) (qs : List Int) : List Hit :=
  match s.jobOf x.job with
  | none => []
  | some j =>
    let es := s.calOf x.gen
    ((List.range 512).map (fun r => (List.range 512).map (fun c =>
      let t := if shot < j.m * r then 0 else s.entryT (shot - j.m * r) (r % j.m) c
      hitOf j.m j.pitch j.n x.pass shot r c t (calEntry es (512 * r + c)) (clampQ (qs.getD (64 * (r / 8) + c / 8) 16384))))).flatten

/-- The dose added to each cell by a shot's hits (R134). -/
def heatAdds (hs : List Hit) : List (Nat × Nat) :=
  hs.foldl (fun l h => match h.cell with
    | some k => storePut heatDefault l k (storeGet heatDefault l k + h.h)
    | none => l) []

/-- A GEN_RETIRE of the kernel in a slot waits for the boundary (R153). -/
def State.retiring (s : State) (n : Nat) : Bool := s.dose.retire.any (fun pk => pkU pk 0x22 2 == s.genAt n)

/-- The most recently readied kernel generation, the one in force among them (R152); one that is being retired is passed over. -/
def State.pickKernel (s : State) : Option Nat :=
  let cand := [2, 3].filter (fun n => 2 ≤ s.slotState n && !s.retiring n)
  cand.foldl (fun best n => match best with
    | none => some n
    | some b => if (s.gen.slots.getD b ⟨.empty, none, 0⟩).order < (s.gen.slots.getD n ⟨.empty, none, 0⟩).order
        then some n else some b) none

/-- The kernel in force, as DOS_GEN and DOS_STAT show it. -/
def State.showKernel (s : State) : State :=
  let n := [2, 3].find? (fun n => s.slotState n == 3)
  let on := match n with
    | some k => (match (s.gen.slots.getD k ⟨.empty, none, 0⟩).table with | .kernel w => w.enable | _ => false)
    | none => false
  (s.setFld rDosGen 16 16 ((n.map s.genAt).getD 0)).setFlag rDosStat 31 on

/-- The GEN_RETIREs of kernel generation `g` that wait for a boundary complete: its slot has been freed (R153). -/
def State.settleRetires (s : State) (g : Nat) : State :=
  let mine := s.dose.retire.filter (fun pk => pkU pk 0x22 2 == g)
  let t := mine.foldl (fun t pk => t.complete pk (.ok 0)) s
  { t with dose := { t.dose with retire := t.dose.retire.filter (fun pk => !(pkU pk 0x22 2 == g)) } }

/-- A kernel goes out of force (R152, R153): it returns to READY, or its slot is freed where a GEN_RETIRE waits for it, which then
completes. -/
def State.kernelOut (s : State) (n : Nat) : State :=
  if !s.retiring n then s.setFld (rBmhGen n) 30 2 2
  else
    (s.freeSlot n).settleRetires (s.genAt n)

/-- The kernel swap of a stripe boundary, seen at shot 1 (R138, R152, R153, erratum A0-06): what was picked at the pass's first shot
comes into force. -/
def State.swapKernel (s : State) : State :=
  if !s.dose.nextKernel then s
  else
    let out := [2, 3].filter (fun n =>
      (s.slotState n == 3 || (s.slotState n == 2 && s.retiring n)) && !(s.dose.kernel == some n))
    let s1 := out.foldl State.kernelOut s
    let s2 := match s.dose.kernel with | some n => s1.setFld (rBmhGen n) 30 2 3 | none => s1
    { s2 with dose := { s2.dose with nextKernel := false } }.showKernel

/-- The armed probe captures the selected beam (R375, DOS_PROBE_SEL). -/
def State.probe (s : State) (hs : List Hit) (qs : List Int) (shot : Nat) : State :=
  if !s.flag rDosProbeSel 31 then s
  else
    let r := s.fld rDosProbeSel 9 9
    let c := s.fld rDosProbeSel 0 9
    let h := hs.getD (512 * r + c) (Hit.none' 0 0 true)
    ((((s.setFlag rDosProbeSel 31 false).wr rDosProbeVal
      (2 ^ 31 + bit (decide (255 < h.h0)) * 2 ^ 30 + bit h.dead * 2 ^ 29 + h.o * 2 ^ 16 + h.h0)).wr rDosProbeQ
      (clampQ (qs.getD (64 * (r / 8) + c / 8) 16384))).wr rDosProbeShot shot).wr rDosProbeTp (h.t * 2 ^ 16 + h.p)

/-- A count of DOS_CNT goes up by the events of a shot. -/
def State.dosCount (s : State) (n k : Nat) : State := if k = 0 then s else s.count (rDosCnt n) k

/-- The hit units compute a shot (R139): q is fixed for every block, every beam's value is computed, the counters, the report,
the probe and the holes of R130 follow. DESIGN CHOICE:
DOSE_CLIP of the stripe report saturates at 0xFFFFFFFF (log entry 189). -/
def State.computeShot (s : State) (x : Stripe) (shot : Nat) : State :=
  let (p, m, _) := s.geom x
  let s0 : State := if shot = 0 then { s with dose := { s.dose with kernel := s.pickKernel, heat := [] } } else s
  let qs := s0.blockQs m p shot
  let hs := s0.hits x shot qs
  let clips := (hs.filter (fun h => decide (255 < h.h0))).length
  let lost := hs.filterMap (fun h => h.hole)
  let s1 := ((((((s0.dosCount 0 clips).dosCount 1 (hs.filter (·.hi)).length).dosCount 2 (hs.filter (·.zero)).length).dosCount 3
    (qs.filter (fun q => decide (q < 8192))).length).dosCount 4 (qs.filter (fun q => decide (24576 < q))).length).dosCount 6
    lost.length).dosCount 7 1
  let s2 := s1.updStripe x.handle (fun y => { y with clip := satAdd 0xFFFFFFFF y.clip clips })
  let s3 := s2.probe hs qs shot
  let fresh := lost.foldl (fun l j => if l.contains j then l else l ++ [j]) s3.dose.noLive
  let s4 : State := { s3 with dose := { s3.dose with
    q := qs.map clampQ, values := [hs.map (fun h => BitVec.ofNat 8 h.o)], adds := [heatAdds hs], noLive := fresh } }
  let s5 := s4.noLiveUpto x (shot + 1 - m * (m - 1))
  if 511 * m ≤ shot then s5.freeLine (shot - 511 * m) else s5

/-- The hit computation of a shot begins (R116, R139): line `shot` must be committed; shots follow one another in the hit
units. -/
def State.beginShot (s : State) (x : Stripe) (shot : Nat) : State :=
  if x.lines ≤ shot then s
  else
    let s1 := s.lateCheck x shot
    let s2 : State := { s1 with dose := { s1.dose with shots := s1.dose.shots ++ [shot] } }
    if s.dose.shots.isEmpty then s2.computeShot x shot else s2

/-- E of every cell after a shot (R134). -/
def State.heatUpdate (s : State) : State :=
  match s.kernelOn with
  | none => { s with dose := { s.dose with heat := [] } }
  | some k =>
    let adds := s.dose.adds.headD []
    let keys := s.dose.heat.map (·.1) ++ (adds.map (·.1)).filter (fun a => !(s.dose.heat.any (fun e => e.1 == a)))
    let step (l : List (Nat × Nat) × Nat) (key : Nat) : List (Nat × Nat) × Nat :=
      let r := heatNext k.dec (storeGet heatDefault s.dose.heat key) (storeGet heatDefault adds key)
      (storePut heatDefault l.1 key r.1, l.2 + bit r.2)
    let r := keys.foldl step ([], 0)
    { s with dose := { s.dose with heat := r.1 } }.dosCount 5 r.2

/-- The frames of a shot (R188, Table 9-2): with the link disabled none is sent, and the shot will be late (R191, log entry 151). -/
def State.emitShot (s : State) (x : Stripe) (shot : Nat) : State :=
  let flags := bit (shot == 0) + 2 * bit (shot + 1 == x.lines)
  let t := s.sendShot ⟨0, flags, shot, x.stripe, x.pass, x.gen⟩ (s.dose.values.headD [])
  if s.linkUp then { t with bal := { t.bal with framed := shot + 1 } } else t

/-- HIT_COMPUTE_DONE (R139, R191): the shot's frames begin, the map is updated, and the next shot's computation begins. -/
def execHitComputeDone (s : State) : Outcome :=
  match s.dose.shots, s.esc.firing with
  | shot :: rest, some f =>
    match s.stripeOf f.handle with
    | none => .next { s with dose := { s.dose with shots := [], values := [], adds := [] } }
    | some x =>
      let s1 := (s.emitShot x shot).heatUpdate
      let s2 : State := { s1 with dose := { s1.dose with shots := rest, values := [], adds := [] } }
      let s3 := if shot = 1 then s2.swapKernel else s2
      match rest with
      | next :: _ => .next (s3.computeShot x next)
      | [] => .next s3
  | _, _ => .next s

/-- DOS_PROBE_ARM (R375): ARM clears VALID; the capture comes at the next shot computed. -/
def execDosProbeArm (m : Master) (v : Word) (s : State) : Outcome :=
  s.regCmd m rDosProbeSel fun t =>
    let t1 := t.writeByType (m == .load) rDosProbeSel v.toNat
    if bitAt v.toNat 31 then t1.setFlag rDosProbeVal 31 false else t1

end Sys2Proof.Machine
end

