-- ==== Sys2Proof/Machine/Gens.lean ====
section
/-! DEFINITION. Table generations: the three images and their checks (R126, R137, R150, R181), the slots (R151–R153), and
GEN_QUERY (R156). -/

namespace Sys2Proof.Machine

/-! ### Images -/

/-- A calibration entry from its six bytes (Table 6-1). -/
def calParse (b : List Byte) : CalEntry :=
  let f := getU b 5 1
  ⟨getU b 0 2, getS b 2 1, getU b 3 1 + 256 * bits f 0 1, getU b 4 1 + 256 * bits f 1 1 + 1, bitAt f 2, bitAt f 3, bitAt f 4,
    bits f 5 3⟩

/-- The six bytes of a calibration entry (Table 6-1). -/
def calBytes (e : CalEntry) : List Byte :=
  leBytes 2 e.gain ++ leBytesS 1 e.off ++ leBytes 1 e.rank ++ leBytes 1 (e.count - 1) ++
  leBytes 1 (e.rank / 256 + 2 * ((e.count - 1) / 256) + 4 * bit e.dead + 8 * bit e.noLive + 16 * bit e.weak + 32 * e.resv)

/-- Where an image lists beam (r, c) (R150): ORDER 0 is table order, 1 serpentine. -/
def calOffset (order r c : Nat) : Nat :=
  0x40 + 6 * (512 * r + if order = 1 ∧ r % 2 = 1 then 511 - c else c)

/-- The entries of an image in table order. -/
def calEntries (order : Nat) (bs : List Byte) : List CalEntry :=
  ((List.range 512).map (fun r => (List.range 512).map (fun c => calParse (slice bs (calOffset order r c) 6)))).flatten

/-- The entries of column-phase (c, φ) in ascending row (R124). -/
def colPhase (es : List CalEntry) (m c ph : Nat) : List CalEntry :=
  (List.range (512 / m)).map (fun k => calEntry es (512 * (ph + k * m) + c))

/-- A dead entry carries no gain, offset, rank or count (R126). -/
def deadClean (e : CalEntry) : Bool := e.gain == 0 && e.off == 0 && e.rank == 0 && e.count == 1

/-- A column-phase is consistent (R126), and its reserved flag bits are 0 (R150). -/
def phaseOk (l : List CalEntry) : Bool :=
  let live := l.filter (fun e => !e.dead)
  live.map (fun e => e.rank) == List.range live.length &&
  live.all (fun e => e.count == live.length && decide (0x2000 ≤ e.gain) && decide (e.gain ≤ 0x8000)) &&
  l.all (fun e => e.noLive == live.isEmpty && e.resv == 0 && (!e.dead || deadClean e))

/-- The lowest image offset of an entry of a column-phase that fails (R150). -/
def calBad (order m : Nat) (es : List CalEntry) : Option Nat :=
  let bad := ((List.range m).map (fun ph => (List.range 512).filterMap (fun c =>
    if phaseOk (colPhase es m c ph) then none else some (calOffset order ph c)))).flatten
  match bad with
  | [] => none
  | a :: t => some (t.foldl min a)

/-- Checks 3 and 4 of R150: the offset of what fails in the header. -/
def calHeaderBad (h : List Byte) : Option Nat :=
  if crc32c (slice h 0 0x3C) ≠ getU h 0x3C 4 then some 0x3C
  else if getU h 0 2 ≠ 1 then some 0
  else if 4 < getU h 2 1 then some 2
  else if getU h 3 1 ≠ 0 then some 3
  else firstNonZero 0x0A (slice h 0x0A 46)

/-- The checks of R137 on a kernel record. -/
def kernelBad (b : List Byte) : Option Nat :=
  if crc32c (slice b 0 0x3C) ≠ getU b 0x3C 4 then some 0x3C
  else if getU b 0 2 ≠ 1 then some 0
  else if 1 < getU b 2 1 then some 2
  else if 40 < getU b 3 1 then some 3
  else if getU b 6 2 ≠ 0 then some 6
  else if getU b 0x3A 2 ≠ 0 then some 0x3A
  else none

/-- The kernel of a record (Table 6-2). -/
def kernelParse (b : List Byte) : Kernel :=
  ⟨getU b 2 1 == 1, getU b 3 1, getU b 4 2, (List.range 25).map (fun k => getS b (8 + 2 * k) 2)⟩

/-- The checks of R181 on a facet record. DESIGN CHOICE: of several faults, DETAIL names the first in the order header CRC, FORMAT, F, reserved
bytes, entry CRC, entries (log entry 182). -/
def facetBad (b : List Byte) : Option Nat :=
  let f := getU b 2 1
  if crc32c (slice b 0 0x3C) ≠ getU b 0x3C 4 then some 0x3C
  else if getU b 0 2 ≠ 1 then some 0
  else if f = 0 ∨ 64 < f then some 2
  else
    match firstNonZero 3 (slice b 3 53) with
    | some o => some o
    | none =>
      if crc32c (slice b 0x40 (16 * f)) ≠ getU b 0x38 4 then some 0x38
      else (List.range f).findSome? (fun k =>
        let t := getS b (0x44 + 16 * k) 4
        if t < -(2 ^ 20) ∨ 2 ^ 20 < t then some (0x44 + 16 * k)
        else firstNonZero (0x48 + 16 * k) (slice b (0x48 + 16 * k) 8))

/-- The facets of a record (Table 8-6). -/
def facetParse (b : List Byte) : Facets :=
  let f := getU b 2 1
  ⟨(List.range f).map (fun k => getS b (0x40 + 16 * k) 4), (List.range f).map (fun k => getS b (0x44 + 16 * k) 4)⟩

/-! ### Slots -/

/-- GEN of a load or build: 1–65,535 (R151). -/
def fGen (off : Nat) : PField := ⟨off, 2, fun v => !(v == 0)⟩

/-- The FREE slot of a kind (R151). -/
def State.freeOf (s : State) (kind : Nat) : Option Nat := [2 * kind, 2 * kind + 1].find? (fun n => s.slotState n == 0)

/-- A fill begins in slot n: it is FILLING, with its generation, M and content. -/
def State.beginFill (s : State) (n gen mlog : Nat) (t : Table) (f : Fill) : State :=
  { s.wr (rBmhGen n) (2 ^ 30 + mlog * 2 ^ 27 + gen) with
    gen := { s.gen with slots := updAt s.gen.slots n (fun x => { x with table := t, fill := some f }) } }

/-- The generation is refused because its number stands in a slot already, or because no slot is FREE (R151); otherwise the
slot it takes. -/
def State.slotFor (s : State) (pk : Packet) (kind genOff : Nat) (f : Nat → State) : State :=
  if (s.slotOf kind (pkU pk genOff 2)).isSome then s.complete pk (.badParam genOff)
  else
    match s.freeOf kind with
    | none => s.complete pk (.refuse 0x11 8 0 0)
    | some n => f n

/-- A generation load, once its parameters stand: a held number first, then residency, then a FREE slot (log entry 40), then
the image. -/
def State.genLoad (s : State) (pk : Packet) (kind len : Nat) (f : Nat → State) : State :=
  let a := pkU pk 0x20 8
  if (s.slotOf kind (pkU pk 0x28 2)).isSome then s.complete pk (.badParam 0x28)
  else
    match s.notCovered a len with
    | some h => s.complete pk (notResident a h)
    | none => s.slotFor pk kind 0x28 f

/-- What the swap logic makes of the fill of slot n (R137, R150, R181): its table, or the offset of what fails. Of a load it checks what
channel 2 has written, and of a calibration the CRC that the channel has computed over what it read. -/
def State.fillCheck (s : State) (n : Nat) (x : Slot) (f : Fill) : Except Nat Table :=
  match f.load with
  | none => .ok x.table
  | some l =>
    let bs := l.got ++ zeros (0x440 - l.got.length)
    if n < 2 then
      let h := l.head
      let es := calEntries 0 (h ++ l.got)
      if (if s.dma.load = some n then s.rd (rDmaCrc 2) else 0) ≠ getU h 0x38 4 then .error 0x38
      else match calBad (pkU f.pk 0x2A 1) (2 ^ getU h 2 1) es with
        | some o => .error o
        | none => .ok (.cal es (getU h 4 2) (getU h 6 2) (getU h 8 1) (getU h 9 1))
    else if n < 4 then
      match kernelBad bs with
      | some o => .error o
      | none => .ok (.kernel (kernelParse bs))
    else
      match facetBad bs with
      | some o => .error o
      | none => .ok (.facet (facetParse bs))

/-- A fill is done (R150–R152, R154): it is checked; a failing one frees its slot, and another makes its generation READY. A load leaves
channel 2. -/
def State.fillDone (s : State) (n : Nat) : State :=
  let x := s.gen.slots.getD n ⟨.empty, none, 0⟩
  match x.fill with
  | none => s
  | some f =>
    if s.slotState n ≠ 1 then s
    else
      let g := s.genAt n
      match s.fillCheck n x f with
      | .error o => (((s.loadEnds n true).freeSlot n).absent (n / 2) g).complete f.pk (.badParam o)
      | .ok tbl =>
        let k := s.gen.readied + 1
        let t := (s.loadEnds n true).setFld (rBmhGen n) 30 2 2
        ({ t with
            gen := { t.gen with slots := updAt t.gen.slots n (fun x => { x with table := tbl, fill := none, order := k }), readied := k }
          }).complete f.pk (.ok 0)

/-- The load of a slot has begun: it asks for channel 2 (R219), and a pending pulse of the slot's swap sink completes it (R228). -/
def State.loadSlot (s : State) (n : Nat) (pk : Packet) : State :=
  let t := s.loadAsks n pk
  if t.dma.swaps.contains (n / 2) then { t with dma := { t.dma with swaps := t.dma.swaps.erase (n / 2) } }.fillDone n else t

/-- A job-store read error of a channel that runs a Polcon command (R226): the channel's halt is raised, the slot is freed, and
the command names the block. -/
def State.channelError (s : State) (pk : Packet) (ch base blk : Nat) : State :=
  ((s.memUncorr blk).haltChan ch false 1 blk |>.dmaStop ch).complete pk (haltReply ch 1 base blk)

/-- A record that is checked as it is decided, and that channel 2 then loads: it becomes a generation ready within 10 µs (R137, R181, R219). What
the channel has moved is checked as its fill is done (log entry 183). -/
def State.recordLoad (s : State) (pk : Packet) (kind len : Nat) (bad : List Byte → Option Nat) : State :=
  s.genLoad pk kind len fun n =>
    let a := pkU pk 0x20 8
    s.throughPorts pk [(2, a, len)] fun s =>
    let u := s.readBlocks a len
    match u.badBlock a len with
    | some b => u.channelError pk 2 a b
    | none =>
      match bad (s.jsRead a len) with
      | some o => u.complete pk (.badParam o)
      | none => (u.beginFill n (pkU pk 0x28 2) 0 .empty ⟨pk, some ⟨[], []⟩, u.tim.elapsed + t16us 10⟩).loadSlot n pk

/-- CAL_LOAD (R150). The movement checks the header when the command is decided; the entries' CRC and the entries are checked when the fill is
done. -/
def execCalLoad (pk : Packet) (s : State) : Outcome :=
  .next (s.decidePk pk ⟨0x30, fn01, modesRun, [s.fJs 0x20 0x180040, fGen 0x28, ⟨0x2A, 1, fun v => decide (v < 2)⟩]⟩ fun t =>
    let a := pkU pk 0x20 8
    t.genLoad pk 0 0x180040 fun n =>
      t.movementRead pk 4 a a 0x40 fun t h =>
        match calHeaderBad h with
        | some o => t.complete pk (.badParam o)
        | none => (t.beginFill n (pkU pk 0x28 2) (getU h 2 1) .empty
            ⟨pk, some ⟨h, []⟩, t.tim.elapsed + t16us (if pkU pk 0x2A 1 = 1 then 1000 else 500)⟩).loadSlot n pk)

/-- HEAT_LOAD (R137). -/
def execHeatLoad (pk : Packet) (s : State) : Outcome :=
  .next (s.decidePk pk ⟨0x32, fn01, modesRun, [s.fJs 0x20 64, fGen 0x28]⟩ fun t =>
    t.recordLoad pk 1 64 kernelBad)

/-- FACET_LOAD (R181). -/
def execFacetLoad (pk : Packet) (s : State) : Outcome :=
  .next (s.decidePk pk ⟨0x33, fn01, modesRun, [s.fJs 0x20 (s.facetLen (pkU pk 0x20 8)), fGen 0x28]⟩ fun t =>
    t.recordLoad pk 2 (t.facetLen (pkU pk 0x20 8)) facetBad)

/-- A stripe pass fires, for a kernel's retirement: from t_c on its shots use a kernel (log entry 44). -/
def State.passFires (s : State) : Bool :=
  match s.esc.firing with
  | some f => f.tc.isSome
  | none => false

/-- The kernel in slot n is the one that the firing pass uses: in force, or picked at its first shot and in force from its second
(R138, erratum A0-06). -/
def State.passKernel (s : State) (n : Nat) : Bool := s.passFires && s.dose.nextKernel && s.dose.kernel == some n

/-- Retires the generation in slot n (R153). An earlier GEN_RETIRE of a kernel that still waits for a boundary completes with it. -/
def State.retire (s : State) (pk : Packet) (n : Nat) : State :=
  let g := s.genAt n
  let kind := n / 2
  match s.slotState n with
  | 1 =>
    let fill := (s.gen.slots.getD n ⟨.empty, none, 0⟩).fill
    let s1 := ((s.loadEnds n false).freeSlot n).absent kind g
    let s2 := match fill with | some f => s1.complete f.pk (.refuse 0x14 1 g 0) | none => s1
    s2.complete pk (.ok 0)
  | 3 =>
    if kind = 1 then
      if s.passFires then { s with dose := { s.dose with retire := s.dose.retire ++ [pk] } }
      else
        let s1 := (s.freeSlot n).settleRetires g
        ({ s1 with dose := { s1.dose with kernel := none } }.showKernel).complete pk (.ok 0)
    else (s.complete pk (.refuse 0x11 4 s.freeVal 0)).tookFree
  | _ =>
    if kind ≠ 1 ∧ s.pins (kind == 2) g ≠ 0 then (s.complete pk (.refuse 0x11 4 s.freeVal 0)).tookFree
    else if kind = 1 ∧ s.passKernel n then { s with dose := { s.dose with retire := s.dose.retire ++ [pk] } }
    else (if kind = 1 then (s.freeSlot n).settleRetires g else s.freeSlot n).complete pk (.ok 0)

/-- GEN_RETIRE (R153). For PINNED the spec names no index of a generation: DETAIL[23:0] is a free value (log entry 3). -/
def execGenRetire (pk : Packet) (s : State) : Outcome :=
  .next (s.decidePk pk ⟨0x31, fn01, modesRunHold, [⟨0x20, 1, fun v => decide (v < 3)⟩, anyField 0x22 2]⟩ fun t =>
    let g := pkU pk 0x22 2
    match t.slotOf (pkU pk 0x20 1) g with
    | none => t.complete pk (.refuse 0x14 1 g 0)
    | some n => t.retire pk n)

/-- PINS of a slot (R64): only calibration and facet generations are named by stripes. -/
def State.slotPins (s : State) (n : Nat) : Nat :=
  if s.slotState n = 0 ∨ n / 2 = 1 then 0 else s.pins (n / 2 == 2) (s.genAt n)

/-- A slot's record in GEN_QUERY (R156). -/
def State.slotRecord (s : State) (n : Nat) : List Byte :=
  leBytes 2 (s.genAt n) ++ leBytes 1 (s.slotState n) ++ leBytes 1 (s.fld (rBmhGen n) 27 3) ++ leBytes 1 (s.slotPins n) ++ zeros 3

/-- GEN_QUERY (R156). -/
def execGenQuery (pk : Packet) (s : State) : Outcome :=
  .next (s.decidePk pk ⟨0x34, fnAll, modesAny, fByte 3⟩ fun t =>
    let k := pkU pk 0x20 1
    t.replyRecords pk 8 (t.slotRecord (2 * k) ++ t.slotRecord (2 * k + 1)))

end Sys2Proof.Machine
end

