-- ==== Sys2Proof/Machine/Time.lean ====
section
/-! DEFINITION. The timekeeper and its steps (R254–R262), and the clock generators (R271–R281). -/

namespace Sys2Proof.Machine

/-! ### Conditions of level sources -/

/-- A record takes the value `x`, in which a condition has ended: once none is left, an acknowledged record clears (R330), and the
quiet period of a severe one restarts (R339). -/
def State.withEnded (s : State) (x : FaultRec) : State :=
  if x.stands then s.setRec x
  else
    let s1 := s.setRec { x with state := if x.state = 2 then 0 else x.state }
    let s2 := if 3 ≤ x.eff ∧ x.state ≠ 0 then { s1 with flt := { s1.flt with lastCond := s1.tim.elapsed } } else s1
    s2.aliveCheck

/-- The condition of a level source on its real input ends (R330). -/
def State.condEnd (s : State) (src : Nat) : State :=
  if (s.recOf src).cond then s.withEnded { s.recOf src with cond := false } else s

/-- The condition of a level source on its injected input ends (R341). -/
def State.injEnd (s : State) (src : Nat) : State :=
  if (s.recOf src).inj then s.withEnded { s.recOf src with inj := false } else s

/-- The pair of a source is valid again (R326). -/
def State.wireEnd (s : State) (src : Nat) : State :=
  if (s.recOf src).wire then s.withEnded { s.recOf src with wire := false } else s

/-- The collector reads the source as not raised (R326). -/
def State.quietEnd (s : State) (src : Nat) : State :=
  if (s.recOf src).stands then s.withEnded { s.recOf src with cond := false, inj := false, wire := false } else s

/-! ### Free bytes -/

/-- `n` free values of 4 bytes each (log entry 3). -/
def State.freeBytes (s : State) : Nat → List Byte
  | 0 => []
  | n + 1 => leBytes 4 (Config.freeValue (s.free + n)).toNat ++ s.freeBytes n

/-- `n` free values have been taken. -/
def State.tookFreeN (s : State) (n : Nat) : State := { s with free := s.free + n }

/-! ### The timekeeper -/

/-- INCR within ±1,000 ppm of nominal (R255). -/
def incrMin : Nat := 2746030290371
/-- The highest INCR. -/
def incrMax : Nat := 2751527848509

/-- A tick of the timekeeper (R254, R255): a new INCR is used from the first tick after its write. -/
def State.tick (s : State) : State :=
  let inc := s.tim.incrNext.getD s.tim.incr
  let acc := s.tim.sub + inc
  let ns := s.tim.ns + acc / 2 ^ 40
  let t : TimState := { s.tim with
    incr := inc, incrNext := none, sub := acc % 2 ^ 40,
    ns := if 1000000000 ≤ ns then ns - 1000000000 else ns,
    sec := if 1000000000 ≤ ns then (s.tim.sec + 1) % 2 ^ 64 else s.tim.sec,
    elapsed := s.tim.elapsed + 163840,
    upNs := if s.mode = 0 then s.tim.upNs else s.tim.upNs + 163840 }
  { s with tim := t }

/-- The enabled outputs that send the PPS source (R280). -/
def State.ppsOuts (s : State) : List Nat :=
  (List.range 4).filter (fun n => s.flag (rClkOut n) 31 && s.fld (rClkOut n) 28 3 == 5)

/-- PPS outputs have been high for 10 µs, and fall (R280). -/
def State.ppsFall (s : State) : State :=
  if s.tim.ppsLow = 0 ∨ s.tim.elapsed < s.tim.ppsLow then s
  else
    let t := s.ppsOuts.foldl (fun t n => t.emitPin (.pps n false)) s
    { t with tim := { t.tim with ppsLow := 0 } }

/-- The escapement's timebase counts four periods of the SHOT clock in a tick of 2.5 ns, while that clock runs (R161): the generator is
locked or coasts. Nothing of the timekeeper reaches it. -/
def State.shotClocks (s : State) : State :=
  if 2 ≤ s.fld (rClkPll 5) 30 2 then { s with esc := { s.esc with base := s.esc.base + BitVec.ofNat 64 (4 * 40960) } } else s

/-- The die sensors convert every 1 ms while the main domain is up (R368): their hottest reading is a free value, and PEAK is the highest since
the last CLR (log entry 86). -/
def State.dieSensors (old s : State) : State :=
  if old.tim.elapsed / t16ms = s.tim.elapsed / t16ms then s
  else
    let now := s.freeVal % 65536
    let peak := s.fld rPadTjPeak 0 16
    let t := s.tookFree.wr rPadTj (2 ^ 31 + now)
    if signed 16 peak < signed 16 now then t.setFld rPadTjPeak 0 16 now else t

/-- TIMEKEEPER_TICK (R254, R161, R280, R368). The detectors with an injection compare (R341). -/
def execTimekeeperTick (s : State) : Outcome := if s.dom.main then .next (s.dieSensors s.tick.shotClocks.ppsFall).injCheck else .next s

/-- CRYSTAL_EDGE (R262): the coarse timekeeper advances in STANDBY. -/
def execCrystalEdge (s : State) : Outcome :=
  if s.dom.main then .next s
  else
    let d := (2000000000 + signed 24 (s.rd rTimRtcTrim)).toNat
    let f := s.tim.cFrac + d
    let ns := s.tim.cNs + f / 65536
    .next { s with tim := { s.tim with
      cFrac := f % 65536, cNs := ns % 1000000000, cSec := (s.tim.cSec + ns / 1000000000) % 2 ^ 64,
      elapsed := s.tim.elapsed + 2000000000,
      upNs := if s.mode = 0 then s.tim.upNs else s.tim.upNs + 2000000000 } }

/-- The coarse timekeeper takes the main one's value (R262). -/
def State.toCoarse (s : State) : State :=
  { s with tim := { s.tim with cSec := s.tim.sec, cNs := s.tim.ns, cFrac := s.tim.sub / 2 ^ 24 } }

/-- The main timekeeper is loaded from the coarse one, with SET = 0 (R259, R262). -/
def State.fromCoarse (s : State) : State :=
  { s with tim := { s.tim with sec := s.tim.cSec, ns := s.tim.cNs, sub := s.tim.cFrac * 2 ^ 24 } }.setFlag rTimStat 31 false

/-- A stamp at sub-tick position `e` (R257), in 2^-16 ns. -/
def State.stamp (s : State) (e : Nat) : Nat := (s.now40 + e * s.tim.incr / 16) / 2 ^ 24

/-- TIM_NOW_SEC_LO_READ (R256): the reader's shadow is captured. -/
def execTimNowSecLoRead (m : Master) (s : State) : Outcome :=
  if !s.masterUp m then .next s
  else
    match s.reach m rTimNowSecLo with
    | .reserved => .next (s.touch.emit (.readValue m rTimNowSecLo 0#32))
    | .down => .next (s.touch.emit (.readError m rTimNowSecLo))
    | .ok =>
      let c := masterCode m
      let rest := s.tim.shadows.filter (fun x => !(x.1 == c))
      let t := s.touch
      .next ({ t with tim := { t.tim with shadows := rest ++ [(c, s.tim.sec, s.tim.ns, s.tim.sub / 2 ^ 24)] } }.emit
        (.readValue m rTimNowSecLo (BitVec.ofNat 32 s.tim.sec)))

/-! ### The key and the steps -/

/-- KEY_ARMED follows the key. -/
def State.setKey (s : State) (k : KeyState) : State :=
  { s with tim := { s.tim with key := k } }.setFlag rTimStat 29 (match k with | .armed _ _ => true | _ => false)

/-- A write to a TIM register other than TIM_KEY breaks the key's sequence, or disarms the key (R260). -/
def State.timTouched (s : State) (m : Master) (off : Nat) : State :=
  match s.tim.key with
  | .idle => s
  | .half _ => s.setKey .idle
  | .armed k _ =>
    if k = m ∧ (off = rTimStepSecLo ∨ off = rTimStepSecHi ∨ off = rTimStepNs) then s else s.setKey .idle

/-- TRIM_MEASURE (R260, R262): while LOCKED is 1, the AOC writes TRIM. -/
def execTrimMeasure (trim : BitVec 24) (s : State) : Outcome :=
  if s.dom.main && s.flag rTimStat 30 then .next ((s.timTouched .aoc rTimRtcTrim).wr rTimRtcTrim trim.toNat) else .next s

/-- TIM_KEY_WRITE (R260). -/
def execTimKeyWrite (m : Master) (v : Word) (s : State) : Outcome :=
  s.regCmd m rTimKey fun t =>
    let b := v.toNat % 256
    match t.tim.key with
    | .half k => if k = m ∧ b = 0xA5 then t.setKey (.armed m t.tim.elapsed)
        else if b = 0x5A then t.setKey (.half m) else t.setKey .idle
    | _ => if b = 0x5A then t.setKey (.half m) else t.setKey .idle

/-- KEY_EXPIRY (R260). -/
def execKeyExpiry (s : State) : Outcome :=
  match s.tim.key with
  | .armed _ _ => .next (s.setKey .idle)
  | _ => .next s

/-- A new INCR is written, taken as the nearest limit (R255). -/
def State.setIncr (s : State) (v : Nat) : State :=
  let i := clampN v incrMin incrMax
  ({ s with tim := { s.tim with incrNext := some i } }.wr rTimIncrLo (i % 2 ^ 32)).wr rTimIncrHi (i / 2 ^ 32)

/-- TIM_INCR_HI_WRITE (R255). -/
def execTimIncrHiWrite (m : Master) (v : Word) (s : State) : Outcome :=
  s.regCmd m rTimIncrHi fun t =>
    (t.timTouched m rTimIncrHi).setIncr (v.toNat % 65536 * 2 ^ 32 + t.rd rTimIncrLo)

/-- The servo's frequency estimate is set with INCR (R268). -/
def State.setRate (s : State) (v : Nat) : State :=
  let t := s.setIncr v
  { t with tim := { t.tim with estimate := clampN v incrMin incrMax } }

/-- TIME_INCR (R255, R260, R268): the movement, M2, writes both halves. -/
def execTimeIncr (pk : Packet) (s : State) : Outcome :=
  .next (s.decidePk pk ⟨0x72, [.h1], modesRun,
      [⟨0x20, 6, fun v => decide (incrMin ≤ v) && decide (v ≤ incrMax)⟩, ⟨0x26, 1, fun v => v == 0⟩, ⟨0x27, 1, fun v => v == 0⟩]⟩
    fun t => ((t.timTouched .m2 rTimIncrHi).setRate (pkU pk 0x20 6)).complete pk (.ok 0))

/-- The step registers hold an offset (R258). -/
def State.stepOffset (s : State) : Int :=
  signed 64 (s.rd rTimStepSecHi * 2 ^ 32 + s.rd rTimStepSecLo) * 1000000000 + signed 32 (s.rd rTimStepNs)

/-- TIM_JMAX, taken as its limit above it (R258). -/
def State.jmax (s : State) : Nat := min 999999999 (s.fld rTimJmax 0 30)

/-- A committed step is tested and applied (R258–R260, erratum A0-04). -/
def State.applyStep (s : State) (r : TimeStepReq) : State :=
  let s1 := { s with tim := { s.tim with step := none } }.setFlag rTimStat 28 false
  let reply (t : State) (x : Reply) : State := match r.pk with | some pk => t.complete pk x | none => t
  let total : Int := (s.tim.sec * 1000000000 + s.tim.ns : Nat) + r.offset
  if total < 0 then reply (s1.setFld rTimStat 26 2 3) (.badParam 0x20)
  else if s.flag rTimStat 31 ∧ !r.forced ∧ s.jmax < r.ns.natAbs then reply (s1.setFld rTimStat 26 2 2) (.plain 0x40 0 0)
  else
    let n := total.toNat
    let s2 := { s1 with tim := { s1.tim with sec := n / 1000000000 % 2 ^ 64, ns := n % 1000000000 } }
    let s3 := (s2.setFld rTimStat 26 2 1).setFlag rTimStat 31 true
    let s4 := if r.forced then (s3.setW1c rTimStat 25).raise srcTimeForced else s3
    reply s4 (.ok 0)

/-- A step that is committed, and not held, is applied before the registers take another: its tick has come (R258; log entry 144). -/
def State.settleStep (s : State) : State :=
  match s.tim.step with
  | some r => if s.flag rTimStat 28 then s else s.applyStep r
  | none => s

/-- A step is committed (R258, R261): held while a RUN_SYNC step is open; a key armed by its master makes it forced, and is
spent. -/
def State.commitTime (s : State) (m : Master) (pk : Option Packet) (force : Bool) : State :=
  let keyed := match s.tim.key with | .armed k _ => k == m | _ => false
  let s1 := if keyed then s.setKey .idle else s
  { s1 with tim := { s1.tim with step := some ⟨s1.stepOffset, m, force || keyed, pk, signed 32 (s1.rd rTimStepNs)⟩ } }.setFlag
    rTimStat 28 s1.run.cur.isSome

/-- The movement, M2, writes a step and commits it (R258, R260). -/
def State.moveStep (s : State) (lo hi ns : Nat) (pk : Option Packet) (force : Bool) : State :=
  ((((s.timTouched .m2 rTimStepNs).wr rTimStepSecLo lo).wr rTimStepSecHi hi).wr rTimStepNs ns).commitTime .m2 pk force

/-- TIM_STEP_NS_WRITE (R258, R261). -/
def execTimStepNsWrite (m : Master) (v : Word) (s : State) : Outcome :=
  s.regCmd m rTimStepNs fun t =>
    if t.flag rTimStat 28 then (t.timTouched m rTimStepNs).access rTimStepNs
    else ((t.settleStep.timTouched m rTimStepNs).wr rTimStepNs v.toNat).commitTime m none false

/-- STEP_APPLY (R258–R261): the committed step is tested and applied at the first tick after the commit, or, where it is held, after
the closing rise. -/
def execStepApply (s : State) : Outcome :=
  match s.tim.step with
  | none => .next s
  | some r => if s.flag rTimStat 28 && s.run.cur.isSome then .next s else .next (s.applyStep r)

/-- TIME_STEP (R258, R260, R261): both halves of OFFSET are tested against TIM_JMAX. With FORCE the key's two writes come first, and
spend any other master's. While another step is held, the registers take no step, and the command is refused (log entry 35). -/
def execTimeStep (pk : Packet) (s : State) : Outcome :=
  .next (s.decidePk pk ⟨0x71, [.h1], [1], [anyField 0x20 8, anyField 0x28 4, ⟨0x2C, 1, fun v => decide (v < 2)⟩]⟩ fun u =>
    let t := u.settleStep
    let o := pkS pk 0x20 8 * 1000000000 + pkS pk 0x28 4
    let force := pkU pk 0x2C 1 == 1
    let total : Int := (t.tim.sec * 1000000000 + t.tim.ns : Nat) + o
    if total < 0 then t.complete pk (.badParam 0x20)
    else if t.flag rTimStat 31 && !force && decide (t.jmax < o.natAbs) then t.complete pk (.plain 0x40 0 0)
    else if t.flag rTimStat 28 then (t.access rTimStepNs).complete pk (.plain 0x40 0 0)
    else
      (if force then t.setKey .idle else t).moveStep (pkU pk 0x20 4) (pkU pk 0x24 4) (pkU pk 0x28 4) (some pk) force)

/-- TIME_READ (R56). -/
def execTimeRead (pk : Packet) (s : State) : Outcome :=
  .next (s.decidePk pk ⟨0x70, fnAll3, modesAny, []⟩ fun t => t.complete pk ⟨0, 0, 0, t.timeNow, 1, false⟩)

/-! ### Clock generators -/

/-- STATE of generator g set. -/
def State.setClk (s : State) (g v : Nat) : State := s.setFld (rClkPll g) 30 2 v
/-- STATE of generator g: 0 off, 1 waiting for lock, 2 locked, 3 coasting. -/
def State.clkState (s : State) (g : Nat) : Nat := s.fld (rClkPll g) 30 2
/-- When generator g began to coast. -/
def State.setCoastAt (s : State) (g : Nat) (t : Option T16) : State :=
  { s with clk := { s.clk with gens := updAt s.clk.gens g (fun x => { x with coastAt := t }) } }

/-- Whether generator g still has its lock wait to pass. -/
def State.setWaiting (s : State) (g : Nat) (b : Bool) : State :=
  { s with clk := { s.clk with gens := updAt s.clk.gens g (fun x => { x with waiting := b }) } }

/-- Generator g coasts before its lock wait has passed (R272, R275). -/
def State.clkWaits (s : State) (g : Nat) : Bool := (s.clk.gens.getD g ⟨0, none, false⟩).waiting

/-- LOCK_WAIT_EXPIRY (R272): LOCKWAIT has passed since the generator was enabled, be it that it coasts. -/
def execLockWaitExpiry (g : Fin 6) (s : State) : Outcome :=
  if s.clkState g = 1 then .next (s.setClk g 2) else .next (s.setWaiting g false)

/-- LOSS_OF_REFERENCE (R275). -/
def execLossOfReference (g : Fin 6) (s : State) : Outcome :=
  if s.clkState g = 1 ∨ s.clkState g = 2 then
    let s1 := (((s.setWaiting g (s.clkState g == 1)).setClk g 3).setFlag rClkStat (16 + g.val) true).setW1c rClkStat (8 + g.val)
    .next ((s1.setCoastAt g (some s.tim.elapsed)).onsetOr (srcClkCoast g) (fun t => t.raise (srcClkCoast g)))
  else .next s

/-- COAST_END (R275): the lock wait is not taken again; one that had not passed goes on (R272). -/
def execCoastEnd (g : Fin 6) (s : State) : Outcome :=
  if s.clkState g = 3 then
    .next (((((s.setClk g (if s.clkWaits g then 1 else 2)).setWaiting g false).setFlag rClkStat (16 + g.val) false).setCoastAt g none).condEnd (srcClkCoast g))
  else .next s

/-- The lowest shot, or interval, not yet locked (R68, R277). -/
def State.lowestUnlocked (s : State) : Nat :=
  match s.esc.firing with
  | none => 0
  | some f => if s.mode = 3 then s.lowestUnfired else f.pend

/-- The reply of a CHECK_RUN that R277 ends. -/
def chkShotClock (steps : Nat) (counts : List Byte) : Reply := ⟨2, 4 * 2 ^ 24, steps, counts, 1, false⟩

/-- The generator is back on this clock, behind this command: its coast ends before its limit (R342). -/
def State.coastEnds (s : State) (g : Nat) : Bool := s.ties (fun c => match c with | .coastEnd h => h.val == g | _ => false)

/-- SHOT_CLOCK_LIMIT (R277). -/
def execShotClockLimit (s : State) : Outcome :=
  if s.clkState 5 = 3 ∧ !s.coastEnds 5 then
    .next ((s.stopCheck chkShotClock).raiseFull (Raise.of srcShotClock) (some (0x04, s.lowestUnlocked)) chkShotClock)
  else .next s

/-- CLK_COAST_LIMIT (R276). -/
def execClkCoastLimit (g : Fin 6) (s : State) : Outcome :=
  if g.val < 2 ∧ s.clkState g = 3 ∧ !s.coastEnds g then .next (s.raise srcCoastLimit) else .next s

/-- LINK_COAST (R276): within a firing span the remainder is blanked with reason FAULT. -/
def execLinkCoast (s : State) : Outcome :=
  if s.clkState 3 = 3 ∧ s.bal.span then .next (s.raiseBlank srcLinkCoast 0x0B s.lowestUnfired) else .next s

/-- SSC_STOP (R274): a validated step into ARRAY, SCAN or CHECK stops the modulation. -/
def execSscStop (s : State) : Outcome :=
  match s.run.cur with
  | some c =>
    if s.flag rClkSsc 30 && c.phase == StepPhase.validating && (match c.cmd with | some k => exposing k.target | none => false) then
      .next s.stopSpread
    else .next s
  | none => .next s

/-! ### Clock outputs -/

/-- The output frequency of a CLK_OUT setting is above its format's limit (R280), in kHz; PPS and reserved sources have none. -/
def clkOutFast (v : Nat) : Bool :=
  let khz := [100000, 156250, 100000, 1600000, 400000].getD (bits v 28 3) 0
  let top := [800000, 250000, 250000, 1600000].getD (bits v 26 2) 0
  bitAt v 31 && decide (top * (bits v 0 16 + 1) < khz)

/-- CLKOUT[n] takes its setting (R280): a source divided by N, high for half of it, rounded up; one above its format's limit is held low,
with ACCESS. -/
def State.clkOutSet (s : State) (n : Nat) : State :=
  let v := s.rd (rClkOut n)
  let div := bits v 0 16 + 1
  if clkOutFast v then (s.emitPin (.clkOut n (bits v 28 3) 0 0)).access (rClkOut n)
  else if !bitAt v 31 then s.emitPin (.clkOut n (bits v 28 3) 0 0)
  else s.emitPin (.clkOut n (bits v 28 3) (if bits v 28 3 = 5 then 1 else div) (if bits v 28 3 = 5 then 0 else (div + 1) / 2))

/-- SYNC_IN_RISE (R281): armed outputs restart, and the rise is stamped. -/
def execSyncInRise (e : Fin 16) (s : State) : Outcome :=
  if !s.dom.main then .next s
  else
    let ns := s.stamp e / 65536 % 1000000000
    let s1 := (s.wr rTimSyncNs (2 ^ 31 + ns)).hwSet rTimSyncNs (2 ^ 31) 0
    .next ((List.range 4).foldl (fun t n =>
      if (t.flag (rClkOut n) 23 || t.flag (rClkOut n) 22) && !(t.fld (rClkOut n) 28 3 == 5) then
        { t with clk := { t.clk with restarts := updAt t.clk.restarts n (· + 1) } }.setFlag (rClkOut n) 23 false
      else t) s1)

/-- PPS_EDGE (R280): every enabled output of the PPS source rises. -/
def execPpsEdge (s : State) : Outcome :=
  let l := if s.dom.main then s.ppsOuts else []
  if l.isEmpty then .next s
  else
    let t := l.foldl (fun t n => t.emitPin (.pps n true)) s
    .next { t with tim := { t.tim with ppsLow := t.tim.elapsed + t16us 10 } }

end Sys2Proof.Machine
end

