-- ==== Sys2Proof/Machine/Beams.lean ====
section
/-! DEFINITION. The beam outputs: group strobes (R192–R194), the strobe watchdog (R197, R198), the back channel (R201–R203),
spares (R204, R205), lane rates (R186) and IDLE frames (R190). -/

namespace Sys2Proof.Machine

/-! ### Strobes -/

/-- A map from shots to group masks with groups `w` added at a shot. -/
def addMask (l : List (Nat × Nat)) (shot w : Nat) : List (Nat × Nat) :=
  if l.any (fun p => p.1 == shot) then l.map (fun p => if p.1 = shot then (p.1, p.2 ||| w) else p) else l ++ [(shot, w)]

/-- The mask of a shot. -/
def maskOf (l : List (Nat × Nat)) (shot : Nat) : Nat := ((l.find? (fun p => p.1 == shot)).map (·.2)).getD 0

/-- The first shot from `n` on that is not late. -/
def skipLate (late : List Nat) : Nat → Nat → Nat
  | 0, n => n
  | k + 1, n => if late.contains n then skipLate late k (n + 1) else n

/-- A shot is wholly fired: the shots below the next one that fires are done with. -/
def State.shotFull (s : State) (shot : Nat) : State :=
  { s with bal := { s.bal with times := s.bal.times.filter (fun x => !(x.shot == shot)),
                               risen := s.bal.risen.filter (fun p => !(p.1 == shot)),
                               fell := s.bal.fell.filter (fun p => !(p.1 == shot)),
                               full := skipLate s.bal.late s.bal.late.length (shot + 1) } }

/-- The strobe of group g has fallen at its full width for a shot. -/
def State.groupFell (s : State) (g shot : Nat) : State :=
  let s1 : State := { s with bal := { s.bal with fell := addMask s.bal.fell shot (2 ^ g) } }
  if maskOf s1.bal.fell shot = 0xFFFF then s1.shotFull shot else s1

/-- S of R192: the stagger of a rate, in 2^-16 ns. -/
def stagger (rate : Nat) : Nat := 640 * (pMin rate / 10240)

/-- The number of set bits among the low `n`. -/
def popCount (n w : Nat) : Nat := ((List.range n).filter (bitAt w)).length

/-- The group of slot k at a shot (R193). -/
def slotGroup (shot k : Nat) : Nat := (shot + k) % 16

/-- When group g rises at a shot (R193). -/
def State.riseTime (s : State) (x : ShotTime) (g : Nat) : Int :=
  x.t + ((g + 16 - x.shot % 16) % 16 * x.step : Nat) + 640 * signed 8 (s.apFld (rBalGskew g) 0 8)

/-- The strobe of group g rises for a shot (R193). A group cut by its watchdog stays low (R198). -/
def State.strobeUp (s : State) (g shot : Nat) : State :=
  let s1 : State := { s with bal := { s.bal with risen := addMask s.bal.risen shot (2 ^ g) } }
  if s.flag rBalCut g then s1.groupFell g shot
  else
    let t := match s.bal.times.find? (fun x => x.shot == shot) with | some x => s.riseTime x g | none => 0
    let s2 := s1.emit (.strobe g true (some t))
    { s2 with bal := { s2.bal with high := s2.bal.high ++ [⟨g, shot, t⟩] } }

/-- A shot or pattern shot is fired: its slot 0 strobe rises, and its status is awaited (R193, R202). -/
def State.fireShot (s : State) (x : ShotTime) (reading : Nat) (again : Bool) : State :=
  let due := (x.t + (15 * x.step : Nat) + 262144000).toNat
  let t : State := { s with bal := { s.bal with
    times := s.bal.times ++ [x], status := s.bal.status ++ [⟨x.shot, [0, 1, 2, 3], due, reading, again⟩] } }
  t.strobeUp (slotGroup x.shot 0) x.shot

/-- The stripe's last shot has been fired wholly: the stripe completes (R67), a stripe boundary follows (R152, R204), and the
span ends (R190, R196). An aborted stripe's span ends when nothing of it is left to fire, and so does a CHECK run's. -/
def State.spanCheck (s : State) : State :=
  match s.esc.firing with
  | none => s.checkSpanEnd
  | some f =>
    if f.ended then (if s.bal.span ∧ f.spent s.bal then s.endSpan else s)
    else
      match s.stripeOf f.handle with
      | none => s
      | some x =>
        if f.fired < x.lines ∨ !s.bal.risen.isEmpty ∨ s.mode = 3 then s
        else
          let s1 := (s.updStripe f.handle (fun y => { y with shots := y.lines })).flushRuns f.handle
          ((s1.completeStripe f.handle).boundary).endSpan

/-- GROUP_STROBE_RISE (R193, R194): the group rises for a fired shot whose next slot is the group's. -/
def execGroupStrobeRise (g : Fin 16) (s : State) : Outcome :=
  if s.bal.high.any (fun h => h.g == g.val) then .next s
  else
    match s.bal.risen.find? (fun p => decide (popCount 16 p.2 < 16) && slotGroup p.1 (popCount 16 p.2) == g.val) with
    | some p => .next (s.strobeUp g.val p.1).spanCheck
    | none => .next s

/-- The watchdog of group g expires on this clock, behind this command. -/
def State.wdogTies (s : State) (g : Nat) : Bool :=
  s.ties (fun c => match c with | .strobeWatchdog x => x.group.val == g | _ => false)

/-- GROUP_STROBE_FALL (R194): WIDTH after the rise. Where the watchdog's count expires on the clock of the fall, the cut wins (R197). -/
def execGroupStrobeFall (g : Fin 16) (s : State) : Outcome :=
  match s.bal.high.find? (fun h => h.g == g.val) with
  | none => .next s
  | some h =>
    if s.wdogTies g.val then .next s
    else
      let s1 : State := { s with bal := { s.bal with
        high := s.bal.high.filter (fun k => !(k.g == g.val)), lastFall := some ⟨g.val, h.shot, s.tim.elapsed⟩ } }
      .next ((s1.emit (.strobe g.val false (some (h.rise + 640 * widthOf (s.ap rBalStb))))).groupFell g.val h.shot).spanCheck

/-- The shot of a strobe that is high, or whose fall was sensed on this clock: its watchdog's cut wins the tie (R197). -/
def State.cutShot (s : State) (g : Nat) : Option Nat :=
  match s.bal.high.find? (fun h => h.g == g) with
  | some h => some h.shot
  | none => match s.bal.lastFall with
    | some k => if k.g = g ∧ s.onClock k.at_ then some k.shot else none
    | none => none

/-- A strobe whose level stays high after its cut is tristated until its BAL_CUT bit is cleared (R197, R198, log entry 152). -/
def State.tristateIf (s : State) (g : Nat) (stays : Bool) : State :=
  if stays then { s with bal := { s.bal with tri := s.bal.tri.filter (· != g) ++ [g] } }.emit (.tristate g) else s

/-- STROBE_WATCHDOG (R197, R198): the strobe is cut with every other one, BLANK_ALL is asserted, and the stripe is blanked from
the lower of the cut strobe's shot and the lowest shot not wholly fired. A CHECK run fires no further strobe. While an injection withholds
the fall, the watchdog expires on a strobe that has fallen (R341). -/
def execStrobeWatchdog (x : StuckStrobe) (s : State) : Outcome :=
  let g := x.group
  match s.cutShot g.val with
  | none => .next (if s.bal.span then s.waitOut (srcStrobeStuck g.val) else s)
  | some shot =>
    let sb := min shot s.bal.full
    let s1 := ((s.setW1c rBalCut g.val).count (rBalCnt 4) 1).assertBlank
    let s2 := (s1.bal.high.foldl (fun t k => t.emit (.strobe k.g false none)) s1).tristateIf g.val x.stays
    let s3 : State := { s2 with bal := { s2.bal with high := [], times := [], risen := [], fell := [] }
                                gen := { s2.gen with cur := s2.gen.cur.map (fun c => { c with cut := true }) } }
    .next (s3.raiseBlank (srcStrobeStuck g.val) 0x09 sb)

/-! ### Late frames -/

/-- The groups of a mask that read a line at a shot: the lowest and the highest line (R203), and the groups. -/
def groupLines (m lines shot mask : Nat) : Option (Nat × Nat × Nat) :=
  let gs := (List.range 16).filter (fun g => bitAt mask g && decide (32 * m * g ≤ shot))
  match gs with
  | [] => none
  | _ =>
    let lo := (gs.map (fun g => shot - m * (32 * g + 31))).foldl min shot
    let hi := (gs.map (fun g => min (lines - 1) (shot - 32 * m * g))).foldl max 0
    some (lo, hi, sumN (gs.map (fun g => 2 ^ g)))

/-- Groups of a shot were blanked, by an internal raise or not (R343): consecutive shots form one record (R203). -/
def State.groupBlanked (s : State) (x : Stripe) (shot mask : Nat) (internal : Bool) : State :=
  match groupLines (s.geom x).2.1 x.lines shot mask with
  | none => s
  | some (lo, hi, w) =>
    match s.bal.run with
    | some r =>
      if r.first ≤ shot + 1 ∧ shot ≤ r.last + 1 then
        { s with bal := { s.bal with run := some ⟨min r.first shot, max r.last shot, r.mask ||| w, min r.jLo lo, max r.jHi hi,
          r.internal || internal⟩ } }
      else
        let t := s.logGroups x r
        { t with bal := { t.bal with run := some ⟨shot, shot, w, lo, hi, internal⟩ } }
    | none => { s with bal := { s.bal with run := some ⟨shot, shot, w, lo, hi, internal⟩ } }

/-- A shot without such groups ends the run before it. -/
def State.groupClean (s : State) (x : Stripe) (shot : Nat) : State :=
  match s.bal.run with
  | some r =>
    if r.last < shot then
      let t := s.logGroups x r
      { t with bal := { t.bal with run := none } }
    else s
  | none => s

/-- The stripe whose shots are being fired, or whose statuses still arrive. -/
def State.beamStripe (s : State) : Option Stripe :=
  match s.esc.firing with
  | some f => match s.stripeOf f.handle with
    | some x => some x
    | none => s.bal.tail
  | none => s.bal.tail

/-- The stripe that a firing record is about: admitted, or completed with locked shots still to fire. -/
def State.firedStripe (s : State) (f : Firing) : Option Stripe :=
  match s.stripeOf f.handle with
  | some x => some x
  | none => s.bal.tail

/-- FRAME_LATE_CHECK (R191): at t_s − 230 ns of the next locked shot, also of one that fires on after a cancel or a slip; `left` says that
the last block of frames sent has left. A shot whose frames have not been sent is late. In a CHECK run it is about the next pattern shot.
The lines of a late shot are a hole, charged to the part (R343). -/
def execFrameLateCheck (left : Bool) (s : State) : Outcome :=
  match s.esc.firing with
  | none =>
    match s.gen.cur with
    | some c => if left ∨ c.done ∨ s.bal.late.contains c.total then .next s
                else .next { s with bal := { s.bal with late := s.bal.late ++ [c.total] } }
    | none => .next s
  | some f =>
    match f.locks, s.firedStripe f with
    | l :: _, some x =>
      if (left ∧ l.shot < s.bal.framed) ∨ s.bal.late.contains l.shot then .next s
      else
        let s1 := s.groupBlanked x l.shot 0xFFFF true
        let s2 : State := { s1 with bal := { s1.bal with
          late := s1.bal.late ++ [l.shot], full := if s1.bal.full = l.shot then l.shot + 1 else s1.bal.full } }
        .next (s2.raiseFull { Raise.of srcFrameLate with r191 := true } none (chkFault srcFrameLate))
    | _, _ => .next s

/-! ### The back channel -/

/-- Lane l is reported damaged (R203, BAL_LERR): in a stripe pass it counts toward THRESH (R205), and its source is raised. -/
def State.laneDamaged (s : State) (l : Nat) : State :=
  let s1 := (s.countIn 0xFFFF (rBalLerr l) 1).count (rBalCnt 1) 1
  let k := ((s1.bal.damage.find? (fun p => p.1 == l)).map (·.2)).getD 0
  let s2 : State := if s.mode = 4 then s1
    else { s1 with bal := { s1.bal with damage := (l, k + 1) :: s1.bal.damage.filter (fun p => !(p.1 == l)) } }
  if (s.spareOf l).isSome then s2.raise srcLaneSpared else s2.raise (srcLaneCrc l)

/-- The reply of a CHECK_RUN that a stuck-on beam ends (R147): the counts hold the mask of its stuck-on segments. -/
def chkStuck (steps : Nat) (counts : List Byte) : Reply := ⟨4, 0, steps, counts, 1, false⟩

/-- A stuck-on detection is raised (R147): `k` segments or groups at once. -/
def State.stuckOn (s : State) (k : Nat) : State :=
  (s.count (rBmhCnt 2) k).raiseFull (Raise.of srcStuckOn) none chkStuck

/-- A run whose repeated reading fails again stops (R203): the reply's DETAIL is not given, a free value (log entry 3). -/
def State.rereadFails (s : State) : State :=
  let v := s.freeVal
  s.tookFree.stopCheck (fun steps counts => ⟨2, v, steps, counts, 1, false⟩)

/-- A pattern shot was damaged (R203): its reading is repeated once, at its end or, where it has been completed, after the present
one; a repetition that fails stops the run. `again`: the shot belonged to the repetition. A shot of the first taking counts no more
once its reading is repeated. -/
def State.damagedShot (s : State) (r : Nat) (again : Bool) : State :=
  match s.gen.cur with
  | none => s
  | some c =>
    if c.redone.contains r != again ∨ c.redo.contains r then s
    else if c.now = r ∧ !c.done then { s with gen := { s.gen with cur := some { c with damaged := true } } }
    else if again then s.rereadFails
    else
      let d := { c with redo := c.redo ++ [r] }
      { s with gen := { s.gen with cur := some (if c.done then ({ d with done := false }).nextReading else d) } }

/-- The groups of one status block (R203): a hole in a stripe pass, a reading to repeat in CHECK mode. -/
def State.statusGroups (s : State) (a : AwaitStatus) (mask : Nat) (whole : Bool) : State :=
  if s.mode = 4 then (if mask = 0 then s else s.damagedShot a.reading a.again)
  else
    match s.beamStripe with
    | none => s
    | some x =>
      if mask ≠ 0 then s.groupBlanked x a.shot mask false
      else if whole then s.groupClean x a.shot else s

/-- The awaited shot that a status of lane n names, and whether it is awaited. A shot of the stripe that is no longer awaited, or was not
fired yet by the record, is taken by its index (log entry 177). -/
def State.statusOf (s : State) (n w : Nat) : AwaitStatus × Bool :=
  match s.bal.status.find? (fun a => a.shot % 2 ^ 24 == bits w 8 24 && a.lanes.contains n) with
  | some a => (a, true)
  | none => (⟨bits w 8 24, [], 0, (s.gen.cur.map (·.now)).getD 0, false⟩, false)

/-- Lane n has reported on an awaited shot. -/
def State.statusIn (s : State) (a : AwaitStatus) (n : Nat) : State :=
  let lanes := a.lanes.filter (fun k => !(k == n))
  { s with bal := { s.bal with status := s.bal.status.filterMap (fun b =>
      if b == a then (if lanes.isEmpty then none else some { a with lanes := lanes }) else some b) } }

/-- A SHOT_STATUS block of lane n (R201–R203). One whose shot is not awaited is unknown (BAL_CNT[3]); its bits are acted on all the same. -/
def State.shotStatus (s : State) (n w : Nat) : State :=
  let (a, known) := s.statusOf n w
  let s1 := if known then s.statusIn a n else s.count (rBalCnt 3) 1
  let whole := known && (a.lanes.filter (fun k => !(k == n))).isEmpty
  let s2 := s1.statusGroups a ((bits w 48 4 ||| bits w 52 4) * 2 ^ (4 * n)) whole
  let s3 := if s2.bal.span ∨ !s2.bal.status.isEmpty then s2 else s2.flushTail
  let s4 := ((List.range 16).filter (fun i => bitAt w (32 + i))).foldl (fun t i => t.laneDamaged (16 * n + i)) s3
  let late := popCount 4 (bits w 52 4)
  let s5 := if late = 0 then s4 else (s4.count (rBalCnt 2) late).raise srcFrameLate
  let stuck := popCount 4 (bits w 56 4)
  if stuck = 0 then s5 else s5.stuckOn stuck

/-- A level source of the plate begins or ends (R330). -/
def State.plateLevel (s : State) (src : Nat) (on off : Bool) : State :=
  if on then s.onsetOr src (fun t => t.raise src) else if off then s.condEnd src else s

/-- A HEALTH block of lane n (R201, R202, Table 9-7). -/
def State.healthBlock (s : State) (n w : Nat) : State :=
  let lock := bits w 8 16
  let s1 := (s.wr (rBalPlate n) (lock * 2 ^ 16 + bits w 32 8 * 2 ^ 8 + bits w 40 8)).setFlag rBalStat (16 + n) (bitAt w 24)
  let alarm := (List.range 4).any (fun k => decide (s1.fld (rBalPlate k) 0 8 ≠ 0))
  let s2 := s1.plateLevel srcPlateAlarm (decide (bits w 40 8 ≠ 0)) (!alarm)
  s2.plateLevel srcLaneLock (s2.flag rBalCfg 31 && !s2.bal.span && decide (lock ≠ 0xFFFF)) (!s2.laneLost)

/-- A block on back-channel lane n (R201): it shows block lock there, since a lane that brings blocks has brought 64 valid sync headers
(R185, log entry 165); other types than the two of Table 9-5 are counted. -/
def State.backBlock (s : State) (n w : Nat) : State :=
  if !s.dom.main ∨ s.scnPort then s
  else
    let t := s.setFlag rBalStat (24 + n) true
    if bits w 0 8 = 0xE1 then t.shotStatus n w
    else if bits w 0 8 = 0xE2 then t.healthBlock n w
    else t.count (rBalCnt 3) 1

/-- SHOT_STATUS (R203). -/
def execShotStatus (n : Fin 4) (blk : BitVec 64) (s : State) : Outcome := .next (s.backBlock n.val blk.toNat)

/-- HEALTH (R201). -/
def execHealth (n : Fin 4) (blk : BitVec 64) (s : State) : Outcome := .next (s.backBlock n.val blk.toNat)

/-- The lowest shot whose status has not been received: an awaited one, else the lowest not yet fired (R202). -/
def State.unconfirmed (s : State) : Nat :=
  match s.bal.status with
  | a :: _ => a.shot
  | [] => match s.esc.firing with | some f => f.fired | none => 0

/-- The stripe ends for want of statuses (R202). -/
def State.backchLoss (s : State) : State := s.raiseBlank srcBackchLoss 0x08 s.unconfirmed

/-- Every lane that an awaited shot still misses reports on it on this clock, behind this command (R342). -/
def State.statusTies (s : State) (a : AwaitStatus) : Bool :=
  a.lanes.all (fun n => s.ties (fun c => match c with
    | .shotStatus m blk => m.val == n && bits blk.toNat 0 8 == 0xE1 && bits blk.toNat 8 24 == a.shot % 2 ^ 24
    | _ => false))

/-- STATUS_MISSING (R202): the lowest awaited status has not come; its blocks are counted, and during a firing span the stripe
ends. Statuses on its clock are in time (R342). -/
def execStatusMissing (s : State) : Outcome :=
  match s.bal.status with
  | [] => .next s
  | a :: t =>
    if s.statusTies a then .next s
    else
      let s1 := s.count (rBalCnt 3) a.lanes.length
      let s2 := if s.bal.span then s1.backchLoss else s1
      let s3 : State := { s2 with bal := { s2.bal with status := t } }
      .next (if s3.bal.span ∨ !t.isEmpty then s3 else s3.flushTail)

/-- BACKCH_LOCK_LOSS (R202). -/
def execBackchLockLoss (n : Fin 4) (s : State) : Outcome :=
  let s1 := s.setFlag rBalStat (24 + n.val) false
  if s.bal.span then .next s1.backchLoss else .next s1

/-! ### The link -/

/-- IDLE_FRAME_SEND (R186, R187, R190): every 1 µs outside a firing span. -/
def execIdleFrameSend (s : State) : Outcome :=
  if !s.bal.span && (s.mode == 1 || s.mode == 2 || s.mode == 4 || s.mode == 5) then .next s.sendIdle else .next s

/-- The transmit lanes after a write of BAL_CFG, from the state before it (R186, R187): idle blocks on all of them when the link is
enabled or changes its rate, electrical idle when it is disabled. -/
def State.laneOutputs (s old : State) : State :=
  if s.linkOn then (if old.linkOn ∧ s.fld rBalCfg 0 2 = old.fld rBalCfg 0 2 then s else s.idleOn txLanes)
  else if old.linkOn then s.emit .txOff
  else s

/-- BAL_CFG_WRITE (R186): taken in SERVICE only. -/
def execBalCfgWrite (m : Master) (v : Word) (s : State) : Outcome :=
  s.regCmd m rBalCfg fun t =>
    if t.mode ≠ 1 then t.access rBalCfg
    else
      let t1 := t.writeByType (m == .load) rBalCfg v.toNat
      let t2 := if t1.fld rBalCfg 0 2 = t.fld rBalCfg 0 2 then t1 else { t1 with bal := { t1.bal with rateBusy := true } }
      t2.laneOutputs t

/-- LANE_RATE_CHANGE_DONE (R186). -/
def execLaneRateChangeDone (s : State) : Outcome := .next { s with bal := { s.bal with rateBusy := false } }

/-- A write of this clock, behind this command, assigns a lower spare that is free to the same lane (R204). -/
def State.spareRival (s : State) (n lane : Nat) : Bool :=
  let asks (m : Master) (k v : Nat) : Bool := decide (k < n) && bitAt v 31 && bits v 0 6 == lane && !s.flag (rBalSpare k) 31 &&
    s.masterUp m && s.reach m (rBalSpare k) == .ok
  s.ties (fun c => match c with
    | .balSpareWrite m k v => asks m k.val v.toNat
    | .registerWrite m off v => (List.range n).any (fun k => off == rBalSpare k && asks m k v.toNat)
    | _ => false)

/-- BAL_SPARE_WRITE (R204): an assignment waits for the next stripe boundary, or is refused; a release takes SERVICE. A spare that
is assigned keeps its lane until it is released (log entry 45). Of two assignments of a lane on one clock the lower spare takes it. -/
def execBalSpareWrite (m : Master) (n : Fin 4) (v : Word) (s : State) : Outcome :=
  s.regCmd m (rBalSpare n.val) fun t =>
    let lane := bits v.toNat 0 6
    let assigned := t.flag (rBalSpare n.val) 31
    if !bitAt v.toNat 31 then
      if assigned ∧ t.mode ≠ 1 then t.access (rBalSpare n.val) else t.wr (rBalSpare n.val) lane
    else if assigned then
      if t.fld (rBalSpare n.val) 0 6 = lane then t else t.access (rBalSpare n.val)
    else if (n.val = 3 ∧ lane = 0) ∨ t.laneSpared lane ∨ t.spareRival n.val lane then t.wr (rBalSpare n.val) (3 * 2 ^ 29 + lane)
    else t.wr (rBalSpare n.val) (2 ^ 31 + 2 ^ 29 + lane)

/-- BAL_CUT_CLEAR (R198): writes of 1 are accepted in SERVICE only. An output whose bit is cleared is driven again. -/
def execBalCutClear (m : Master) (v : Word) (s : State) : Outcome :=
  s.regCmd m rBalCut fun t =>
    if t.mode ≠ 1 ∧ bits v.toNat 0 16 ≠ 0 then t.access rBalCut
    else
      let t1 := t.writeByType (m == .load) rBalCut v.toNat
      { t1 with bal := { t1.bal with tri := t1.bal.tri.filter (fun g => t1.flag rBalCut g) } }

/-- ESC_SLIP_PEAK_CLR (R171). -/
def execEscSlipPeakClr (m : Master) (v : Word) (s : State) : Outcome :=
  s.regCmd m rEscSlipPeak fun t =>
    if bitAt v.toNat 31 then t.setFld rEscSlipPeak 0 24 (t.fld rEscSlip 0 24) else t

/-- RAS_FP_PEAK_CLR (R114). -/
def execRasFpPeakClr (m : Master) (v : Word) (s : State) : Outcome :=
  s.regCmd m rRasFpPeak fun t =>
    if bitAt v.toNat 31 then t.setFld rRasFpPeak 0 22 (t.rd rRasFpUsed) else t

end Sys2Proof.Machine
end

