-- ==== Sys2Proof/Machine/Exposure.lean ====
section
/-! DEFINITION. The Polcon opcodes of identity, jobs, stripes, holes and the job store (Tables 3-4, 3-12, 3-13; R59–R72). -/

namespace Sys2Proof.Machine

/-! ### Identity and status -/

/-- The 32 bytes of Table 3-12. -/
def State.identBytes (s : State) : List Byte :=
  leBytes 4 (s.rd rGlbId) ++ leBytes 1 (s.fld rGlbRev 0 8) ++ leBytes 1 s.sysIdx ++ leBytes 1 (bit s.dom.slotB) ++ zeros 1 ++
  leBytes 4 (s.rd rGlbVersion) ++ zeros 20

/-- A stripe pass is in its firing span (R190), or in SCAN mode its lines are being written. -/
def State.inSpan (s : State) : Bool := s.lay.stripes.any (fun x => x.phase == .firing)

/-- Bits over the resources 0–19 of Table 2-7. -/
def resBits (f : Nat → Bool) : Nat := sumN ((List.range 20).map (fun n => if f n then 2 ^ n else 0))

/-- The 64 bytes of Table 3-13. -/
def State.statusBytes (s : State) : List Byte :=
  let job (i : Nat) : Nat := match s.lay.jobs[i]? with | some j => j.id | none => 0
  let hand (i : Nat) : Nat := match s.lay.stripes[i]? with | some x => x.handle | none => 0
  leBytes 1 s.mode ++ zeros 3 ++ leBytes 4 s.run.step.toNat ++ leBytes 4 (resBits s.clmHeld) ++
  leBytes 4 (resBits s.clmPinned) ++ leBytes 4 (job 0) ++ leBytes 4 (job 1) ++ leBytes 1 s.lay.stripes.length ++
  leBytes 1 (bit (s.inSpan || (s.mode == 2 && s.bal.span))) ++ zeros 6 ++ ((List.range 8).map (fun i => leBytes 4 (hand i))).flatten

/-- STATUS and FX_STATUS (R387). -/
def State.statusReply (s : State) (pk : Packet) : State :=
  s.complete pk ⟨0, 0, s.mode + 256 * s.run.step.toNat, s.statusBytes, 1, false⟩

/-- IDENT (R387). -/
def execIdent (pk : Packet) (s : State) : Outcome :=
  .next (s.decidePk pk ⟨0x01, fnAll3, modesAny, []⟩ fun t => t.complete pk ⟨0, 0, 0, t.identBytes, 1, false⟩)

/-- STATUS (R387). -/
def execStatus (pk : Packet) (s : State) : Outcome :=
  .next (s.decidePk pk ⟨0x06, fnAll3, modesAny, []⟩ fun t => t.statusReply pk)

/-! ### Jobs and stripes -/

/-- JOB_OPEN (R61, R81). -/
def execJobOpen (pk : Packet) (s : State) : Outcome :=
  .next (s.decidePk pk ⟨0x10, [.h0], modesRun, s.fJobOpen pk⟩ fun t => t.jobOpen pk)

/-- STRIPE_ADMIT (R62). -/
def execStripeAdmit (pk : Packet) (s : State) : Outcome :=
  .next (s.decidePk pk ⟨0x11, [.h0], modesRun, s.fStripeAdmit pk false⟩ fun t =>
    t.stripeAdmit pk (pkU pk 0x40 4) false State.admitReply)

/-- The step commands of a cancelled stripe complete STRIPE_ABORTED with SHOTS = 0; those queued are gone, and an open step
runs on without a stripe to start (R68). -/
def State.endArms (s : State) (x : Stripe) : State :=
  let reply : Reply := ⟨0x21, 0, 0, reportBytes { x with shots := 0 } 0x21, 1, false⟩
  let mine := s.run.queue.filter (fun c => c.handle == x.handle)
  let s1 := mine.foldl (fun t c => t.complete c.pk reply) s
  let s2 : State := { s1 with run := { s1.run with queue := s1.run.queue.filter (fun c => !(c.handle == x.handle)) } }
  match s2.run.cur with
  | some o => match o.cmd with
    | some c => if c.handle = x.handle then s2.complete c.pk reply else s2
    | none => s2
  | none => s2

/-- JOB_CLOSE (R61): of several such stripes, RESULT names the one admitted first (log entry 37). -/
def execJobClose (pk : Packet) (s : State) : Outcome :=
  .next (s.decidePk pk ⟨0x14, [.h0], modesRunHold, [anyField 0x20 4]⟩ fun t =>
    let id := pkU pk 0x20 4
    if (t.jobOf id).isNone then t.complete pk (.refuse 0x11 7 0 0)
    else
      match t.lay.stripes.find? (fun x => x.job == id) with
      | some x => t.complete pk (.refuse 0x11 9 0 x.handle)
      | none => { t with lay := { t.lay with jobs := t.lay.jobs.filter (fun j => !(j.id == id)) } }.complete pk (.ok 0))

/-- HOLE_READ (R72). -/
def execHoleRead (pk : Packet) (s : State) : Outcome :=
  .next (s.decidePk pk ⟨0x15, fn01, modesAny, fHoleRead false⟩ fun t => t.holeRead pk (pkU pk 0x26 1 == 1))

/-! ### The job store -/

/-- UPLOAD (R60). -/
def execUpload (pk : Packet) (host : HostRead) (s : State) : Outcome :=
  .next (s.decidePk pk ⟨0x20, fn01, modesRun, s.fUpload pk⟩ fun t => t.upload pk host)

/-- RELEASE (R60). -/
def execRelease (pk : Packet) (s : State) : Outcome :=
  .next (s.decidePk pk ⟨0x21, fn01, modesRunHold, s.fJsLen pk 0x20 0x28 8⟩ fun t =>
    let a := pkU pk 0x20 8
    let n := pkU pk 0x28 8
    if overlap a n t.partArea 67108864 then t.complete pk (.refuse 0x11 4 0xFFFFFF 0)
    else
    match t.pinnedEntry a n with
    | some i => t.complete pk (.refuse 0x11 4 i 0)
    | none => (t.removeRegions a n).complete pk (.ok 0))

/-- VERIFY (R59): the CRC-32C of the range; a value other than CRC is no refusal (log entry 38). -/
def execVerify (pk : Packet) (s : State) : Outcome :=
  .next (s.decidePk pk ⟨0x22, fn01, modesRun, s.fJsLen pk 0x20 0x28 8 ++ [anyField 0x30 4]⟩ fun t =>
    let a := pkU pk 0x20 8
    t.movementRead pk 5 a a (pkU pk 0x28 8) fun t bs => t.complete pk (.ok (crc32c bs)))

/-- A context's entry of CELL_QUERY: its job and its bytes. -/
def State.cellEntry (s : State) (ctx : Nat) : List Byte :=
  match s.lay.jobs.find? (fun j => j.cells.any (fun c => c.ctx == ctx)) with
  | some j => leBytes 4 j.id ++ leBytes 4 (match j.cells.find? (fun c => c.ctx == ctx) with
    | some c => c.bytes.length
    | none => 0)
  | none => zeros 8

/-- CELL_QUERY (Table 3-4, R55). -/
def execCellQuery (pk : Packet) (s : State) : Outcome :=
  .next (s.decidePk pk ⟨0x23, fnAll, modesAny, []⟩ fun t =>
    t.replyRecords pk 8 ((List.range 160).map t.cellEntry).flatten)

end Sys2Proof.Machine
end

