-- ==== Sys2Proof/Machine/Check.lean ====
section
/-! DEFINITION. CHECK mode: runs, readings and patterns (R141–R148), the classes of Table 7-3, CHECK_READ, CAL_BUILD (R149), and
the DEFL frames (R177). -/

namespace Sys2Proof.Machine

/-! ### DEFL frames -/

/-- A residual word in units of 64 pu (R177), and whether it saturated. -/
def residual (num : Int) (den : Nat) : Int × Bool :=
  let v := roundHalfEven num (64 * den)
  (sat v (-32768) 32767, decide (v < -32768) || decide (32767 < v))

/-- The frame of Table 8-5. -/
def deflFrame (shot : Nat) (dx dy : Int) (flags : Nat) : BitVec 64 :=
  let head := [BitVec.ofNat 8 0xB8, BitVec.ofNat 8 shot] ++ beBytes 2 (unsigned 16 dx) ++ beBytes 2 (unsigned 16 dy) ++
    [BitVec.ofNat 8 flags]
  BitVec.ofNat 64 (beNat head * 256 + crc8 head)

/-- Saturations of a frame are counted (ESC_CNT[6]). -/
def State.deflCount (s : State) (a b : Bool) : State :=
  if bit a + bit b = 0 then s else s.count (rEscCnt 6) (bit a + bit b)

/-- The DEFL frame of a CHECK shot (R177): the departure of the stage, by the fit at its latest sample, from the fitted position at
the COMMIT edge into CHECK, taken as home minus the present position (log entry 46); without eight samples the words are free values (log
entry 3). For an encoder source dx is 0. -/
def State.checkDefl (s : State) (shot flags : Nat) : State :=
  let enc := decide (s.apFld rEscCfg 0 2 ≠ 0)
  if s.esc.homeOk ∧ s.fitted then
    let (dy, a) := residual (s.esc.homeY - fitSy s.fitYs) 12
    let (dx, b) := if enc then (0, false) else residual (s.esc.homeX - fitSy s.fitXs) 12
    (s.deflCount a b).emitPin (.defl (deflFrame shot dx dy flags))
  else
    let v := s.freeVal
    s.tookFree.emitPin (.defl (deflFrame shot (if enc then 0 else signed 16 v) (signed 16 (v / 65536)) flags))

/-! ### Patterns -/

/-- The values of a reading's shots (R142, R145). -/
def checkValues (c : CheckRun) : List Byte :=
  if c.now < 2 then List.replicate 262144 0#8
  else
    let v := BitVec.ofNat 8 (if c.now % 2 = 0 then c.vHi else c.vLo)
    let bs := checkBeams c.kind c.slice ((c.now - 2) / 2)
    (List.range 262144).map (fun b => if bs.contains b then v else 0#8)

/-- RATE of BMH_PACE, taken as the nearest limit. -/
def State.paceRate (s : State) : Nat := clampN (s.fld rBmhPace 0 20) 50000 (rateCap (s.fld rBalCfg 0 2))

/-- A CAL_BUILD still reads the stored results (R144). -/
def State.buildReads (s : State) : Bool :=
  [0, 1].any (fun n => match (s.gen.slots.getD n ⟨.empty, none, 0⟩).fill with
    | some f => s.slotState n == 1 && pkOpcode f.pk == 0x42
    | none => false)

/-- QREF of a generation that is READY or in force (R146). -/
def State.baseQref (s : State) (g : Nat) : Option Nat :=
  match s.slotOf 0 g with
  | some n => match (s.gen.slots.getD n ⟨.empty, none, 0⟩).table with
    | .cal _ _ q _ _ => if s.slotState n = 1 then none else some q
    | _ => none
  | none => none

/-- A mode change has been applied and waits for its COMMIT edge (R155). -/
def State.leavesCheck (s : State) : Bool :=
  match s.run.cur with
  | some c => c.phase == StepPhase.applied
  | none => false

/-- The next CHECK run begins (R144), once nothing is under way: results of the run before are no longer held. DESIGN CHOICE: QREF of a DARK run, and of a QUICK run whose base is
neither READY nor in force, is a free value until the run gives one (log entry 190). -/
def State.startCheck (s : State) : State :=
  match s.gen.cur, s.gen.queue with
  | none, pk :: rest =>
    if s.mode ≠ 4 ∨ s.buildReads ∨ s.leavesCheck then s
    else
      let s := s.flushTail.sparesAnew
      let (q, s0) := match s.baseQref s.gen.lastCal with
        | some q => (q, s)
        | none => (s.freeVal % 65536, s.tookFree)
      let c : CheckRun := ⟨pk, bits (pkU pk 0x20 2) 0 4, bits (pkU pk 0x20 2) 4 4, pkU pk 0x22 2, pkU pk 0x24 4, s.gen.lastCal,
        s.paceRate, s.fld rBmhLevels 16 8, s.fld rBmhLevels 8 8, 0, 0, [], [], 0, 0, false, [], [], [], [], 0, false, false, false,
        q, 0, false⟩
      { (s0.wr rBmhRun 0).wr rBmhRunId 0 with
        gen := { s0.gen with cur := some c, kept := none, queue := rest }
        clk := { s0.clk with gated := false }
        bal := { s0.bal with times := [], risen := [], fell := [], full := 0, late := [], framed := 0, status := [], run := none, tail := none } }
  | _, _ => s

/-- The run under way changed. -/
def State.setRun (s : State) (c : CheckRun) : State := { s with gen := { s.gen with cur := some c } }

/-- CHECK_RUN (R144). One that was fetched before the COMMIT edge into CHECK finds no mode to run in (R155). -/
def execCheckRun (pk : Packet) (s : State) : Outcome :=
  .next (s.decidePk pk ⟨0x40, fn01, if pk.id < s.gen.checkFrom then [] else [4],
    [⟨0x20, 2, fun v => decide (1 ≤ v % 16) && decide (v % 16 ≤ 3) && decide (v < 256)⟩,
     ⟨0x22, 2, fun v => decide (1 ≤ v) && decide (v ≤ 4096)⟩, anyField 0x24 4]⟩ fun t =>
    { t with gen := { t.gen with queue := t.gen.queue ++ [pk] } }.startCheck)

/-- A pattern shot whose frames have not left in time (R191): no strobe of it fires, FRAME_LATE is raised, and its reading is taken again
as for damaged shots (R203; log entry 175). -/
def State.patternLate (s : State) (c : CheckRun) : State :=
  (s.damagedShot c.now (c.redone.contains c.now)).raiseFull { Raise.of srcFrameLate with r191 := true } none (chkFault srcFrameLate)

/-- A pattern shot of the run (R141–R143, R145, R188, R190, R196): DET_GATE rises before the first shot of a reading, and BLANK_ALL
stands in the first reading only. The shot fires at the next fine-delay step of the timebase; after a watchdog's cut it is suppressed, and
BLANK_ALL stays (R198). LAST of its DEFL frame and of its frames is set at the run's last pattern shot (log entry 176). -/
def State.patternShot (s : State) (c : CheckRun) : State :=
  let flags := bit (c.total == 0) + 2 * bit (c.lastReading && c.shot + 1 == c.reps)
  let s0 := if c.shot = 0 then s.setGate true else s
  let s1 := if c.now < 2 then s0.setFld rBmhRun 30 2 1 else s0
  let s2 := if c.now = 0 ∨ c.cut then s1.assertBlank else { s1 with bal := { s1.bal with blankAll := false } }
  let s3 : State := { s2 with bal := { s2.bal with span := true } }
  let s4 := (s3.sendShot ⟨1, flags, c.total, c.run, 0, 0⟩ (checkValues c)).checkDefl c.total (flags + 4)
  let s5 := s4.setRun { c with shot := c.shot + 1, total := c.total + 1 }
  if c.cut then s5
  else if !s.linkUp ∨ s.bal.late.contains c.total then s5.patternLate c
  else s5.fireShot ⟨c.total, fineStep s.esc.base.toNat, stagger c.rate⟩ c.now (c.redone.contains c.now)

/-- CHECK_PATTERN_SHOT (R142): the dark step begins only once ALIVE has toggled for LEAD (R338). -/
def execCheckPatternShot (s : State) : Outcome :=
  let t := s.startCheck
  match t.gen.cur with
  | none => .next t
  | some c =>
    if t.mode ≠ 4 ∨ c.done ∨ c.reps ≤ c.shot ∨ (c.total = 0 ∧ !t.aliveLead) then .next t
    else .next (t.patternShot c)

/-! ### Readings -/

/-- The conversions are shown in PWR_ADC[24–31] (R314). -/
def State.showDet (s : State) (q : List Nat) : State :=
  (List.range 8).foldl (fun t d => t.wr (rPwrAdc (24 + d)) (q.getD d 0)) s

/-- The stuck-on segments (R146). -/
def stuckSegs (thr : Nat) (qb qd : List Nat) : List Nat :=
  (List.range 8).filter (fun d => decide (qb.getD d 0 + thr < qd.getD d 0))

/-- BMH_RUN and BMH_DARK after a reading. -/
def State.showReading (s : State) (c : CheckRun) (q : List Nat) : State :=
  if c.now = 0 then (List.range 8).foldl (fun t d => t.setFld (rBmhDark d) 16 12 (q.getD d 0)) s
  else if c.now = 1 then
    let t := (List.range 8).foldl (fun t d => t.setFld (rBmhDark d) 0 12 (q.getD d 0)) s
    if c.kind = 1 then t else t.setFld rBmhRun 30 2 2
  else if c.now = c.reading ∧ c.now % 2 = 1 then s.setFld rBmhRun 0 16 ((c.now - 2) / 2 + 1) else s

/-- A reading of 4,095 is counted, and DET_SAT is raised once in a run (Table 7-7). -/
def State.readingSat (s : State) (sat : Bool) (q : List Nat) : State :=
  if q.contains 4095 then
    let t := s.count (rBmhCnt 3) 1
    if sat then t
    else
      let t1 := match t.gen.cur with | some c => t.setRun { c with sat := true } | none => t
      t1.raise srcDetSat
  else s

/-- A reading that stands is stored (R145–R147). -/
def State.storeReading (s : State) (c : CheckRun) (q : List Nat) : State :=
  let c1 := readingStored c q
  let dark := decide (c.now < 2) && !c1.qd.isEmpty
  let segs := if dark then stuckSegs (s.fld rBmhLevels 0 8) c1.qb c1.qd else []
  let c2 := { c1 with stuck := sumN (segs.map (fun d => 2 ^ d)) }
  let s1 := (((s.showReading c q).setRun (if dark then c2 else c1)).readingSat c.sat q).checkSpanEnd
  if segs.isEmpty then s1 else s1.stuckOn segs.length

/-- READING_DONE (R143): DET_GATE falls, and the detector is converted. The reading of damaged shots is repeated once, and the run
stops where it fails again (R203). -/
def execReadingDone (volts : List Int) (s : State) : Outcome :=
  match s.gen.cur with
  | none => .next s
  | some c =>
    if c.done ∨ c.shot < c.reps then .next s
    else
      let q := (List.range 8).map (fun d => adcCode (volts.getD d 0))
      let s1 := (s.setGate false).showDet q
      if !c.damaged then .next (s1.storeReading c q)
      else if c.redone.contains c.now then .next s1.rereadFails.startCheck
      else .next (s1.setRun { c with shot := 0, damaged := false, redone := c.redone ++ [c.now] })

/-! ### The end of a run -/

/-- `n` raises of DEAD_BEAM at the end of a run (R332): all but the first merge, and that too where the run has one already. -/
def State.deadBeams (s : State) (seen : Bool) (n : Nat) : State :=
  if s.pairHeld srcDeadBeam then s.raise srcDeadBeam
  else if seen && decide ((s.recOf srcDeadBeam).state ≠ 0) then s.mergeMore srcDeadBeam n
  else (s.raise srcDeadBeam).mergeMore srcDeadBeam (n - 1)

/-- CHECK_RUN_END (R148): the beams are classified, the run is kept, and the next one may begin. -/
def State.checkEnd (s : State) (c : CheckRun) : State :=
  let (c1, s0) := s.closeRun c
  let c2 := { c1 with complete := true }
  let dead := classCount c2 [3, 4, 5]
  let s1 := s0.complete c.pk ⟨0, 0, checkSteps c.kind, c2.counts, 1, false⟩
  let s2 := ((s1.setFld rBmhRun 30 2 3).wr rBmhRunId c.run).count (rBmhCnt 0) 1
  let s3 := { s2 with gen := { s2.gen with cur := none, kept := some c2 } }.checkSpanEnd.commitReady
  let s4 := if dead = 0 then s3 else (s3.count (rBmhCnt 1) dead).deadBeams s.deadSeen dead
  (s4.pulse 28).startCheck

/-- CHECK_RUN_END (R148). -/
def execCheckRunEnd (s : State) : Outcome :=
  match s.gen.cur with
  | none => .next s
  | some c => if c.done then .next (s.checkEnd c) else .next s

/-! ### CHECK_READ -/

/-- The header of CHECK_READ (Table 7-4). -/
def checkHeader (c : CheckRun) : List Byte :=
  leBytes 4 c.run ++ leBytes 2 (c.kind + 16 * c.slice) ++ leBytes 2 c.reps ++ leBytes 4 c.rate ++ leBytes 1 c.vHi ++
  leBytes 1 c.vLo ++ leBytes 2 c.qref ++ ((List.range 8).map (fun d => leBytes 2 (c.qb.getD d 0))).flatten ++
  ((List.range 8).map (fun d => leBytes 2 (c.qd.getD d 0))).flatten ++ leBytes 4 (classCount c [3, 4, 5]) ++
  leBytes 4 (classCount c [2]) ++ leBytes 1 c.stuck ++ zeros 1 ++ leBytes 2 c.base ++ zeros 4

/-- A beam's record (Table 7-4). A G or off that its field cannot hold is a free value, the `n`-th and the next (log entry 3). -/
def checkRecord (c : CheckRun) (n : Nat) (b : BeamReading) : List Byte :=
  let (g, off) := match beamFit c b with
    | none => (0, 0)
    | some (g, off) =>
      (if 0 ≤ g ∧ g ≤ 0xFFFF then g.toNat else (Config.freeValue n).toNat,
       if -128 ≤ off ∧ off ≤ 127 then unsigned 8 off else (Config.freeValue (n + 1)).toNat)
  leBytes 2 b.qh ++ leBytes 2 b.ql ++ leBytes 2 g ++ leBytes 1 off ++ leBytes 1 (beamClass c b)

/-- The 262,144 records. -/
def checkRecords (c : CheckRun) (free : Nat) : List Byte :=
  ((List.range 262144).map (fun k => match c.beams.find? (fun b => b.beam == k) with
    | some b => checkRecord c (free + 2 * k) b
    | none => zeros 8)).flatten

/-- CHECK_READ (R148). -/
def execCheckRead (pk : Packet) (s : State) : Outcome :=
  .next (s.decidePk pk ⟨0x41, fnAll, modesAny,
    [anyField 0x20 4, ⟨0x28, 8, fun a => a % 64 == 0 && decide (a < s.jsSize) && decide (a + 2097216 ≤ s.jsSize)⟩]⟩ fun t =>
    match t.gen.kept with
    | none => t.complete pk (.badParam 0x20)
    | some c =>
      if c.run ≠ pkU pk 0x20 4 then t.complete pk (.badParam 0x20)
      else
        match t.destRefused (pkU pk 0x28 8) 2097216 with
        | some r => t.complete pk r
        | none =>
          let a := pkU pk 0x28 8
          t.throughPorts pk [(2, a, 2097216)] fun t =>
            let bs := checkHeader c ++ checkRecords c t.free
            match t.chanFault a 2097216 with
            | some f => ((((t.removeRegions a 2097216).storeWrite a (bs.take (f.2 - a))).tookFreeN 524288).chanHalts f).complete pk (chanReply f)
            | none =>
              let u := (t.resident a bs).tookFreeN 524288
              (u.duty 1 [(rDmaDctl 1, 0), (rDmaDstLo 1, a % 2 ^ 32), (rDmaDstHi 1, a / 2 ^ 32)]).complete pk (.ok 0))

/-! ### CAL_BUILD -/

/-- The entry of a measured beam (Table 7-3); ranks come later. -/
def builtEntry (c : CheckRun) (b : BeamReading) : CalEntry :=
  let k := beamClass c b
  match beamFit c b with
  | some (g, off) => if k = 1 ∨ k = 2 then ⟨g.toNat, off, 0, 1, false, false, k == 2, 0⟩ else ⟨0, 0, 0, 1, true, false, false, 0⟩
  | none => ⟨0, 0, 0, 1, true, false, false, 0⟩

/-- Ranking of R149, step 3. -/
def rankEntry (es : List CalEntry) (m b : Nat) : CalEntry :=
  let e := calEntry es b
  let r := b / 512
  let l := colPhase es m (b % 512) (r % m)
  let live := (l.filter (fun x => !x.dead)).length
  if e.dead then { e with gain := 0, off := 0, rank := 0, count := 1, noLive := live == 0 }
  else { e with rank := ((l.take (r / m)).filter (fun x => !x.dead)).length, count := live, noLive := false }

/-- The entries a run gives over a base (R149). -/
def buildEntries (c : CheckRun) (base : List CalEntry) (m : Nat) : List CalEntry :=
  let es := c.beams.foldl (fun l b => l.set b.beam (builtEntry c b)) base
  (List.range 262144).map (rankEntry es m)

/-- The base of a QUICK build (R149): its entries, where it serves. -/
def State.buildBase (s : State) (c : CheckRun) (mlog : Nat) : Option (List CalEntry) :=
  match s.slotOf 0 c.base with
  | none => none
  | some n =>
    match (s.gen.slots.getD n ⟨.empty, none, 0⟩).table with
    | .cal es reps q vhi vlo =>
      if 2 ≤ s.slotState n ∧ s.fld (rBmhGen n) 27 3 = mlog ∧ reps = c.reps ∧ q ≠ 0 ∧ vhi = c.vHi ∧ vlo = c.vLo then some es else none
    | _ => none

/-- MLOG of BMH_THR: 5–7 are taken as 4. -/
def State.thrMlog (s : State) : Nat := min 4 (s.fld rBmhThr 0 3)

/-- CAL_BUILD (R147, R149). DESIGN CHOICE: a held GEN and a full table are refused before the base of a QUICK run is looked at (log entry 184);
a slot that is built shows the whole table from the decision on (log entry 185). -/
def execCalBuild (pk : Packet) (s : State) : Outcome :=
  .next (s.decidePk pk ⟨0x42, fn01, [1, 2, 4], [anyField 0x20 4, fGen 0x24]⟩ fun t =>
    match t.gen.kept with
    | none => t.complete pk (.badParam 0x20)
    | some c =>
      if c.run ≠ pkU pk 0x20 4 ∨ c.kind = 1 ∨ !c.complete ∨ c.stuck ≠ 0 then t.complete pk (.badParam 0x20)
      else
        t.slotFor pk 0 0x24 fun n =>
          let ml := t.thrMlog
          let base := if c.kind = 2 then some (List.replicate 262144 ⟨0, 0, 0, 1, true, false, false, 0⟩) else t.buildBase c ml
          match base with
          | none => t.complete pk (.refuse 0x14 1 c.base 0)
          | some es =>
            t.beginFill n (pkU pk 0x24 2) ml (.cal (buildEntries c es (2 ^ ml)) c.reps c.qref c.vHi c.vLo)
              ⟨pk, none, t.tim.elapsed + 2 * t16ms + 32 * 65536 * c.beams.length⟩)

end Sys2Proof.Machine
end

