-- ==== Sys2Proof/Machine/Escape.lean ====
section
/-! DEFINITION. The escapement in ARRAY mode: samples (R158–R164, R170, R174), decisions, commitment and locks (R166–R173), fires
(R169), stalls (R175) and the back channel (R162). -/

namespace Sys2Proof.Machine

/-! ### The stripe span -/

/-- The stripe span of R170: from commitment to the last shot. -/
def State.escSpan (s : State) : Bool :=
  match s.esc.firing with
  | some f => f.tc.isSome && !f.ended && decide (f.fired < f.limit)
  | none => false

/-- A stripe whose remainder a lost position blanks (R174): within the stripe span, or in SCAN once interval 0 is written (log
entry 48). -/
def State.posSpan (s : State) : Bool :=
  if s.mode = 3 then s.scan.started && (match s.esc.firing with | some f => !f.ended | none => false) else s.escSpan

/-- The fit is lost until eight fresh samples have entered (R174). -/
def State.loseFit (s : State) : State :=
  ({ s with esc := { s.esc with samples := [], entered := 0, subs := 0 } }).setFlag rEscStat 9 false

/-- The position is lost for a source (R174): within a stripe span the remainder is blanked with reason FAULT. -/
def State.losePos (s : State) (src : Nat) : State :=
  let t := s.loseFit
  if t.posSpan then t.raiseBlank src 0x0B t.lowestUnfired else t

/-! ### Samples -/

/-- A sample enters the fit. -/
def State.enterSample (s : State) (x : Sample) (t : T16) : State :=
  { s with esc := { s.esc with samples := (x :: s.esc.samples).take 8, entered := s.esc.entered + 1, tLast := t } }

/-- A stamped sample passes R170 and enters. DESIGN CHOICE: a real sample ends the run of
substituted slots, also one that REVERSAL discards (log entry 187). -/
def State.takeSample (s : State) (x : Sample) (t : T16) : State :=
  let s0 : State := { s with esc := { s.esc with subs := 0 } }
  match s.esc.samples with
  | [] => s0.enterSample x t
  | y7 :: _ =>
    if !s.escSpan then s0.enterSample x t
    else
      let enc := s.apFld rEscCfg 0 2 ≠ 0
      let tol : Int := if enc then s.apFld rEscRevtol 24 8 else s.apFld rEscRevtol 0 24
      let d : Int := if enc then x.c - y7.c else x.y - y7.y
      if 0 ≤ d then s0.enterSample x t
      else if -tol ≤ d then (s0.enterSample { x with y := y7.y, c := y7.c } t).count (rEscCnt 0) 1
      else s0.raiseBlank srcReversal 0x03 s0.lowestUnfired

/-- The samples stamped so far enter (R166: arrival wins). -/
def State.intake (s : State) : State :=
  let l := s.esc.arrived
  l.foldl (fun t p => t.takeSample p.1 p.2) { s with esc := { s.esc with arrived := [] } }

/-- An accepted sample waits for its decision, 80 ns after its stamp (R166). -/
def State.stampSample (s : State) (x : Sample) (t stamp : T16) : State :=
  { s with esc := { s.esc with arrived := s.esc.arrived ++ [(x, t)], slotAt := stamp, decides := s.esc.decides ++ [stamp + 5242880] } }

/-- σ of a sign bit (R164). -/
def sigma (b : Bool) : Int := if b then -1 else 1

/-- The offset of ESC_YOFF or ESC_XOFF in force, s48. -/
def State.escOff (s : State) (lo hi : Nat) : Int := signed 48 (s.ap lo + s.apFld hi 0 16 * 2 ^ 32)

/-- y of R164. -/
def State.escY (s : State) (raw : Int) : Int := sigma (bitAt (s.ap rEscCfg) 7) * raw + s.escOff rEscYoffLo rEscYoffHi
/-- x of R164. -/
def State.escX (s : State) (raw : Int) : Int := sigma (bitAt (s.ap rEscCfg) 8) * raw + s.escOff rEscXoffLo rEscXoffHi

/-- The CRC of a PLINK frame matches (Table 8-1). -/
def plinkCrcOk (f : List Byte) : Bool := f.length == 17 && getU f 0 1 == 0xFB && crc16 (slice f 1 14) == beNat (slice f 15 2)

/-- PLINK_FRAME (R160): the frame's first bit is stamped `stamp`; `syms` are its 17 symbols, K27.7 as 0xFB. -/
def execPlinkFrame (stamp : Nat) (syms : List Byte) (s : State) : Outcome :=
  if !s.dom.main ∨ !s.flag rEscStat 10 then .next s
  else
    let seq := getU syms 1 1
    let crcOk := plinkCrcOk syms
    let inSeq := match s.esc.refSeq with | some r => seq == (r + 1) % 256 | none => true
    let s1 : State := if crcOk then { s with esc := { s.esc with refSeq := some seq } } else s
    if crcOk && inSeq && getU syms 14 1 == 1 then
      let s2 : State := { s1 with esc := { s1.esc with ackSeq := seq } }
      if s.apFld rEscCfg 0 2 = 0 then
        .next (s2.stampSample ⟨s.escY (signed 48 (getU syms 2 6)), s.escX (signed 48 (getU syms 8 6)), 0⟩
          (stamp - s.ap rEscLat) stamp)
      else .next s2
    else .next (s1.count (rEscCnt 2) 1)

/-- PLINK_LOCK_CHANGE (R160). -/
def execPlinkLockChange (up : Bool) (s : State) : Outcome :=
  if !s.dom.main then .next s
  else
    let s1 := s.setFlag rEscStat 10 up
    if up ∧ !s.flag rEscStat 10 then .next { s1 with esc := { s1.esc with refSeq := none } } else .next s1

/-- ENCODER_SAMPLE (R163): the count's difference since the last sample, sampled at `t`. Encoder input 1 is the source only while
claims 0 and 1 are encoder 1's (R15, R158). An illegal transition loses the fit, and
the sample is the first of the eight fresh ones. -/
def execEncoderSample (t : Nat) (delta : Int) (illegal : Bool) (s : State) : Outcome :=
  let src := s.apFld rEscCfg 0 2
  if !s.dom.main ∨ !(src == 1 || (src == 2 && s.ownedBy 0 0x32 && s.ownedBy 1 0x32)) then .next s
  else
    let c := s.esc.encCount + delta
    let s0 : State := { s with esc := { s.esc with encCount := c } }
    let s1 := if illegal then s0.losePos srcEncErr else s0
    .next (s1.stampSample ⟨s.escY (roundHalfEven (c * s.ap rEscEncScale) 65536), 0, sigma (bitAt (s.ap rEscCfg) 7) * c⟩ t t)

/-! ### Decisions -/

/-- Y(s) of R164. -/
def shotY (x : Stripe) (pitch shot : Nat) : Int := 16 * (x.y0 + shot * pitch)

/-- tp of R167 for a target; none where there is no prediction. -/
def State.predict (s : State) (target : Int) : Option Int :=
  let d := 12 * target - fitSy s.fitYs
  if d ≤ 0 then some s.esc.tLast
  else if d < 2 ^ 36 then
    some (s.esc.tLast + 640 * roundHalfEven (7 * d * s.escTs) (640 * (fitSv s.fitYs).toNat))
  else none

/-- The firing record changed. -/
def State.setFiring (s : State) (f : Firing) : State := { s with esc := { s.esc with firing := some f } }

/-- The stripe commits at t_c (R168), and the hit units begin shots 0 and 1 (R139). -/
def State.commitStripe (s : State) (f : Firing) (x : Stripe) (now : T16) : State :=
  ((s.setFiring { f with tc := some now }).beginShot x 0).beginShot x 1

/-- The slip and hints of a locked shot or a written interval show (R171, R173): `num/den` pu. -/
def State.showSlip (s : State) (num : Int) (den slipmax : Nat) (fast : Bool) : State :=
  let a := num.natAbs
  let v := min 0xFFFFFF (a / den)
  let s1 := s.setFld rEscSlip 0 24 v
  let s2 := if s1.fld rEscSlipPeak 0 24 < v then s1.setFld rEscSlipPeak 0 24 v else s1
  let slow := decide (0 < num) && decide (slipmax / 4 * den < a)
  let fst := fast && decide (num < 0) && decide (slipmax / 4 * den < a)
  s2.setFld rEscStat 0 3 (bit slow + 2 * bit (decide (slipmax / 2 * den < a)) + 4 * bit fst)

/-- The span begins at the lock of shot 0: BLANK_ALL is released (R190, R196). -/
def State.beginSpan (s : State) (h : Nat) : State :=
  let t := s.updStripe h (fun y => { y with phase := .firing })
  { t with bal := { t.bal with span := true, blankAll := false } }

/-- XLIM of ESC_TRK in force. -/
def State.xLim (s : State) : Nat := min 32767 (s.apFld rEscTrk 0 16)

/-- Shot `f.pend` locks at t_s, or fails by its slip or by XLIM and blanks the remainder (R169, R171–R173, R177).
A saturation of its words counts either way. -/
def State.lockShot (s : State) (f : Firing) (x : Stripe) (tp ts : Int) : State :=
  let p := (s.geom x).1
  let shot := f.pend
  let den := 84 * s.escTs
  let err := s.fitAt s.fitYs ts - den * shotY x p shot
  let slip := max 0 err
  let smax := s.slipMax p
  let (dy, a) := residual (-err) den
  let (dx, b) := if s.apFld rEscCfg 0 2 = 0 then residual (den * (16 * x.x0) - s.fitAt s.fitXs ts) den else (0, false)
  if (smax * den : Nat) < slip ∨ (s.xLim : Int) < dx.natAbs then (s.deflCount a b).raiseBlank srcSlip 0x02 shot
  else
    let f' : Firing := { f with pend := shot + 1, locks := f.locks ++ [⟨shot, ts.toNat⟩], lastLock := ts.toNat }
    let s1 := (s.setFiring f').showSlip slip den smax false
    let s2 := if fineStep tp < ts then s1.count (rEscCnt 3) 1 else s1
    let s3 := (s2.deflCount a b).emitPin (.defl (deflFrame shot dx dy (bit (shot == 0) + 2 * bit (shot + 1 == x.lines))))
    if shot = 0 then s3.beginSpan x.handle else s3

/-- The pending shot is predicted, and the stripe commits or the shot locks (R167–R169). -/
def State.decideShot (s : State) (now : T16) : State :=
  match s.esc.firing with
  | none => s
  | some f =>
    match s.stripeOf f.handle with
    | none => s
    | some x =>
      if f.ended ∨ s.mode ≠ 2 ∨ x.lines ≤ f.pend ∨ !s.fitValid then s
      else
        match s.predict (shotY x (s.geom x).1 f.pend) with
        | none => s
        | some tp =>
          let pm := pMin x.rate
          match f.tc with
          | none => if tp - now ≤ 2 * pm + 6553600 then s.commitStripe f x now else s
          | some tc =>
            let floor : Int := if f.pend = 0 then tc + 2 * pm else f.lastLock + pm
            let ts := fineStep (max tp (max floor (now + 58982400)))
            if ts - now ≤ 65536000 then s.lockShot f x tp ts else s

/-- DECISION (R166). -/
def execDecision (s : State) : Outcome :=
  match s.esc.decides with
  | [] => .next s
  | t :: rest => .next ((({ s with esc := { s.esc with decides := rest } }).intake.showFit).decideShot t)

/-- A sample of the source in use comes on this clock, behind this command (R342). -/
def State.sampleTies (s : State) : Bool :=
  s.ties (fun c => match c with
    | .plinkFrame _ _ => s.apFld rEscCfg 0 2 == 0
    | .encoderSample _ _ _ => s.apFld rEscCfg 0 2 == 1 || s.apFld rEscCfg 0 2 == 2
    | _ => false)

/-- SAMPLE_SLOT_MISSING (R174): at 1.5·TS after the previous slot's stamp. The substitute enters as it is (log entry 47). A sample on its clock is in time (R342). -/
def execSampleSlotMissing (s : State) : Outcome :=
  if !s.dom.main ∨ s.apFld rEscCfg 0 2 = 3 ∨ s.sampleTies then .next s
  else
    let s1 := s.intake
    if s1.esc.entered < 8 then .next s1
    else if s1.apFld rEscTrk 28 4 ≤ s1.esc.subs then .next (s1.losePos srcPlinkLoss)
    else
      let ts := s1.escTs
      let at_ (vs : List Int) : Int := roundHalfEven (7 * fitSy vs + fitSv vs) 84
      let c := (s1.esc.samples.headD ⟨0, 0, 0⟩).c
      let now := s1.esc.slotAt + 3 * ts / 2
      let s2 := (s1.enterSample ⟨at_ s1.fitYs, at_ s1.fitXs, c⟩ (s1.esc.tLast + ts)).count (rEscCnt 1) 1
      let s3 : State := { s2 with esc := { s2.esc with subs := s2.esc.subs + 1, slotAt := s2.esc.slotAt + ts } }
      .next (s3.showFit.decideShot now)

/-- STALL (R175). -/
def execStall (s : State) : Outcome :=
  if s.mode = 2 ∧ s.escSpan then .next (s.raiseBlank srcStall 0x0B s.lowestUnfired) else .next s

/-! ### Fires -/

/-- The pass's calibration generation comes into force at its first shot, to its last or its abort (R152). -/
def State.genInForce (s : State) (kind gen : Nat) : State :=
  match s.slotOf kind gen with
  | none => s
  | some n =>
    let s1 := s.setFld (rBmhGen n) 30 2 3
    if kind = 0 then
      let s2 : State := { s1 with gen := { s1.gen with lastCal := gen } }
      (s2.setFld rDosGen 0 16 gen).setFld rDosStat 0 3 (s2.fld (rBmhGen n) 27 3)
    else s1

/-- What a fired shot shows, and its slot 0 strobe (R161, R193). -/
def State.shotFired (s : State) (x : Stripe) (l : Lock) : State :=
  let s1 := ((s.wr rEscShot l.shot).count (rEscCnt 7) 1).updStripe x.handle (fun y =>
    { y with tFirst := if l.shot = 0 then leNat s.timeNow else y.tFirst, tLast := leNat s.timeNow })
  s1.fireShot ⟨l.shot, l.t, stagger x.rate⟩ 0 false

/-- SHOT_FIRE (R169): the lowest locked shot fires; a late one only passes (R191). -/
def execShotFire (s : State) : Outcome :=
  match s.esc.firing with
  | none => .next s
  | some f =>
    match f.locks with
    | [] => .next s
    | l :: rest =>
      let f' : Firing := { f with locks := rest, fired := l.shot + 1, lastFire := l.t }
      let s1 := s.setFiring f'
      let x? := match s1.stripeOf f.handle with | some x => some x | none => s1.bal.tail
      match x? with
      | none => .next s1
      | some x =>
        let s2 := if l.shot = 0 ∧ !f.ended then s1.genInForce 0 x.gen else s1
        let s3 := if s2.bal.late.contains l.shot then s2 else s2.shotFired x l
        let s4 := if f.ended then s3 else s3.beginShot x (l.shot + 2)
        .next s4.spanCheck

/-! ### The back channel -/

/-- BACK_CHANNEL_SEND (R162). DESIGN CHOICE: SLIP and SHOT go low byte first (log entry 186). -/
def execBackChannelSend (s : State) : Outcome :=
  if !s.dom.main then .next s
  else
    let body := leBytes 1 s.esc.ackSeq ++ leBytes 1 s.escState ++ leBytes 1 (s.fld rEscStat 0 3) ++
      leBytes 2 (min 0xFFFF (s.fld rEscSlip 0 24 / 64)) ++ leBytes 2 (s.fld rEscShot 0 16)
    .next (s.emit (.backChannel (0xFB#8 :: body ++ beBytes 2 (crc16 body))))

end Sys2Proof.Machine
end

