-- ==== Sys2Proof/Machine/Scan.lean ====
section
/-! DEFINITION. SCAN line pacing: SOS tracking and the facet counter (R178–R180), the intervals of a SCAN stripe (R182, R183),
and the SCN port (R206–R208). -/

namespace Sys2Proof.Machine

/-! ### Tracking -/

/-- S1MODE in force. -/
def State.s1mode (s : State) : Bool := s.apFld rEscCfg 2 2 == 1

/-- The pass's facet slot: the generation of the stripe past its COMMIT edge, else the one in force or readied last. -/
def State.facetSlot (s : State) : Option Nat :=
  let named := match s.esc.firing with
    | some f => (match s.stripeOf f.handle with | some x => s.slotOf 2 x.gen | none => none)
    | none => none
  match named with
  | some n => some n
  | none =>
    let cand := [4, 5].filter (fun n => decide (2 ≤ s.slotState n))
    match cand.find? (fun n => s.slotState n == 3) with
    | some n => some n
    | none => cand.foldl (fun best n => match best with
        | none => some n
        | some b => if (s.gen.slots.getD b ⟨.empty, none, 0⟩).order < (s.gen.slots.getD n ⟨.empty, none, 0⟩).order
            then some n else some b) none

/-- The facets in use; without a facet generation, one of no delay and no trim (log entry 50). -/
def State.facets (s : State) : Facets :=
  match s.facetSlot with
  | none => ⟨[], []⟩
  | some n => match (s.gen.slots.getD n ⟨.empty, none, 0⟩).table with
    | .facet f => f
    | _ => ⟨[], []⟩

/-- F: 1 while S1MODE is 0; 64 while no facet generation stands (log entry 50). -/
def State.facetCount (s : State) : Nat :=
  if !s.s1mode then 1 else if s.facets.fdly.isEmpty then 64 else s.facets.fdly.length

/-- SOS tracking is valid (R179). -/
def State.sosValid (s : State) : Bool := s.flag rEscStat 11

/-- FACET and PERIOD of ESC_FACET. -/
def State.showFacet (s : State) : State :=
  s.wr rEscFacet (s.scan.facet % 64 * 2 ^ 26 + tBar s.scan.intervals / 1024 % 2 ^ 26)

/-- The facet counter at an SOS, and whether FACET_COUNT arises (R180). -/
def State.facetStep (s : State) : State × Bool :=
  let f := (s.scan.facet + 1) % s.facetCount
  if s.scan.index then
    ({ s with scan := { s.scan with facet := 0, index := false, seenIndex := true } }, s.scan.seenIndex && s.facetSlot.isSome && f != 0)
  else ({ s with scan := { s.scan with facet := f } }, false)

/-- A real SOS0 edge enters the tracking (R179): the interval since the edge before it counts when that was a real edge. -/
def State.trackEdge (s : State) (t : T16) : State :=
  let l := if s.scan.edges then (s.scan.intervals ++ [t - s.scan.tPrev]) else s.scan.intervals
  { s with scan := { s.scan with intervals := l.drop (l.length - 8), tPrev := t, misses := 0, edges := true } }

/-- Tracking becomes valid with eight real edges in a row, which are seven intervals, and with an SOS1 edge where S1MODE is 1 (R179,
log entry 49); with a reserved S1MODE never (R158). -/
def State.trackValid (s : State) : State :=
  if 7 ≤ s.scan.intervals.length ∧ s.apFld rEscCfg 2 2 < 2 ∧ (!s.s1mode ∨ s.scan.index ∨ s.scan.seenIndex) then
    s.setFlag rEscStat 11 true
  else s

/-- Tracking is lost (R179): it begins anew, and the port falls low (R208). -/
def State.trackLost (s : State) : State :=
  let t : State := { s with scan := { s.scan with intervals := [], misses := 0, edges := false, index := false, seenIndex := false } }
  (t.setFlag rEscStat 11 false).setFld rScnStat 30 2 0

/-! ### The port -/

/-- Byte k of a lane: its bit of the eight plane words of pixel k, plane 7 first (R207, R230). -/
def laneByte (half : List Byte) (lane k : Nat) : Byte :=
  BitVec.ofNat 8 (sumN ((List.range 8).map (fun b =>
    (if bitAt (getU half (32 * k + 4 * b) 4) lane then 2 ^ (7 - b) else 0))))

/-- The bytes that the 32 lanes send for a line-buffer half. -/
def laneBytes (half : List Byte) (pixels : Nat) : List (List Byte) :=
  (List.range 32).map (fun l => (List.range pixels).map (laneByte half l))

/-- t_line of R182 for the facet counter, and P_f. -/
def State.lineStart (s : State) (t : T16) : Int × Int :=
  let f := s.facets
  (t + signed 32 (s.ap rEscSdly) + f.fdly.getD s.scan.facet 0, pixPeriod (s.ap rEscPixp) (f.ptrim.getD s.scan.facet 0))

/-- τ_e of R207 for a line of `pixels`, e = −8 to 8·PIXELS + 1: τ_8k is edge_k of R182. -/
def scnEdges (tLine pf : Int) (pixels : Nat) : List Int :=
  (List.range (8 * pixels + 10)).map (fun (k : Nat) => tLine + 640 * roundHalfEven (((k : Int) - 8) * pf) (8 * 640))

/-- A blank line at an SOS that writes no interval (R208), as long as the lines of a job. Where no stripe is past its COMMIT edge
PIXELS is not given: a free value (log entries 3, 168). -/
def State.blankLine (s : State) (t : T16) (j : Option Job) : State :=
  if s.scnPort && s.flag rScnCfg 31 && s.sosValid && (s.mode == 1 || s.mode == 3 || s.mode == 5) then
    let (tl, pf) := s.lineStart t
    let (n, s1) := match j with
      | some j => (j.pixels, s)
      | none => (s.freeVal % 65536, s.tookFree)
    (s1.emitPin (.scnInterval 0 true (scnEdges tl pf n) [])).setFld rScnStat 30 2 1
  else s

/-! ### Intervals -/

/-- An interval blanked with a reason joins its run, and any other one ends the run (R119, R183); with the reason goes whether an internal
raise blanked it (R343, log entry 178). -/
def State.decideInterval (s : State) (x : Stripe) (n : Nat) (reason : Option (Nat × Bool)) : State :=
  match s.scan.run, reason with
  | some r, some (why, own) =>
    if r.reason = why ∧ r.last + 1 = n then
      { s with scan := { s.scan with run := some { r with last := n, internal := r.internal || own } } }
    else
      let t := s.logLines x r
      { t with scan := { t.scan with run := some ⟨why, n, n, own⟩ } }
  | some r, none =>
    let t := s.logLines x r
    { t with scan := { t.scan with run := none } }
  | none, some (why, own) => { s with scan := { s.scan with run := some ⟨why, n, n, own⟩ } }
  | none, none => s

/-- An interval is past (R183, R116): it leaves the line buffer; one that was late is not rendered or moved any more, and a start of
channel 3 that pends for it is dropped. -/
def State.passInterval (s : State) (j : Job) (n : Nat) : State :=
  let idle := s.dmaState 3 == 0
  let t : State := { s with
    scan := { s.scan with
      inBuf := s.scan.inBuf.filter (fun k => decide (n < k))
      held := s.scan.held.filter (fun k => decide (n < k) || decide (k < s.scan.moved) || (!idle && k == s.scan.moved))
      moved := if idle then max s.scan.moved (n + 1) else s.scan.moved
      lines := s.scan.lines.filter (fun l => decide (n < l.line / max 1 j.chans)) }
    foot := { s.foot with nextLine := max s.foot.nextLine ((n + 1) * j.chans) } }
  (if t.scan.moved + 1 ≤ n then t.setFlag (rDmaStat 3) 29 false else t).dropBins j.chans |>.layStat

/-- The counts, the report and the position of interval n move on (R183, R161); after the last one the stripe completes. -/
def State.advance (s : State) (x : Stripe) (j : Job) (n : Nat) (blank : Bool) : State :=
  let s1 := (s.count (rScnCnt 0) 1).wr rEscShot n
  let s2 := (if blank then s1.count (rScnCnt 1) 1 else s1).wr rScnStat (2 * 2 ^ 30 + n)
  let s3 := s2.updStripe x.handle (fun y => { y with
    phase := .firing, tFirst := if n = 0 then leNat s.timeNow else y.tFirst, tLast := leNat s.timeNow, shots := n + 1 })
  let s4 := s3.passInterval j n
  let f' : Option Firing := s4.esc.firing.map (fun f => { f with pend := n + 1, fired := n + 1 })
  let s5 : State := { s4 with scan := { s4.scan with started := true, interval := n + 1 }, esc := { s4.esc with firing := f' } }
  if s5.ends x ≤ n + 1 then
    let t := ((s5.flushRuns x.handle).completeStripe x.handle).boundary
    ({ t with esc := { t.esc with firing := none }, scan := { t.scan with started := false } }).commitReady
  else s5

/-- The bin of an unrendered line is bad (R95), or the line exceeds its declared edge count (R107). -/
def State.lineFault (s : State) (x : Stripe) (j : Job) (l : Nat) (edges : Bool) : Bool :=
  match s.binOfLine l with
  | none => false
  | some b => if edges then b.err == 0 && edgeOver j.pitch (x.y0 + l * j.pitch) b l else b.err != 0

/-- The lines of interval n that have not been rendered. -/
def State.unrendered (s : State) (j : Job) (n : Nat) : List Nat :=
  ((List.range j.chans).map (fun k => n * j.chans + k)).filter (fun l => !(s.scan.lines.any (fun y => y.line == l)))

/-- The reason that blanks interval n (R118–R120, per interval by R121), and how many of its lines were counted against their bin only
now: that of a line blanked as it was rendered; else, where it is not in the line buffer, VERIFY for a bad bin or an exceeded edge count, and
LATE_DATA. The edge counts of a late interval's unrendered lines are tested whatever blanks it (R107), also of one lost by a dropped release. -/
def State.intervalReason (s : State) (x : Stripe) (j : Job) (n : Nat) : Option Nat × Nat :=
  let early := (s.scan.lines.filter (fun l => l.line / max 1 j.chans == n)).findSome? (fun l => l.blank)
  if s.scan.inBuf.contains n then (early, 0)
  else
    let rest := s.unrendered j n
    let beyond := (rest.filter (fun l => s.lineFault x j l true)).length
    (some (early.getD (if rest.any (fun l => s.lineFault x j l false) ∨ beyond ≠ 0 then 0x07 else 0x01)), beyond)

/-- Interval n is blanked for a tile whose decode failed, with RLE1_VERIFY (R95, R343). -/
def State.intervalFailed (s : State) (j : Job) (n : Nat) : Bool :=
  s.scan.lines.any (fun l => l.line / max 1 j.chans == n && l.internal) ||
    (!s.scan.inBuf.contains n && (s.unrendered j n).any (fun l => match s.binOfLine l with | some b => b.err == 8 | none => false))

/-- Interval n is written at an SOS (R183). -/
def State.writeInterval (s : State) (x : Stripe) (j : Job) (n : Nat) (t : T16) : State :=
  let (tl, pf) := s.lineStart t
  let den := 84 * s.escTs
  let num := s.fitAt s.fitYs tl - den * (16 * (x.y0 + n * j.chans * j.pitch))
  let smax := s.slipMax j.pitch
  if !s.fitValid then (s.raiseBlank srcSlip 0x02 n).blankLine t j
  else if smax * den < num.natAbs then ((s.showSlip num den smax true).raiseBlank srcSlip 0x02 n).blankLine t j
  else
    let s1 := (if n = 0 then s.genInForce 2 x.gen else s).showSlip num den smax true
    let (why, edges) := s1.intervalReason x j n
    let s1 := if s1.scan.inBuf.contains n then s1 else s1.raiseLate x (n * j.chans) j.chans edges
    let s2 := if why = some 0x01 then s1.count (rScnCnt 2) 1 else s1
    let s3 := s2.decideInterval x n (why.map (fun r => (r, s.intervalFailed j n)))
    let lanes := if why.isSome then [] else laneBytes (s3.dma.scnBuf.getD (n % 2) []) j.pixels
    let s4 := if s3.flag rScnCfg 31 then s3.emitPin (.scnInterval n why.isSome (scnEdges tl pf j.pixels) lanes) else s3
    s4.advance x j n why.isSome

/-- Interval 0 can be written at this SOS (R183): the fit is valid and e_0 ≥ −SLIPMAX. -/
def State.reachesZero (s : State) (x : Stripe) (j : Job) (t : T16) : Bool :=
  let den := 84 * s.escTs
  let num := s.fitAt s.fitYs (s.lineStart t).1 - den * (16 * x.y0)
  s.fitValid && decide (-(s.slipMax j.pitch * den : Int) ≤ num)

/-- The stripe that SOS edges write: past its COMMIT edge in SCAN mode, its remainder not blanked. -/
def State.scanStripe (s : State) : Option (Stripe × Job) :=
  match s.esc.firing with
  | none => none
  | some f =>
    if f.ended ∨ s.mode ≠ 3 then none
    else
      match s.stripeOf f.handle with
      | none => none
      | some x => (s.jobOf x.job).map (fun j => (x, j))

/-- A real SOS with tracking valid (R183, R208): an interval, or a blank line. -/
def State.sosWrite (s : State) (t : T16) : State :=
  match s.scanStripe with
  | none => s.blankLine t none
  | some (x, j) =>
    if s.scan.started then s.writeInterval x j s.scan.interval t
    else if s.reachesZero x j t then s.writeInterval x j 0 t
    else s.blankLine t j

/-- FACET_COUNT (R180, R183): the remainder is blanked from the current interval. -/
def State.facetFault (s : State) : State := s.raiseBlank srcFacetCount 0x0A s.lowestUnfired

/-- SOS0_EDGE (R179, R180): `t` is the edge's stamp. An edge before the window is ignored; while tracking is not valid every edge
counts and the port stays low. An injection that withholds the edge from SOS_MISS lets its wait expire (R341, log entry 174). -/
def execSos0Edge (t : Nat) (s : State) : Outcome :=
  if !s.dom.main ∨ !s.ownedBy 0 0x31 then .next s
  else if !s.sosValid then
    let s1 := (s.trackEdge t).facetStep
    .next (s1.1.trackValid.showFacet.count (rScnCnt 3) 1)
  else
    let tb := tBar s.scan.intervals
    if t < s.scan.tPrev + tb - sosHalf (s.ap rEscScfg) tb then .next (s.count (rEscCnt 5) 1)
    else
      let (s1, bad) := (s.restDone.trackEdge t).facetStep
      let s2 := s1.showFacet
      .next ((if bad then s2.facetFault.blankLine t (s2.scanStripe.map (·.2)) else s2.sosWrite t).waitOut srcSosMiss)

/-- SOS1_EDGE (R180): once a revolution, before facet 0. It may be what tracking still waits for (R179). -/
def execSos1Edge (_ : Nat) (s : State) : Outcome :=
  if !s.dom.main ∨ !s.s1mode ∨ !s.ownedBy 1 0x31 then .next s
  else
    let t : State := { s with scan := { s.scan with index := true } }
    .next t.trackValid

/-- A missing SOS of a started stripe writes its interval blank, and its hole stands alone (R183). -/
def State.missInterval (s : State) (x : Stripe) (j : Job) (n : Nat) (t : T16) : State :=
  let (tl, pf) := s.lineStart t
  let s1 := s.decideInterval x n none
  let s2 := s1.logLines x ⟨0x0A, n, n, false⟩
  let s3 := if s2.flag rScnCfg 31 then s2.emitPin (.scnInterval n true (scnEdges tl pf j.pixels) []) else s2
  (s3.advance x j n true).raise srcSosMiss

/-- SOS_WINDOW_EXPIRY (R179, R183): no edge by t̂ + W. The predicted time is substituted for counting only. DESIGN CHOICE: SOS_MISS is
raised for a missing SOS that an interval was to be written at, and not beside SOS_LOST or FACET_COUNT of the same SOS, nor while the stripe
still waits for interval 0 (log entry 188). An edge on its clock is in time (R342). -/
def execSosWindowExpiry (s : State) : Outcome :=
  if !s.dom.main ∨ !s.sosValid ∨ s.ties (fun c => match c with | .sos0Edge _ => true | _ => false) then .next s
  else
    let t := s.scan.tPrev + tBar s.scan.intervals
    let s0 : State := { s.restDone with scan := { s.restDone.scan with tPrev := t, misses := s.restDone.scan.misses + 1, edges := false } }
    let (s1, bad) := (s0.count (rEscCnt 4) 1).facetStep
    let s2 := s1.showFacet
    let lost := decide (s2.apFld rEscScfg 24 8 < s2.scan.misses)
    let s3 := if lost then s2.trackLost else s2
    match s2.scanStripe with
    | none => .next (if lost then s3.raise srcSosLost else if bad then s3.facetFault else s3)
    | some (x, j) =>
      if lost then .next (s3.raiseBlank srcSosLost 0x0A s3.lowestUnfired)
      else if bad then .next s3.facetFault
      else if s3.scan.started then .next (s3.missInterval x j s3.scan.interval t)
      else .next s3

end Sys2Proof.Machine
end

