-- ==== Sys2Proof/Machine/Window.lean ====
section
/-! DEFINITION. The table windows of BAR0 (R156, Table 7-6): what a read of them gives, and what channel 2 writes into a slot that
is being filled (R220). -/

namespace Sys2Proof.Machine

/-- The 64 bytes of a kernel as a record (Table 6-2). -/
def kernelBytes (k : Kernel) : List Byte :=
  let b := leBytes 2 1 ++ leBytes 1 (bit k.enable) ++ leBytes 1 k.sh ++ leBytes 2 k.dec ++ zeros 2 ++
    ((List.range 25).map (fun n => leBytesS 2 (k.w.getD n 0))).flatten ++ zeros 2
  b ++ leBytes 4 (crc32c b)

/-- The bytes of a facet table as a record (Table 8-6). -/
def facetBytes (f : Facets) : List Byte :=
  let body := ((f.fdly.zip f.ptrim).map (fun p => leBytesS 4 p.1 ++ leBytesS 4 p.2 ++ zeros 8)).flatten
  let h := leBytes 2 1 ++ leBytes 1 f.fdly.length ++ zeros 53 ++ leBytes 4 (crc32c body)
  h ++ leBytes 4 (crc32c h) ++ body

/-- What a slot holds. -/
def State.slotTable (s : State) (n : Nat) : Table := (s.gen.slots.getD n ⟨.empty, none, 0⟩).table

/-- What channel 2 has written into a slot that it fills. -/
def State.slotLoad (s : State) (n : Nat) : Option FillLoad := (s.gen.slots.getD n ⟨.empty, none, 0⟩).fill.bind (·.load)

/-- Byte `o` of a table's window; a FREE slot reads 0. -/
def tableByte (t : Table) (o : Nat) : Byte :=
  match t with
  | .cal es _ _ _ _ => (calBytes (calEntry es (o / 6))).getD (o % 6) 0#8
  | .kernel k => (kernelBytes k).getD o 0#8
  | .facet f => (facetBytes f).getD o 0#8
  | .empty => 0#8

/-- Byte `o` of a slot's window: of a FILLING slot the content written so far (R156). -/
def State.slotByte (s : State) (n o : Nat) : Byte :=
  match s.slotLoad n with
  | some l => l.got.getD o 0#8
  | none => tableByte (s.slotTable n) o

/-- Beam `b` of a calibration slot is marked dead: the part derives the bitmap from the entries during the fill (R156). -/
def State.deadBit (s : State) (n b : Nat) : Bool :=
  match s.slotLoad n, s.slotTable n with
  | some l, _ => decide (6 * b + 5 < l.got.length) && (calParse (slice l.got (6 * b) 6)).dead
  | none, .cal es _ _ _ _ => (calEntry es b).dead
  | none, _ => false

/-- Byte `o` of a slot's dead-beam bitmap. -/
def State.deadByte (s : State) (n o : Nat) : Byte :=
  BitVec.ofNat 8 (sumN ((List.range 8).map (fun k => if s.deadBit n (8 * o + k) then 2 ^ k else 0)))

/-- The slot whose table a window offset lies in, and the place in its window (Table 7-6); the bitmaps and reserved offsets are in
none. -/
def windowSlot (off : Nat) : Option (Nat × Nat) :=
  if off < 0x800000 then none
  else if off < 0xB00000 then some ((off - 0x800000) / 0x180000, (off - 0x800000) % 0x180000)
  else if off < 0xB10000 then none
  else if off < 0xB10080 then some (2 + (off - 0xB10000) / 0x40, (off - 0xB10000) % 0x40)
  else if 0xB20000 ≤ off ∧ off < 0xB40000 then some (4 + (off - 0xB20000) / 0x10000, (off - 0xB20000) % 0x10000)
  else none

/-- A byte of the table windows (R156). -/
def State.windowByte (s : State) (off : Nat) : Byte :=
  match windowSlot off with
  | some (n, o) => s.slotByte n o
  | none =>
    if 0xB00000 ≤ off ∧ off < 0xB10000 then s.deadByte ((off - 0xB00000) / 0x8000) ((off - 0xB00000) % 0x8000)
    else 0#8

/-- Channel 2 writes bytes into a slot that is being filled (R220). -/
def State.windowWrite (s : State) (n o : Nat) (bs : List Byte) : State :=
  let put (f : Fill) : Fill := { f with load := f.load.map (fun l => { l with got := patch l.got o bs }) }
  { s with gen := { s.gen with slots := updAt s.gen.slots n (fun x => { x with fill := x.fill.map put }) } }

end Sys2Proof.Machine
end

