-- ==== Sys2Proof/Machine/Dma.lean ====
section
/-! DEFINITION. The DMA channels (R219–R226), the event matrix (R227, R228) and the espalier (R229–R232). -/

namespace Sys2Proof.Machine

/-! ### The espalier -/

/-- The element that R231 puts at output position `q` of a run of `n0`. -/
def ilvSource (n0 i : Nat) (split : Bool) (q : Nat) : Nat :=
  let r := n0 / i
  if split then q % r * i + q / r else q % i * r + q / i

/-- The elements of a run. -/
def elems (n0 es : Nat) (run : List Byte) : List (List Byte) := (List.range n0).map (fun k => slice run (k * es) es)

/-- A run after R231; I = 1 leaves the order. -/
def ilvRun (n0 i : Nat) (split : Bool) (l : List (List Byte)) : List (List Byte) :=
  if i = 1 then l else (List.range n0).map (fun q => l.getD (ilvSource n0 i split q) [])

/-- The eight words of byte position k (R230), plane 7 first. -/
def planeWords (l : List (List Byte)) (k : Nat) : List Byte :=
  ((List.range 8).map (fun b => leBytes 4 (sumN (l.zipIdx.map (fun p =>
    if bitAt (p.1.getD k 0#8).toNat (7 - b) then 2 ^ p.2 else 0))))).flatten

/-- The output of a run (R229–R232): `i1` is its pass of loop 1. -/
def espRun (mode n0 es ilv : Nat) (split : Bool) (i1 : Nat) (run : List Byte) : List Byte :=
  let l := elems n0 es run
  match mode with
  | 1 => ((List.range es).map (planeWords (ilvRun n0 (2 ^ ilv) split l))).flatten
  | 2 => (ilvRun n0 (2 ^ ilv) split l).flatten
  | 3 => if i1 % 2 = 1 then l.reverse.flatten else run
  | _ => run

/-- Whole runs leave the run buffer; `k` runs of the descriptor have left it before. -/
def espDrain (mode n0 es ilv n1 : Nat) (split : Bool) : Nat → Nat → List Byte → List Byte × List Byte
  | 0, _, run => ([], run)
  | f + 1, k, run =>
    if run.length < n0 * es then ([], run)
    else
      let r := espDrain mode n0 es ilv n1 split f (k + 1) (run.drop (n0 * es))
      (espRun mode n0 es ilv split (k % n1) (run.take (n0 * es)) ++ r.1, r.2)

/-! ### Addresses -/

/-- SRC of the descriptor. -/
def State.dmaSrc (s : State) (n : Nat) : Nat := s.rd (rDmaSrcLo n) + 2 ^ 32 * s.rd (rDmaSrcHi n)
/-- DST of the descriptor. -/
def State.dmaDst (s : State) (n : Nat) : Nat := s.rd (rDmaDstLo n) + 2 ^ 32 * s.rd (rDmaDstHi n)

/-- Bytes that the descriptor reads. -/
def State.dmaIn (s : State) (n : Nat) : Nat := s.dmaN0 n * s.dmaN1 n * s.dmaN2 n * s.dmaEs n
/-- Bytes that the descriptor writes (R229). -/
def State.dmaOut (s : State) (n : Nat) : Nat :=
  if s.espMode n = 1 then 32 * s.dmaEs n * s.dmaN1 n * s.dmaN2 n else s.dmaIn n

/-- The address of element `e` of the loops from a base and three steps (R221). -/
def State.loopAddr (s : State) (n base : Nat) (st : Nat → Nat) (e : Nat) : Int :=
  let n0 := s.dmaN0 n
  let n1 := s.dmaN1 n
  base + (e % n0 : Nat) * signed 32 (s.rd (st 0)) + (e / n0 % n1 : Nat) * signed 32 (s.rd (st 1)) +
    (e / (n0 * n1) : Nat) * signed 32 (s.rd (st 2))

/-- The source address of byte `k` of the descriptor. -/
def State.srcAddr (s : State) (n k : Nat) : Int :=
  let es := s.dmaEs n
  s.loopAddr n (s.dmaSrc n) (fun i => [rDmaSs0 n, rDmaSs1 n, rDmaSs2 n].getD i 0) (k / es) + (k % es : Nat)

/-- The destination address of output byte `k`: by the loops in PASS mode, else contiguous (R221). -/
def State.dstAddr (s : State) (n k : Nat) : Int :=
  let es := s.dmaEs n
  if s.espMode n = 0 then
    s.loopAddr n (s.dmaDst n) (fun i => [rDmaDs0 n, rDmaDs1 n, rDmaDs2 n].getD i 0) (k / es) + (k % es : Nat)
  else s.dmaDst n + k

/-- A byte range lies in an address space (R220). -/
def State.inSpace (s : State) (n space : Nat) (a : Int) (len : Nat) : Bool :=
  let within (lo hi : Nat) : Bool := decide ((lo : Int) ≤ a) && decide (a + len ≤ hi)
  match space with
  | 0 => within 0 s.jsSize
  | 1 => within 0 (2 ^ 64)
  | 2 => within 0x800000 0xC00000
  | _ => n == 3 && s.scnPort && (within 0 0x100000 || within 0x1000000 0x1100000)

/-- Bytes of the burst from position `k` (R222): contiguous, up to 256, not across a 256-byte boundary, and not into an element
that leaves its space; 0 when the first element does. -/
def burstLen (addr : Nat → Int) (fits : Nat → Bool) (k total : Nat) : Nat :=
  let a := addr k
  let top := min (256 - (a % 256).toNat) (total - k)
  ((List.range top).takeWhile (fun i => addr (k + i) == a + i && fits (k + i))).length

/-- The source element of byte `k` lies in its space; it is tested at its first byte. -/
def State.srcFits (s : State) (n k : Nat) : Bool :=
  k % s.dmaEs n != 0 || s.inSpace n (s.fld (rDmaDctl n) 30 2) (s.srcAddr n k) (s.dmaEs n)

/-- The destination of output byte `k` lies in its space. -/
def State.dstFits (s : State) (n k : Nat) : Bool :=
  if s.espMode n = 0 then k % s.dmaEs n != 0 || s.inSpace n (s.fld (rDmaDctl n) 28 2) (s.dstAddr n k) (s.dmaEs n)
  else s.inSpace n (s.fld (rDmaDctl n) 28 2) (s.dstAddr n k) 1

/-! ### Bursts -/

/-- An address of an internal buffer: which half of which buffer, and the place in it (R220). -/
def halfOf (a : Nat) : Nat × Nat := (a % 0x100000 / 0x80000, a % 0x80000)

/-- `l` from position `o`, `n` bytes; where nothing has been written the buffer reads 0 (log entry 53). -/
def padRead (l : List Byte) (o n : Nat) : List Byte := (List.range n).map (fun i => l.getD (o + i) 0#8)

/-- What a read burst brings, or the cause that halts the channel (R226, R239). -/
def State.burstRead (s : State) (space a n : Nat) (host : HostRead) : Except Nat (List Byte) :=
  match space with
  | 0 => match s.badBlock a n with
    | some _ => .error 1
    | none => .ok (s.jsRead a n)
  | 1 => match host with
    | .failed => .error 2
    | .bytes bs => if bs.length < n then .error 2 else .ok (bs.take n)
  | 2 => .ok ((List.range n).map (fun i => s.windowByte (a + i)))
  | _ =>
    let (h, o) := halfOf a
    .ok (padRead ((if a < 0x1000000 then s.dma.scanOut else s.dma.scnBuf).getD h []) o n)

/-- The CRC over the bytes that the chain has read (R224). -/
def State.dmaCrcAdd (s : State) (n : Nat) (bs : List Byte) : State :=
  if s.flag (rDmaDctl n) 23 then s.wr (rDmaCrc n) (0xFFFFFFFF ^^^ crcRefl 0x82F63B78 (0xFFFFFFFF ^^^ s.rd (rDmaCrc n)) bs) else s

/-- Read bytes go through the espalier (R229). -/
def State.dmaTake (s : State) (n : Nat) (bs : List Byte) : State :=
  let c := s.dmaChan n
  let s1 := s.dmaCrcAdd n bs
  let mode := s.espMode n
  if mode = 0 then s1.setChan n { c with read := c.read + bs.length, buf := c.buf ++ bs }
  else
    let n0 := s.dmaN0 n
    let es := s.dmaEs n
    let run := c.run ++ bs
    let r := espDrain mode n0 es (s.espIlv n) (s.dmaN1 n) (s.flag (rDmaEsp n) 7) run.length
      ((c.read - c.run.length) / (n0 * es)) run
    s1.setChan n { c with read := c.read + bs.length, run := r.2, buf := c.buf ++ r.1 }

/-- The read burst (R222, R226). -/
def State.readBurst (s : State) (n len : Nat) (host : HostRead) : State :=
  let a := s.srcAddr n (s.dmaChan n).read
  if len = 0 then s.dmaHaltAt n false 3 (unsigned 64 a)
  else
    let space := s.fld (rDmaDctl n) 30 2
    let s1 := if space = 0 then s.readBlocks a.toNat len else s
    match s1.burstRead space a.toNat len host with
    | .ok bs => s1.dmaTake n bs
    | .error c =>
      let s2 := match s1.badBlock a.toNat len with
        | some b => if c = 1 then s1.memUncorr b else s1
        | none => s1
      s2.dmaHaltAt n false c a.toNat

/-- Why a write burst fails (R220, R226, R239, R251); none when it may be made. -/
def State.writeBad (s : State) (n space a len : Nat) : Option Nat :=
  match space with
  | 0 =>
    if overlap a len s.partArea 67108864 ∨ (s.pinnedEntry a len).isSome then some 5
    else if (s.partialBad a len).isSome then some 1 else none
  | 2 =>
    match windowSlot a, windowSlot (a + len - 1) with
    | some (i, _), some (k, _) => if n = 2 ∧ i = k ∧ s.slotState i = 1 then none else some 4
    | _, _ => some 4
  | _ => none

/-- The bytes of a write burst reach their place. -/
def State.burstWrite (s : State) (space a : Nat) (bs : List Byte) : State :=
  match space with
  | 0 => s.storeWrite a bs
  | 1 => s.hostWrite a bs
  | 2 => match windowSlot a with
    | some (i, o) => s.windowWrite i o bs
    | none => s
  | _ =>
    let (h, o) := halfOf a
    if a < 0x1000000 then { s with dma := { s.dma with scanOut := updAt s.dma.scanOut h (fun l => patch l o bs) } }
    else { s with dma := { s.dma with scnBuf := updAt s.dma.scnBuf h (fun l => patch l o bs) } }

/-- The write burst of `len` bytes (R222, R226). -/
def State.writeBurst (s : State) (n len : Nat) : State :=
  let c := s.dmaChan n
  let a := s.dstAddr n c.wrote
  let space := s.fld (rDmaDctl n) 28 2
  let s := if space = 0 then s.readPartial a.toNat len else s
  match s.writeBad n space a.toNat len with
  | some cause =>
    let s1 := match s.partialBad a.toNat len with
      | some b => if cause = 1 then s.memUncorr b else s
      | none => s
    s1.dmaHaltAt n true cause a.toNat
  | none =>
    (s.burstWrite space a.toNat (c.buf.take len)).setChan n { c with buf := c.buf.drop len, wrote := c.wrote + len }

/-- Channel 3 moves an interval of the stripe past its COMMIT edge once the renderer has finished it and while the line buffer,
which holds two intervals, has room (R121, log entry 52). -/
def State.scnReady (s : State) (n : Nat) : Bool :=
  if n = 3 ∧ s.fld (rDmaDctl 3) 30 2 = 3 then
    match s.scanStripe with
    | none => false
    | some (_, j) => !s.flt.stopped.contains 7 && decide (s.scan.moved < s.rendered j) && decide (s.scan.inBuf.length < 2)
  else true

/-- The next burst of a channel's descriptor: whether it is a write, and its bytes; none where nothing is left to do. A write burst
whose bytes have all come issues before the next read; one of 0 bytes is a burst whose address leaves its space. -/
def State.burstOf (s : State) (k : Nat) : Option (Bool × Nat) :=
  let c := s.dmaChan k
  let w := burstLen (s.dstAddr k) (s.dstFits k) c.wrote (s.dmaOut k)
  if c.wrote < s.dmaOut k ∧ w = 0 ∧ !c.buf.isEmpty then some (true, 0)
  else if 0 < w ∧ w ≤ c.buf.length then some (true, w)
  else if c.read < s.dmaIn k then some (false, burstLen (s.srcAddr k) (s.srcFits k) c.read (s.dmaIn k))
  else none

/-- A channel has work, and for a read the credit that it takes (R223). -/
def State.burstReady (s : State) (k : Nat) : Bool :=
  s.dmaState k == 1 && s.scnReady k &&
    (match s.burstOf k with
     | none => false
     | some (true, _) => true
     | some (false, len) => decide (len ≤ s.creditNow k))

/-- It is the channel's turn (R223): channel 3 is served first, the others round-robin. -/
def State.dmaTurn (s : State) (k : Nat) : Bool :=
  k == 3 || (!s.burstReady 3 &&
    !(((List.range 12).map (fun i => (s.dma.turn + 1 + i) % 12)).takeWhile (fun c => c != k)).any (fun c => c != 3 && s.burstReady c))

/-- The job-store ranges of a burst, which come through port 2 (R242). -/
def State.burstRanges (s : State) (k : Nat) (wr : Bool) (len : Nat) : List (Nat × Nat) :=
  if wr then (if s.fld (rDmaDctl k) 28 2 = 0 then [((s.dstAddr k (s.dmaChan k).wrote).toNat, len)] else [])
  else if s.fld (rDmaDctl k) 30 2 = 0 then [((s.srcAddr k (s.dmaChan k).read).toNat, len)] else []

/-- A burst issues: a read takes its credit, and the turn passes (R223). -/
def State.burstIssues (s : State) (k : Nat) (wr : Bool) (len : Nat) : State :=
  let t := if wr then s else s.settleCredit k len
  { t with dma := { t.dma with turn := if k = 3 then t.dma.turn else k } }.portServed 2

/-- DMA_BURST (R222, R223): a channel with credit and work issues one burst at its turn. `errs` are the errors that have come up in
the DRAM since the last read. -/
def execDmaBurst (n : Fin 12) (host : HostRead) (errs : List (Nat × Nat)) (s : State) : Outcome :=
  if !s.burstReady n.val ∨ !s.dmaTurn n.val then .next s
  else
    let k := n.val
    match s.burstOf k with
    | none => .next s
    | some (wr, len) =>
      if s.portWaits 2 (s.burstRanges k wr len) then .next (s.portAsks 2 (s.burstRanges k wr len))
      else
        let t := (s.newErrs errs).burstIssues k wr len
        if !wr then .next (t.readBurst k len host)
        else if len = 0 then .next (t.dmaHaltAt k true 3 (unsigned 64 (t.dstAddr k (t.dmaChan k).wrote)))
        else .next (t.writeBurst k len)

/-! ### Descriptors -/

/-- The offset of register `i` of a descriptor, in register order (R224). -/
def descReg (n i : Nat) : Nat := rDmaDctl n + 4 * i

/-- The load of the next descriptor has failed: the channel halts, and RESUME loads it again (R224, R226). -/
def State.chainHalts (s : State) (n cause addr : Nat) : State :=
  (s.setChan n { s.dmaChan n with reload := true }).dmaHaltAt n false cause addr

/-- The next descriptor of a chain is loaded from the job store (R224). -/
def State.chainNext (s : State) (n : Nat) : State :=
  let a : Nat := s.rd (rDmaNextLo n) + 2 ^ 32 * s.rd (rDmaNextHi n)
  if !s.inSpace n 0 a 64 then s.chainHalts n 3 a
  else
    let t := ((s.settleCredit n 0).portServed 2).readBlocks a 64
    match t.badBlock a 64 with
    | some b => (t.memUncorr b).chainHalts n 1 a
    | none =>
      let bs := s.jsRead a 64
      ((List.range 16).foldl (fun u i => u.wr (descReg n i) (getU bs (4 * i) 4 &&& fieldMask (descReg n i))) t).beginDesc n
where
  /-- The bits of a descriptor register that hold fields. -/
  fieldMask (off : Nat) : Nat := match regAt off with
    | some r => r.rw
    | none => 0

/-- The load of the next descriptor has to wait for its port (R242, R248). -/
def State.chainWaits (s : State) (n : Nat) : Bool :=
  s.portWaits 2 [(s.rd (rDmaNextLo n) + 2 ^ 32 * s.rd (rDmaNextHi n), 64)]

/-- Its request stands from now on. -/
def State.chainAsks (s : State) (n : Nat) : State := s.portAsks 2 [(s.rd (rDmaNextLo n) + 2 ^ 32 * s.rd (rDmaNextHi n), 64)]

/-- Channel 3 has moved its interval: the line buffer holds it, and the next one to move follows those past or lost (R228). -/
def State.scnMoved (s : State) (n : Nat) : State :=
  if n = 3 ∧ s.fld (rDmaDctl 3) 30 2 = 3 then
    let m := s.scan.moved
    let next := max (m + 1) s.scan.interval
    let skip := (List.range 3).foldl (fun k _ => if s.scan.lost.contains k then k + 1 else k) next
    { s with scan := { s.scan with moved := skip, inBuf := if s.scan.interval ≤ m then s.scan.inBuf ++ [m] else s.scan.inBuf } }
  else s

/-- DESCRIPTOR_DONE (R224, R225): not yet while the load of the next descriptor has to wait (log entry 164). -/
def execDescriptorDone (n : Fin 12) (s : State) : Outcome :=
  let k := n.val
  let c := s.dmaChan k
  if s.dmaState k ≠ 1 ∨ c.read < s.dmaIn k ∨ c.wrote < s.dmaOut k then .next s
  else if s.flag (rDmaDctl k) 24 ∧ s.chainWaits k then .next (s.chainAsks k)
  else
    let s1 := (s.setFld (rDmaStat k) 0 16 (s.fld (rDmaStat k) 0 16 + 1)).scnMoved k
    let s2 := if s1.flag (rDmaDctl k) 25 then s1.pulse k else s1
    .next (if s2.flag (rDmaDctl k) 24 then s2.chainNext k else s2.dmaIdle k)

/-- The bursts that channel 2 still has to make for a load, one after the other: it stops where the load has halted, or where its port has to
wait. -/
def State.runLoad : Nat → State → State
  | 0, s => s
  | f + 1, s =>
    if s.dma.load.isNone ∨ s.dmaState 2 ≠ 1 then s
    else
      match s.burstOf 2 with
      | none => s
      | some (wr, len) =>
        if s.portWaits 2 (s.burstRanges 2 wr len) then s.portAsks 2 (s.burstRanges 2 wr len)
        else
          let t := s.burstIssues 2 wr len
          State.runLoad f (if !wr then t.readBurst 2 len .failed
            else if len = 0 then t.dmaHaltAt 2 true 3 (unsigned 64 (t.dstAddr 2 (t.dmaChan 2).wrote)) else t.writeBurst 2 len)

/-- GEN_FILL_DONE (R151): a build finishes, or a load: its remaining bursts have been made by now, and it is checked. A load that waits for
channel 2, or that the memory keeps waiting, has not finished. -/
def execGenFillDone (n : Fin 6) (s : State) : Outcome :=
  match s.slotLoad n.val with
  | none => .next (s.fillDone n.val)
  | some _ =>
    if s.dma.load ≠ some n.val then .next s
    else
      .next (s.onOneClock (fun s =>
        let t := State.runLoad (s.dmaIn 2 + s.dmaOut 2 + 1) s
        if t.dma.load = some n.val ∧ t.dmaState 2 = 1 ∧ (t.burstOf 2).isNone then t.fillDone n.val else t))

/-- A failing access of cause 1 leaves its block uncorrectable, and raises MEM_UNCORR for it (R239). -/
def State.haltBlock (s : State) (cause addr : Nat) : State :=
  let blk := addr / 64 * 64
  if cause ≠ 1 ∨ s.jsSize ≤ addr then s
  else
    let t : State := if s.ddr.bad.contains blk then s else { s with ddr := { s.ddr with bad := s.ddr.bad ++ [blk] } }
    t.memUncorr blk

/-- DMA_HALT (R226): a burst fails for a cause that the command names; ERR_CAUSE 6 comes only with a start (R225). On
channel 1 it is the event of a halt on a command's data, which that command has met on this clock. -/
def execDmaHalt (n : Fin 12) (wr : Bool) (cause : Fin 16) (addr : Nat) (s : State) : Outcome :=
  if n.val = 1 ∧ s.dma.fault then
    .next (({ s with dma := { s.dma with fault := false } }.pulse 13).raise (srcDmaBusErr 1))
  else if s.dmaState n.val ≠ 1 ∨ cause.val = 0 ∨ 5 < cause.val then .next s
  else .next (s.onOneClock (fun t => (t.haltBlock cause.val addr).dmaHaltAt n.val wr cause.val (addr % 2 ^ 64)))

/-! ### Control -/

/-- A command to a channel is accepted from its master alone (R219). -/
def State.dmaCmd (s : State) (m : Master) (n : Nat) (f : State → State) : Outcome :=
  s.regCmd m (rDmaCtl n) fun t =>
    if m == .load || t.dmaNamed m n then f t else t.access (rDmaCtl n)

/-- DMA_GO (R225). -/
def execDmaGo (m : Master) (n : Fin 12) (s : State) : Outcome := s.dmaCmd m n.val fun t => t.dmaStart n.val false

/-- DMA_ABORT (R225). -/
def execDmaAbort (m : Master) (n : Fin 12) (s : State) : Outcome := s.dmaCmd m n.val fun t => t.dmaStop n.val

/-- A halted channel goes on (R226): the failing burst, or the failing load of its next descriptor, issues again; of a bad set-up
the descriptor begins again. -/
def State.dmaGoesOn (s : State) (n : Nat) : State :=
  if s.dmaState n ≠ 2 then s
  else
    let c := s.dmaChan n
    let t := s.setFld (rDmaStat n) 30 2 1
    if c.reload ∧ s.chainWaits n then s.chainAsks n
    else if c.reload then (t.setChan n { c with reload := false }).chainNext n
    else if s.fld (rDmaStat n) 24 4 = 6 then t.beginDesc n
    else t

/-- DMA_RESUME (R226). -/
def execDmaResume (m : Master) (n : Fin 12) (s : State) : Outcome := s.dmaCmd m n.val fun t => t.dmaGoesOn n.val

/-- DMA_EVM_SW (R227). -/
def execDmaEvmSw (m : Master) (v : Word) (s : State) : Outcome :=
  s.regCmd m rDmaEvmSw fun t => if bitAt v.toNat 0 then t.pulse 63 else t

/-! ### The event matrix -/

/-- A pulse is dropped at a sink (R228); of the SCAN chain, the interval it would have moved or released becomes late. -/
def State.dropPulse (s : State) (k src : Nat) : State :=
  let late : List Nat :=
    match s.scanStripe with
    | none => []
    | some (_, j) =>
      if k = 3 ∧ src = 25 then [s.rendered j - 1]
      else if k = 16 ∧ src = 3 then [s.scan.moved + 1] else []
  let t : State := { s with scan := { s.scan with lost := s.scan.lost ++ late } }
  (t.setW1c rDmaEvmOvr k).raise srcEvtOverrun

/-- The swap logic's sink of a kind (Table 10-3): the slot that is being filled is complete. While no slot is being filled the pulse
pends, and a second one is dropped (R228, log entry 91). -/
def State.swapSink (s : State) (kind src : Nat) : State :=
  match [2 * kind, 2 * kind + 1].find? (fun n => s.slotState n == 1) with
  | some n => s.fillDone n
  | none =>
    if s.dma.swaps.contains kind then s.dropPulse (12 + kind) src
    else { s with dma := { s.dma with swaps := s.dma.swaps ++ [kind] } }

/-- The priming of the next admitted stripe has begun (R117): sink 15 has nothing to do. -/
def State.primed (s : State) : Bool :=
  match s.renderStripe with
  | none => false
  | some x =>
    if x.phase == .started || x.phase == .firing then
      match s.nextStripe x.handle with
      | some y => s.foot.aheadOf == y.handle && !s.foot.ahead.isEmpty
      | none => false
    else s.foot.handle == x.handle && s.foot.nextBin != 0

/-- The older output half that is held has been rendered: a release frees it as it arrives (Table 10-3, log entry 52). -/
def State.halfDone (s : State) : Bool :=
  match s.renderStripe.bind (fun x => s.jobOf x.job), s.scan.held with
  | some j, h :: _ => decide (h < s.rendered j)
  | _, _ => false

/-- A pulse reaches sink k (Table 10-3). Of sinks 15 and 16 it acts as it arrives where it can, and else pends. A sink without a function in the port kind ignores it: sinks 3, 14 and 16 in a part with
the beam-array link, 12 and 13 in a part with the SCN port. -/
def State.sink (s : State) (k src : Nat) : State :=
  let none' := if s.scnPort then k == 12 || k == 13 else k == 3 || k == 14 || k == 16
  if none' then s
  else if k < 12 then
    if s.dmaState k ≠ 0 ∧ s.flag (rDmaStat k) 29 ∧ !s.sameStart k true then s.dropPulse k src else s.dmaStart k true
  else if k < 15 then s.swapSink (k - 12) src
  else if k = 15 then
    if s.primed then s
    else if s.dma.prime then s.dropPulse 15 src else { s with dma := { s.dma with prime := true } }
  else if s.halfDone then { s with scan := { s.scan with held := s.scan.held.drop 1 } }
  else if s.dma.release then s.dropPulse 16 src
  else { s with dma := { s.dma with release := true } }

/-- EVENT_PULSE (R227): a pulse emitted by a source reaches every enabled sink that selects it. -/
def execEventPulse (src : Fin 64) (s : State) : Outcome :=
  if !s.dma.pulses.contains src.val then .next s
  else
    let t : State := { s with dma := { s.dma with pulses := s.dma.pulses.erase src.val } }
    .next ((List.range 17).foldl (fun t k =>
      if t.flag (rDmaEvmSel k) 31 && t.fld (rDmaEvmSel k) 0 6 == src.val then t.sink k src.val else t) t)

end Sys2Proof.Machine
end

