-- ==== Sys2Proof/Machine/Engine.lean ====
section
/-! DEFINITION. Run-length engine 1 and its queues (R212–R217), and COMPRESS (R218). -/

namespace Sys2Proof.Machine

/-! ### Items -/

/-- The longest snapshot wait, in units of 10 ns (RLE_POOL). -/
def State.noteWait (s : State) (since : T16) : State :=
  s.setFld rRlePool 0 16 (max (s.fld rRlePool 0 16) (min 0xFFFF ((s.tim.elapsed - since) / 655360)))

/-- An entry of the snapshot buffer changed. -/
def State.updSnap (s : State) (i : Nat) (f : Snapshot → Snapshot) : State :=
  { s with snap := { s.snap with entries := updAt s.snap.entries i (fun e => e.map f) } }

/-- The snapshot stays raw in its entry, and is counted (RLE_CNT[4]). -/
def State.snapRaw (s : State) (i : Nat) : State := (s.updSnap i (fun x => { x with raw := true, code := [] })).count (rRleCnt 4) 1

/-- A snapshot is encoded (R214, R217): NO_GAIN and a self-verify that fails leave it raw; erratum A0-03 fails a code that ends
with a run of exactly 130. -/
def State.encodeSnap (s : State) (w : SnapWait) (verifyOk : Bool) : State :=
  match s.snap.entries.getD w.entry none with
  | none => s
  | some x =>
    let bs := snapshotBytes x
    let code := rleEncode bs
    let s1 := s.noteWait w.since
    if bs.length ≤ code.length then s1.snapRaw w.entry
    else if !verifyOk || lastRun130 code then (s1.snapRaw w.entry).rle1Fail
    else s1.updSnap w.entry (fun y => { y with raw := false, code := code })

/-- The pixels of a primitive, once its tile is decoded. -/
def Prim.withPix (p : Prim) (pix : List Nat) : Prim :=
  match p with
  | .tile x y w h c o _ => .tile x y w h c o pix
  | q => q

/-- A tile is decoded (R88, R217): its pixels join its primitive, or its bin fails with LAY_ERR.CAUSE 8. -/
def State.decodeTile (s : State) (w : TileWait) (verifyOk : Bool) : State :=
  let s1 := s.count (rRleCnt 5) 1
  match rleDecode w.code w.size, verifyOk && !lastRun130 w.code with
  | some out, true =>
    let pix := out.map BitVec.toNat
    s1.updBin w.stripe w.bin (fun b => { b with prims := updAt b.prims w.pos (fun p => p.withPix pix) })
  | _, _ => s1.rle1Fail.binError w.stripe w.bin 8

/-- A COMPRESS changed. -/
def State.updComp (s : State) (pk : Packet) (f : Compress → Compress) : State :=
  { s with rle := { s.rle with comps := s.rle.comps.map (fun c => if c.pk == pk then f c else c) } }

/-- RLE1_ITEM (R214, R216): an encode stops once the code of what it has taken exceeds the length of the input: the code of the whole is never
shorter than that of a part by more than a byte. The oldest snapshot, else the oldest tile, else the next segment of the oldest COMPRESS on engine 1;
`verifyOk` is what the engine's own check finds, erratum A0-03 apart. -/
def execRle1Item (verifyOk : Bool) (s : State) : Outcome :=
  if !s.dom.main then .next s
  else
    let fin (t : State) : Outcome := .next ((t.count (rRleCnt 2) 1).pulse 24)
    match s.rle.snaps, s.rle.tiles, s.rle.comps.find? (fun c => c.eng == 1 && !c.fin) with
    | w :: rest, _, _ => fin (({ s with rle := { s.rle with snaps := rest } }).encodeSnap w verifyOk)
    | [], w :: rest, _ => fin (({ s with rle := { s.rle with tiles := rest } }).decodeTile w verifyOk)
    | [], [], some c =>
      let taken := min c.len (c.taken + 32768)
      let full := decide (c.len < (rleEncode (s.jsRead c.src taken)).length)
      let seg := [(c.src + c.taken, taken - c.taken)]
      if s.portWaits 3 seg then .next (s.portAsks 3 seg)
      else fin ((s.portServed 3).updComp c.pk (fun d => { d with taken := taken, fin := decide (taken = c.len) || full, ok := d.ok && verifyOk }))
    | [], [], none => .next s

/-- SNAPSHOT_WAIT_EXPIRY (R217): the oldest snapshot that waits is stored raw. One that engine 1 takes on this clock is in time (R342). -/
def execSnapshotWaitExpiry (s : State) : Outcome :=
  match s.rle.snaps with
  | [] => .next s
  | w :: rest =>
    if s.ties (fun c => match c with | .rle1Item _ => true | _ => false) then .next s
    else
    let t : State := { s with rle := { s.rle with snaps := rest } }
    .next ((t.noteWait w.since).snapRaw w.entry |>.raise srcSnapRaw)

/-- RLE_POOL_CLR (R216). -/
def execRlePoolClr (m : Master) (v : Word) (s : State) : Outcome :=
  s.regCmd m rRlePool fun t => if bitAt v.toNat 31 then t.setFld rRlePool 0 16 0 else t

/-! ### COMPRESS -/

/-- A length in whole blocks. -/
def blocks64 (n : Nat) : Nat := (n + 63) / 64 * 64

/-- The parameter checks of R218 and R251 on the ranges: the offset that fails. -/
def State.compressBad (s : State) (src dst len : Nat) : Option Nat :=
  if len = 0 then some 0x30
  else if dst % 64 ≠ 0 then some 0x28
  else if overlap src len dst (blocks64 len) then some 0x28
  else if s.jsSize ≤ src then some 0x20
  else if s.jsSize < src + len then some 0x30
  else if s.jsSize ≤ dst then some 0x28
  else if s.jsSize < dst + len then some 0x30
  else none

/-- The engine that a COMPRESS runs on (R215): engine 0 while the COMPRESS service holds claim 18. -/
def State.compressEngine (s : State) : Nat := if s.scnPort && s.ownedBy 18 0x42 then 0 else 1

/-- COMPRESS (R218): the checks, then the regions that the destination overlaps are removed and the encode is queued. -/
def execCompress (run : CompressRun) (s : State) : Outcome :=
  let pk := run.pk
  .next (s.decidePk pk ⟨0x94, fn01, modesRun, [anyField 0x20 8, anyField 0x28 8, anyField 0x30 4]⟩ fun t =>
    let src := pkU pk 0x20 8
    let dst := pkU pk 0x28 8
    let len := pkU pk 0x30 4
    match t.compressBad src dst len with
    | some o => t.complete pk (.badParam o)
    | none =>
      match t.notCovered src len with
      | some h => t.complete pk (notResident src h)
      | none =>
        match t.destRefused dst (blocks64 len) with
        | some r => t.complete pk r
        | none =>
          let t1 := (t.removeRegions dst (blocks64 len)).count (rRleCnt 6) 1
          let eng := t1.compressEngine
          { t1 with rle := { t1.rle with comps := t1.rle.comps ++ [⟨pk, eng, src, dst, len, 0, false, eng == 1 || run.agrees⟩] } })

/-- The content of a failed COMPRESS's destination is not defined (R218): free bytes (log entry 3), where it can still be written (log
entry 154). -/
def State.spoil (s : State) (c : Compress) : State :=
  let n := blocks64 c.len / 4
  if (s.destRefused c.dst (blocks64 c.len)).isSome then s else (s.storeWrite c.dst (s.freeBytes n)).tookFreeN n

/-- A COMPRESS on engine 0 is one encode of it (RLE_CNT[0], RLE_CNT[1]). -/
def State.countEncode (s : State) (c : Compress) (noGain : Bool) : State :=
  if c.eng = 1 then s
  else
    let t := s.count (rRleCnt 0) 1
    if noGain then t.count (rRleCnt 1) 1 else t

/-- A COMPRESS ends (R213, R218, R239). One that has stopped before the end of its input has had no gain (R214). -/
def State.compressEnd (s : State) (c : Compress) : State :=
  let t : State := { s with rle := { s.rle with comps := s.rle.comps.filter (fun d => !(d.pk == c.pk)) } }
  let part := if c.eng = 1 then c.taken else c.len
  let s0 := (t.portServed 3).readBlocks c.src part
  match s0.badBlock c.src part with
  | some b => (s0.memUncorr b).complete c.pk (notResident c.src (max b c.src))
  | none =>
    let code := rleEncode (s.jsRead c.src part)
    let n := code.length
    let a003 := c.eng == 1 && lastRun130 code
    let s1 := s0.countEncode c (decide (c.len ≤ n))
    if c.len ≤ n then ((s1.spoil c).count (rRleCnt 7) 1).complete c.pk (.plain 0x30 0 c.len)
    else if c.ok && !a003 then
      s1.residentReply c.pk c.dst (code ++ zeros (blocks64 n - n)) (.ok n)
    else
      let s2 := (s1.spoil c).complete c.pk (.plain 0x31 (if lastRun130 code then 2 ^ 24 else 0) n)
      if c.eng = 1 then s2.rle1Fail else s2

/-- COMPRESS_DONE (R218). Engine 0's reads come through port 3 as engine 1's do, and the writes with them (R242, R248). -/
def execCompressDone (s : State) : Outcome :=
  match s.rle.comps.find? (fun c => c.fin || c.eng == 0) with
  | none => .next s
  | some c =>
    if !s.dom.main then .next s
    else
      let rs := (if c.eng = 0 then [(c.src, c.len)] else []) ++ [(c.dst, blocks64 c.len)]
      if s.portWaits 3 rs then .next (s.portAsks 3 rs) else .next (s.compressEnd c)

end Sys2Proof.Machine
end

