-- ==== Sys2Proof/Machine/Ddr.lean ====
section
/-! DEFINITION. The DDR5 job store: bring-up (R234, R246, R247), scrub and symbol correction (R237–R241), refresh (R243, R244),
temperature (R249), alerts (R250), eye scans (R248) and MEM_STATUS (R252). -/

namespace Sys2Proof.Machine

/-! ### The training table and the DIMMs -/

/-- T_TRAIN of channel c, s8 (Table 11-5). -/
def State.tTrain (s : State) (c : Nat) : Int := getS s.ddr.train (0x42 + 64 * c) 1

/-- CH of MEM_STAT for a channel: 0 down, 1 scan only, 2 filling, 3 up. -/
def State.memCh (s : State) (c : Nat) : Nat := s.fld rMemStat (2 * c) 2

/-- Every channel has this state. -/
def State.memAll (s : State) (v : Nat) : Bool := [0, 1, 2, 3].all (fun c => s.memCh c == v)

/-- READY of MEM_STAT: the zero-fill is complete and no MEM_TEMP is active (R249). -/
def State.memShow (s : State) : State := s.setFlag rMemStat 31 (s.ddr.filled && !s.ddr.badTemp.any id)

/-- A DIMM is supported (R234). -/
def dimmOk (d : DimmFound) : Bool := d.present && d.ddr5Ok

/-- Two DIMMs have the same device width, density and rank count (R234). -/
def dimmLike (a b : DimmFound) : Bool := a.x8 == b.x8 && a.dens32 == b.dens32 && a.twoRank == b.twoRank

/-- GEOM of the table matches the DIMM (Table 11-5). -/
def State.geomOk (s : State) (d : DimmFound) : Bool :=
  let g := getU s.ddr.train 3 1
  bitAt g 0 == d.x8 && bitAt g 1 == d.dens32 && bitAt g 2 == d.twoRank

/-- R247's checks on channel c. -/
def State.trainOk (s : State) (c : Nat) (d : DimmFound) : Bool :=
  s.geomOk d && d.spdCrc == getU s.ddr.train (0x40 + 64 * c) 2 && d.testOk

/-- MEM_TRAIN is raised for every channel at fault, in ascending order (log entry 55). -/
def State.memTrain (s : State) (bad : List Nat) : State := s.onOneClock (fun u => bad.foldl (fun t c => t.raise (srcMem 3 c)) u)

/-- No DIMM was found. -/
def dimmNone : DimmFound := ⟨false, false, false, false, false, 0, false⟩

/-- DDR5_BRING_UP (R234, R247): once the training table has been taken over and no channel runs. -/
def execDdr5BringUp (found : List DimmFound) (s : State) : Outcome :=
  if !s.dom.main ∨ !s.dom.cfgDone ∨ s.ddr.train.isEmpty ∨ !s.memAll 0 then .next s
  else
    let d (c : Nat) : DimmFound := found.getD c dimmNone
    let chans := [0, 1, 2, 3]
    let unfit := chans.filter (fun c => !dimmOk (d c) || (dimmOk (d 0) && !dimmLike (d c) (d 0)))
    if !unfit.isEmpty then .next (s.memTrain unfit)
    else
      let bad := chans.filter (fun c => !s.trainOk c (d c))
      if bad.isEmpty then .next (chans.foldl (fun t c => t.setFld rMemStat (2 * c) 2 2) s)
      else .next ((chans.foldl (fun t c => if s.geomOk (d c) then t.setFld rMemStat (2 * c) 2 1 else t) s).memTrain bad)

/-- ZERO_FILL_DONE (R36): every byte is 0, and the scrub starts (R240). -/
def execZeroFillDone (s : State) : Outcome :=
  if !s.dom.main ∨ !s.memAll 2 then .next s
  else
    let t : State := { s with mem := [], ddr := { s.ddr with bad := [], errs := [], filled := true, scrub := 0 } }
    .next ([0, 1, 2, 3].foldl (fun t c => t.setFld rMemStat (2 * c) 2 3) t).memShow

/-! ### Scrub -/

/-- The scrub moves on, and wraps at S (R240). -/
def State.scrubNext (s : State) : State :=
  let a := s.ddr.scrub + 64
  if a < s.jsSize then { s with ddr := { s.ddr with scrub := a } }
  else ({ s with ddr := { s.ddr with scrub := 0, passes := (s.ddr.passes + 1) % 2 ^ 32 } }).count (rMemCnt 7) 1

/-- An uncorrectable block's unpinned region leaves the residency table (R240). -/
def State.scrubDrop (s : State) (blk : Nat) : State :=
  { s with lay := { s.lay with regions := s.lay.regions.filter (fun r => !overlap r.base r.len blk 64 || s.pinnedRegion r) } }

/-- SCRUB_READ (R240): `errs` are the errors that have come up in the DRAM since the last read, `overwritten` says that another
port wrote the block before the write-back. -/
def execScrubRead (errs : List (Nat × Nat)) (overwritten : Bool) (s : State) : Outcome :=
  let blk := s.ddr.scrub
  if !s.dom.main ∨ !s.ddr.filled then .next s
  else if s.portWaits 6 [(blk, 64)] then .next (s.portAsks 6 [(blk, 64)])
  else
    let s0 := (s.newErrs errs).portServed 6
    let fixed := ((s0.errBeats blk).map s0.beatDecode).any (fun o => match o with | .good _ (some _) => true | _ => false)
    let t := s0.readBlocks blk 64
    if t.ddr.bad.contains blk then .next ((t.memUncorr blk).scrubDrop blk).scrubNext
    else if fixed && !overwritten then .next ((s0.rewriteOver t blk).count (rMemCnt 2) 1).scrubNext
    else .next t.scrubNext

/-! ### Refresh, temperature, alerts -/

/-- REFab owed to a rank. -/
def State.owed (s : State) (c k : Nat) : Nat := storeGet posDefault s.ddr.owed (2 * c + k)

/-- A real-time port is at its threshold (R244), by the age in ns of its oldest request. -/
def State.portUrgent (s : State) (p age : Nat) : Bool := decide (s.fld (rMemQos p) 0 8 ≤ s.urgency p age)

/-- REFRESH_DUE (R243, R244): `ages` are the ages in ns of the oldest requests of ports 0 and 1, none where a port has none. While
one of them is at its threshold the REFab is postponed; otherwise the rank gets this REFab and those it is owed. -/
def execRefreshDue (c : Fin 4) (rank : Fin 2) (ages : Option Nat × Option Nat) (s : State) : Outcome :=
  if !s.dom.main ∨ s.memCh c.val = 0 ∨ (rank.val = 1 ∧ !s.flag rMemCfg 5) then .next s
  else
    let k := 2 * c.val + rank.val
    let n := s.owed c.val rank.val
    let urgent := ages.1.any (s.portUrgent 0) || ages.2.any (s.portUrgent 1)
    let set (t : State) (v : Nat) : State := { t with ddr := { t.ddr with owed := storePut posDefault t.ddr.owed k v } }
    if !urgent then .next ((set s 0).emit (.refresh c.val rank.val (n + 1)))
    else if n < 2 then .next ((set s (n + 1)).count (rMemCnt 3) 1)
    else .next (((set s 0).emit (.refresh c.val rank.val 3)).count (rMemCnt 4) 1)

/-- A level condition stands, or not (R330). -/
def State.levelIs (s : State) (src : Nat) (on : Bool) : State :=
  if on then s.onsetOr src (fun t => t.raise src) else s.condEnd src

/-- MEM_TEMP stands on a channel, or not (R249): the firing stripe ends with a hole of reason FAULT, and uploads are refused until
the temperature has been within 12 °C for 1 s. -/
def State.memTemp (s : State) (c : Nat) (on : Bool) : State :=
  if on then
    let t : State := { s with ddr := { s.ddr with badTemp := s.ddr.badTemp.set c true, tempOk := s.ddr.tempOk.set c none } }
    (t.onsetOr (srcMem 5 c) (fun u => u.raiseBlank (srcMem 5 c) 0x0B u.lowestUnfired)).memShow
  else
    let since := ((s.ddr.tempOk.getD c none).getD s.tim.elapsed)
    let ok := decide (t16ms * 1000 ≤ s.tim.elapsed - since)
    let t : State := { s with ddr := { s.ddr with
      tempOk := s.ddr.tempOk.set c (some since), badTemp := if ok then s.ddr.badTemp.set c false else s.ddr.badTemp } }
    (t.condEnd (srcMem 5 c)).memShow

/-- The halved tREFI of a channel (R243), as MEM_STAT shows it. -/
def State.setX2 (s : State) (c : Nat) (b : Bool) : State :=
  ({ s with ddr := { s.ddr with x2 := s.ddr.x2.set c b } }).setFlag rMemStat (8 + c) b

/-- DIMM_TEMP_READ (R249): a reading in °C, or none. -/
def execDimmTempRead (c : Fin 4) (temp : Option Int) (s : State) : Outcome :=
  let k := c.val
  if !s.dom.main ∨ !s.dom.cfgDone then .next s
  else
    match temp with
    | some v =>
      let s0 : State := { s with ddr := { s.ddr with unread := s.ddr.unread.set k none } }
      let s1 := (s0.setFld (rMemTemp k) 0 8 (unsigned 8 v)).setFlag (rMemTemp k) 31 true
      let s2 := if 85 < v then s1.setX2 k true else if v ≤ 83 then s1.setX2 k false else s1
      let d := (v - s.tTrain k).natAbs
      .next ((((s2.levelIs (srcMem 4 k) (decide (10 < d))).memTemp k (decide (12 < d))).levelIs (srcMem 6 k) (decide (95 < v))))
    | none =>
      let since := (s.ddr.unread.getD k none).getD s.tim.elapsed
      let s0 : State := { s with ddr := { s.ddr with unread := s.ddr.unread.set k (some since) } }
      let s1 := (s0.setFlag (rMemTemp k) 31 false).setX2 k true
      if t16ms * 10 ≤ s.tim.elapsed - since then .next (s1.memTemp k true) else .next s1

/-- ALERT_N (R250). How long a replay takes the spec does not say: whether a later alert still meets it is a free value (log
entry 56). -/
def execAlertN (c : Fin 4) (s : State) : Outcome :=
  let k := c.val
  if !s.dom.main ∨ s.memCh k = 0 then .next s
  else
    let again := s.ddr.replay.getD k false
    let inReplay := again && s.freeVal % 2 == 1
    let s1 : State := { (if again then s.tookFree else s) with ddr := { s.ddr with replay := s.ddr.replay.set k true } }
    let s2 := s1.count (rMemCnt 5) 1
    .next (s2.raiseFull { Raise.of (srcMem 7 k) with least := if inReplay then 3 else 0 } none (chkFault (srcMem 7 k)))

/-! ### MEM_STATUS and eye scans -/

/-- The 96 bytes of MEM_STATUS (R252). -/
def State.memStatus (s : State) : List Byte :=
  let per (f : Nat → List Byte) : List Byte := ([0, 1, 2, 3].map f).flatten
  per (fun c => leBytes 4 (s.ddr.corr.getD c 0)) ++ per (fun c => leBytes 4 (s.ddr.uncorr.getD c 0)) ++
  leBytes 8 s.ddr.scrub ++ leBytes 4 s.ddr.passes ++ per (fun c => leBytes 1 (s.fld (rMemTemp c) 0 8)) ++
  per (fun c => leBytes 1 (s.fld (rMemTemp c) 8 8)) ++
  ((List.range 8).map (fun n => leBytes 4 (s.rd (rMemDevfail n)))).flatten ++ zeros 12

/-- MEM_STATUS (R252). -/
def execMemStatus (pk : Packet) (s : State) : Outcome :=
  .next (s.decidePk pk ⟨0xA1, fnAll, modesAny, []⟩ fun t => t.complete pk ⟨0, 0, 0, t.memStatus, 1, false⟩)

/-- LANE of EYE_SCAN (R248). -/
def State.laneOk (s : State) (v : Nat) : Bool := decide (v % 64 < 40) && (!bitAt v 7 || s.flag rMemCfg 5)

/-- EYE_SCAN (R248, R251). -/
def execEyeScan (pk : Packet) (s : State) : Outcome :=
  .next (s.decidePk pk ⟨0xA0, [.h1, .h2], [1], [⟨0x20, 1, fun v => decide (v < 4)⟩, ⟨0x21, 1, s.laneOk⟩,
      ⟨0x28, 8, fun v => v == 0 || (v % 64 == 0 && decide (v + 2112 ≤ s.jsSize))⟩]⟩ fun t =>
    let a := pkU pk 0x28 8
    let go : State := { t with ddr := { t.ddr with eye := t.ddr.eye ++ [⟨pk, pkU pk 0x20 1, pkU pk 0x21 1, a⟩] } }
    if a = 0 then go
    else if !t.memReady then t.complete pk (.refuse 0x11 5 0 0)
    else
      match t.destRefused a 2112 with
      | some r => t.complete pk r
      | none => go)

/-- Bytes of the pass map (R248): bit k is bit k mod 8 of byte k / 8, then zeros. -/
def eyeMap (ps : List Bool) : List Byte :=
  (List.range 2064).map (fun b => BitVec.ofNat 8 (sumN ((List.range 8).map (fun i => if ps.getD (8 * b + i) false then 2 ^ i else 0)))) ++
  zeros 48

/-- The lowest and the highest of a list. -/
def spanOf (l : List Nat) : Option (Nat × Nat) :=
  match l with
  | [] => none
  | a :: t => some (t.foldl min a, t.foldl max a)

/-- The passing delay offsets (d, 0–128) and Vref steps of a plane that begins at bit `o`. -/
def eyeSpans (ps : List Bool) (o : Nat) : Option (Nat × Nat) × Option (Nat × Nat) :=
  let hit (d v : Nat) : Bool := ps.getD (o + 64 * d + v) false
  (spanOf ((List.range 129).filter (fun d => (List.range 64).any (fun v => hit d v))),
   spanOf ((List.range 64).filter (fun v => (List.range 129).any (fun d => hit d v))))

/-- The 32-byte summary (R248) in the order of its list; where nothing passes, and in the bytes that the list leaves, the bytes are
free (log entry 57). -/
def State.eyeSummary (s : State) (e : EyeJob) (ps : List Bool) : List Byte :=
  let rec_ := 0x140 + 256 * (4 * e.chan + 2 * bits e.lane 7 1 + bits e.lane 6 1)
  let dq := e.lane % 64
  let fb := s.freeBytes 8
  let delay (r : Option (Nat × Nat)) (o : Nat) : List Byte := match r with
    | some (a, b) => leBytesS 2 ((a : Int) - 64) ++ leBytesS 2 ((b : Int) - 64)
    | none => slice fb o 4
  let vref (r : Option (Nat × Nat)) (o : Nat) : List Byte := match r with
    | some (a, b) => leBytes 1 a ++ leBytes 1 b
    | none => slice fb o 2
  let rd := eyeSpans ps 0
  let wr := eyeSpans ps 8256
  delay rd.1 0 ++ delay wr.1 4 ++ vref rd.2 8 ++ vref wr.2 10 ++
    slice s.ddr.train (rec_ + 2 * dq) 2 ++ slice s.ddr.train (rec_ + 80 + 2 * dq) 2 ++ slice s.ddr.train (rec_ + 200) 2 ++ slice fb 12 14

/-- EYE_SCAN_DONE (R248). -/
def execEyeScanDone (res : EyeResult) (s : State) : Outcome :=
  match s.ddr.eye with
  | [] => .next s
  | e :: rest =>
    let s1 : State := { s with ddr := { s.ddr with eye := rest } }
    let ok : Reply := ⟨0, 0, 0, s.eyeSummary e res.passes, 1, false⟩
    if e.addr = 0 then .next ((s1.complete e.pk ok).tookFreeN 8)
    else .next ((s1.residentReply e.pk e.addr (eyeMap res.passes) ok).tookFreeN 8)

end Sys2Proof.Machine
end

