-- ==== Sys2Proof/Machine/Motion.lean ====
section
/-! DEFINITION. The motion axes (13): configuration and timers, moves, microsteps, homing, stops and load feedback. -/

namespace Sys2Proof.Machine

/-! ### Configuration (R283, R284) -/

/-- Word `i` of a profile block. -/
def profileWord (b : List Byte) (i : Nat) : Nat := getU b (4 * i) 4

/-- Word `i` of a profile block breaks a rule (R283, R286, R289, R291, R297); a word at an undefined offset must be 0. -/
def profileWordBad (b : List Byte) (i : Nat) : Bool :=
  let vstart := bits (profileWord b 1) 0 24
  let vmax := bits (profileWord b 2) 0 24
  let acc := bits (profileWord b 3) 0 31
  let jerk := bits (profileWord b 5) 0 31
  let cur := profileWord b 6
  let vhome := bits (profileWord b 8) 0 24
  match i with
  | 0 | 7 | 9 => false
  | 1 => decide (vstart < 15) || decide (1000000 < vstart)
  | 2 => decide (vmax < vstart) || decide (1000000 < vmax)
  | 3 => acc == 0 || (bitAt (profileWord b 0) 29 && jerk != 0 && acc % jerk != 0)
  | 4 => bits (profileWord b 4) 0 31 == 0
  | 5 => jerk == 0
  | 6 => decide (bits cur 16 8 < bits cur 8 8)
  | 8 => decide (vhome < vstart) || decide (vmax < vhome)
  | k => profileWord b k != 0

/-- The offset in a profile block of its first bad field (R283). -/
def profileBad (b : List Byte) : Option Nat := ((List.range 16).find? (profileWordBad b)).map (4 * ·)

/-- AXIS_CONFIG's parameters (R59): AXIS, and the words of the profile block, each judged in its place (R57). -/
def fAxisConfig (pk : Packet) : List PField :=
  let b := slice pk.bytes 0x28 64
  [⟨0x20, 1, fun v => decide (v < 8)⟩, anyField 0x28 64] ++
    (List.range 16).map (fun i => ⟨0x28 + 4 * i, 4, fun _ => !profileWordBad b i⟩)

/-- The lowest free timer of GTIM0–GTIM14, as a resource (Table 2-7). -/
def State.freeTimer (s : State) : Option Nat := ((List.range 15).map (· + 2)).find? (fun r => !s.clmHeld r)

/-- The timer that an owner holds, as a resource: the lowest one. -/
def State.timerOf (s : State) (owner : Nat) : Option Nat := ((List.range 15).map (· + 2)).find? (fun r => s.ownedBy r owner)

/-- MOT_TIM (R284): the timers that the axis holds, as CLM_ENTRY shows them. -/
def State.viewMotTim (s : State) (a : Nat) : Nat :=
  let half (owner : Nat) : Nat := match s.timerOf owner with
    | some r => 128 + (r - 2)
    | none => 0
  half (0x10 + a) * 2 ^ 24 + half (0x18 + a) * 2 ^ 16

/-- The owner has a timer, claimed now if it had none; none when no timer is free. -/
def State.takeTimer (s : State) (master owner : Nat) : Option State :=
  match s.timerOf owner with
  | some _ => some s
  | none => (s.freeTimer).map (fun r => s.grant master owner r)

/-- A master gives the owner's timer up, unless the claim is pinned: one that another master claimed it cannot release (R38). -/
def State.dropTimer (s : State) (master owner : Nat) : State :=
  match s.timerOf owner with
  | none => s
  | some r => if s.clmPinned r then s else (s.release master owner r).2

/-- The claims that a configuration needs (R284): none when a claim fails, and then neither is kept. -/
def State.axisClaims (s : State) (master a : Nat) (en interp : Bool) : Option State :=
  if !en then some ((s.dropTimer master (0x10 + a)).dropTimer master (0x18 + a))
  else
    match s.takeTimer master (0x10 + a) with
    | none => none
    | some t => if interp then t.takeTimer master (0x18 + a) else some (t.dropTimer master (0x18 + a))

/-- The owner whose claim of a timer fails where a configuration of the axis does: the step timer's comes first (R284). -/
def State.wantingOwner (s : State) (a : Nat) : Nat :=
  if (s.timerOf (0x10 + a)).isNone && s.freeTimer.isNone then 0x10 + a else 0x18 + a

/-- The bits of a register that a plain write sets. -/
def rwBits (off : Nat) : Nat := match regAt off with
  | some r => r.rw
  | none => 0

/-- With LFB_EN clear the boost level is 0 (R292). -/
def State.noBoost (s : State) (a : Nat) : State := if s.flag (rMotCfg a) 28 then s else s.setFld (rMotStat a) 16 5 0

/-- The profile block reaches the registers at 0x00–0x24 of the axis. -/
def State.writeProfile (s : State) (a : Nat) (b : List Byte) : State :=
  ((List.range 10).foldl (fun t i => t.wr (rMotCfg a + 4 * i) (profileWord b i &&& rwBits (rMotCfg a + 4 * i))) s).noBoost a

/-- An axis is configured (R283, R284); none when a claim fails. -/
def State.axisConfig (s : State) (master a : Nat) (b : List Byte) : Option State :=
  (s.axisClaims master a (bitAt (profileWord b 0) 31) (bitAt (profileWord b 0) 30)).map (fun t => t.writeProfile a b)

/-- A claim of a timer is refused because none is free: which of the held timers CLM_LAST names is a free value (log entry 3). -/
def State.timerRefused (s : State) (master owner : Nat) : State :=
  (s.refusedClaim master owner (2 + s.freeVal % 15)).tookFree

/-- A command's claim on a timer fails because none is free; the reply names the same one. -/
def State.timerConflict (s : State) (pk : Packet) (owner : Nat) : State :=
  let t := s.timerRefused 2 owner
  t.complete pk (t.claimReply (2 + s.freeVal % 15) 1)

/-- BAD_PARAM, where the rule names no DETAIL: DETAIL is a free value (log entry 3). -/
def State.badFree (s : State) (pk : Packet) : State := (s.complete pk (.plain 2 s.freeVal 0)).tookFree

/-- BAD_PARAM because the axis is not at rest (R297). -/
def State.badMoving (s : State) (pk : Packet) : State := s.complete pk (.plain 2 (5 * 2 ^ 24) 0)

/-- AXIS_CONFIG (R283). -/
def execAxisConfig (pk : Packet) (s : State) : Outcome :=
  .next (s.decidePk pk ⟨0x50, fn01, [1], fAxisConfig pk⟩ fun t =>
    let a := pkU pk 0x20 1
    if !t.atRest a then t.badMoving pk
    else
      match t.axisConfig 2 a (slice pk.bytes 0x28 64) with
      | some u => u.complete pk (.ok 0)
      | none => t.timerConflict pk (t.wantingOwner a))

/-- A write of MOT_CFG by the movement (R284): EN and INTERP claim and release the axis's timers; where a claim fails, the register
stays as it is (log entry 137). -/
def State.writeMotCfg (s : State) (load : Bool) (master a v : Nat) : State :=
  match s.axisClaims master a (bitAt v 31) (bitAt v 30) with
  | some t => (t.writeByType load (rMotCfg a) v).noBoost a
  | none => s.timerRefused master (s.wantingOwner a)

/-! ### Currents (R291) -/

/-- EN of an axis. -/
def State.axisEn (s : State) (a : Nat) : Bool := s.flag (rMotCfg a) 31
/-- The duty code that IREF shows (R291): IHOLD once HOLDDLY has passed at rest, as MOT_CUR has it now. -/
def State.axisCode (s : State) (a : Nat) : Nat :=
  if s.atRest a && (s.axis a).held then s.fld (rMotCur a) 24 8 else (s.axis a).code

/-- HOLDDLY_EXPIRY (R291). -/
def execHolddlyExpiry (a : Fin 8) (s : State) : Outcome :=
  if !s.dom.main ∨ !s.atRest a.val then .next s
  else .next (s.updAxis a.val (fun y => { y with held := true }))

/-! ### Starting -/

/-- VMAX². -/
def State.vm2 (s : State) (a : Nat) : Nat := s.fld (rMotVmax a) 0 24 * s.fld (rMotVmax a) 0 24
/-- VHOME². -/
def State.vh2 (s : State) (a : Nat) : Nat := s.fld (rMotHomev a) 0 24 * s.fld (rMotHomev a) 0 24

/-- LIM_P or LIM_N is active in a direction. -/
def State.limitIn (s : State) (a : Nat) (pos : Bool) : Bool := s.flag (rMotStat a) (if pos then 25 else 24)

/-- The axis's rail is not good (R285). -/
def State.axisRailLow (s : State) (a : Nat) : Bool :=
  match s.axisRail a with
  | some n => !s.railPg n
  | none => false

/-- The lag counts anew from the start of a leg of motion (R292; log entry 138). -/
def State.freshLag (s : State) (a : Nat) : State :=
  (s.setFld (rMotStat a) 8 8 0).updAxis a (fun y => { y with lagN := 0, stallN := 0 })

/-- A leg of motion begins (R286, R287): `frac` is 0, and the first microstep is issued at VSTART². -/
def State.startLeg (s : State) (a : Nat) (r : AxisRun) (pos : Bool) (st : Nat) : State :=
  let v := s.vs2 a
  let t := ((s.freshLag a).setAxisState a st).wr (rMotIvl a) (interval v)
  t.updAxis a (fun y => { y with run := r, dir := pos, v2 := v, frac := 0, table := [], moved := 0, left := 0, tc := none,
                                 edge := false, held := false })

/-- The distance kept by an earlier stop request is forgotten (R294). -/
def State.clearStopped (s : State) (a : Nat) : State := (s.setFlag (rMotStat a) 28 false).wr (rMotRemain a) 0

/-- A move of `d` microsteps begins with the axis's profile; `pk` waits for it. -/
def State.startMove (s : State) (pk : Packet) (a : Nat) (d : Int) (target : Int) : State :=
  let n := d.natAbs
  let r : AxisRun := if s.flag (rMotCfg a) 29 then .jerk n true false false 0 false else .trap n false
  let t := (((s.clearStopped a).wr (rMotTarget a) (unsigned 32 target)).startLeg a r (decide (0 < d)) 1).updAxis a
    (fun y => { y with pk := some pk })
  t.moveCode a false

/-- What every start of motion needs: the axis enabled (log entry 61), at rest, and its rail good (R285, R297). -/
def State.axisReady (s : State) (pk : Packet) (a : Nat) (f : State → State) : State :=
  if !s.axisEn a then s.badFree pk
  else if !s.atRest a then s.badMoving pk
  else if s.axisRailLow a then s.complete pk (.plain 0x50 0 0)
  else f s

/-- Both coarse-step pads of the axis have their functions (R290). -/
def State.padsAssigned (s : State) (a : Nat) : Bool :=
  s.fld (rPadGpioCfg (16 + a)) 28 4 == 3 && s.fld (rPadGpioCfg (24 + a)) 28 4 == 4

/-- AXIS_MOVE to a target at distance `d` (R287–R289, R296). -/
def State.moveBy (s : State) (pk : Packet) (a : Nat) (d target : Int) : State :=
  if d = 0 then
    let t := ((s.clearStopped a).wr (rMotTarget a) (unsigned 32 target)).count (rMotCnt 0) 1
    t.complete pk (.ok (t.rd (rMotPos a)))
  else if s.limitIn a (decide (0 < d)) then s.badFree pk
  else s.startMove pk a d target

/-- AXIS_MOVE, once its parameters stand, to an axis that can start. -/
def State.axisMove (s : State) (pk : Packet) : State :=
  let a := pkU pk 0x20 1
  let target := pkS pk 0x24 4
  match pkU pk 0x28 1 with
  | 0 => s.moveBy pk a (target - s.axisPos a) target
  | 1 => s.moveBy pk a target (s.axisPos a + target)
  | 2 =>
    let t := ((s.clearStopped a).wr (rMotPos a) (unsigned 32 target)).setFlag (rMotStat a) 27 false
    t.complete pk (.ok (t.rd (rMotPos a)))
  | _ =>
    if !s.flag (rMotCfg a) 30 ∨ !s.padsAssigned a then s.badFree pk
    else
      (((s.clearStopped a).startLeg a (.interp [] 0 false) (s.axis a).dir 6).updAxis a (fun y => { y with pk := some pk })).moveCode a false

/-- AXIS_MOVE (R287, R290, R297). -/
def execAxisMove (pk : Packet) (s : State) : Outcome :=
  .next (s.decidePk pk ⟨0x51, fn01, modesRun, fAxisMove⟩ fun t => t.axisReady pk (pkU pk 0x20 1) (fun u => u.axisMove pk))

/-- AXIS_STOP, once its parameters stand (R293): the reply comes at rest. -/
def State.axisStop (s : State) (pk : Packet) : State :=
  let a := pkU pk 0x20 1
  if s.atRest a then s.complete pk (.ok (s.rd (rMotRemain a)))
  else ((s.updAxis a (fun y => { y with stopPk := y.stopPk ++ [pk] })).stopRequest a).homeFailsOut

/-- AXIS_STOP (R293). -/
def execAxisStop (pk : Packet) (s : State) : Outcome :=
  .next (s.decidePk pk ⟨0x52, fnAll, modesAny, fByte 8⟩ fun t => t.axisStop pk)

/-- AXIS_RESUME (R294): toward the original target for the distance kept. -/
def execAxisResume (pk : Packet) (s : State) : Outcome :=
  .next (s.decidePk pk ⟨0x53, fn01, modesRun, fByte 8⟩ fun t =>
    let a := pkU pk 0x20 1
    t.axisReady pk a fun u =>
      let d := signed 32 (u.rd (rMotRemain a))
      if !u.flag (rMotStat a) 28 then u.badFree pk
      else if u.limitIn a (decide (0 < d)) then u.badFree pk
      else u.startMove pk a d (signed 32 (u.rd (rMotTarget a))))

/-- AXIS_STATUS (13): eight words. -/
def State.axisStatus (s : State) (a : Nat) : List Byte :=
  ([s.rd (rMotStat a), s.rd (rMotPos a), s.rd (rMotTarget a), s.rd (rMotRemain a), s.rd (rMotIvl a), s.viewMotTim a,
    s.rd (rMotIndex a), s.rd (rMotCur a)].map (leBytes 4)).flatten

/-- AXIS_STATUS (R59). -/
def execAxisStatus (pk : Packet) (s : State) : Outcome :=
  .next (s.decidePk pk ⟨0x55, fnAll, modesAny, fByte 8⟩ fun t =>
    t.complete pk ⟨0, 0, 0, t.axisStatus (pkU pk 0x20 1), 1, false⟩)

/-! ### Homing (R297) -/

/-- BACKOFF; 0 is taken as 1. -/
def State.backoff (s : State) (a : Nat) : Nat := max 1 (s.fld (rMotBackoff a) 0 16)

/-- A limit that is active already in the direction in which the axis now moves (R295): a fault stop with MOT_LIMIT (log entry
139). -/
def State.intoLimit (s : State) (a : Nat) (pos : Bool) : State :=
  if s.limitIn a pos then (s.faultStop a (some (if pos then 25 else 24))).raise (srcMot 1 a) else s

/-- In homing by hard stop the boost level is held at 0 (R291). -/
def State.holdLevel (s : State) (a : Nat) (hard : Bool) : State := if hard then s.setFld (rMotStat a) 16 5 0 else s

/-- Homing succeeds: the position is set, and the command replies with the index offset. -/
def State.homed (s : State) (a : Nat) (pos : Int) (index : Nat) : State :=
  let t := ((s.setFlag (rMotStat a) 26 true).setFlag (rMotStat a) 27 false).wr (rMotPos a) (unsigned 32 pos)
  let pk := (t.axis a).pk
  let u := (t.updAxis a (fun y => { y with pk := none })).axisRests a 0
  match pk with
  | some p => u.complete p (.ok index)
  | none => u

/-- The back-off leg begins, toward positive positions at VSTART; into an active limit it does not go. Where HOME has become inactive while the
axis braked, the back-off is over as it begins, and the edge is where it was (log entry 192). -/
def State.backOff (s : State) (a method : Nat) : State :=
  if method < 2 ∧ !s.flag (rMotStat a) 23 then
    if method = 0 then s.homed a (s.axisPos a - (s.axis a).home) 0
    else ((s.startLeg a (.homeIndex 0) true 5).moveCode a false).intoLimit a true
  else (((s.startLeg a (.homeBack method (s.backoff a) 0) true 5).holdLevel a (method == 2)).moveCode a (method == 2)).intoLimit a true

/-- Homing has found HOME: the axis stops by request (R293), and then backs off. -/
def State.homeFound (s : State) (a method : Nat) : State :=
  let b := s.stopDist a
  if b = 0 then s.backOff a method
  else s.updAxis a (fun y => { y with run := .homeBrake method b, table := y.table.drop 1 })

/-- Homing ends without a home (R297): a fault stop, and MOT_HOMEFAIL. `bit` is the MOT_STAT bit of the cause, if it has one. -/
def State.homeFails (s : State) (a : Nat) (bit : Option Nat) : State := (s.faultStop a bit).homeFailsOut

/-- AXIS_HOME (R297). HOME that is active already ends the run at once. -/
def execAxisHome (pk : Packet) (s : State) : Outcome :=
  .next (s.decidePk pk ⟨0x54, fn01, modesRun, [⟨0x20, 1, fun v => decide (v < 8)⟩, ⟨0x21, 1, fun v => decide (v < 3)⟩]⟩ fun t =>
    let a := pkU pk 0x20 1
    let m := pkU pk 0x21 1
    t.axisReady pk a fun u =>
      if u.limitIn a false then u.badFree pk
      else
        let v := ((((u.clearStopped a).startLeg a (.homeSeek m 0 true 0 false) false 5).updAxis a
          (fun y => { y with pk := some pk })).holdLevel a (m == 2)).moveCode a (m == 2)
        if m < 2 ∧ v.flag (rMotStat a) 23 then v.homeFound a m else v)

/-- HOME_EDGE (R297): the switch as filtered, after HOMEPOL. -/
def execHomeEdge (a : Fin 8) (active : Bool) (s : State) : Outcome :=
  if !s.dom.main then .next s
  else
    let k := a.val
    let t := s.setFlag (rMotStat k) 23 active
    match (t.axis k).run, active with
    | .homeBrake _ _, false => .next (t.updAxis k (fun y => { y with home := t.axisPos k }))
    | .homeSeek m _ _ _ _, true => .next (if m < 2 then t.homeFound k m else t)
    | .homeBack m _ _, false =>
      if m = 0 then .next (t.homed k 0 0)
      else if m = 1 then .next (t.updAxis k (fun y => { y with run := .homeIndex 0, home := t.axisPos k }))
      else .next t
    | _, _ => .next t

/-! ### Load feedback (R292) -/

/-- STALL (R292): the fault stop and MOT_STALL, with MOT_HOMEFAIL where the axis was homing. In hard-stop homing it ends the homing
step: the run, with 0 at the stalled position, or the back-off, with the position that the axis has come to (log entry 140). -/
def State.stall (s : State) (a : Nat) : State :=
  let t := (s.setW1c (rMotStat a) 22).count (rMotCnt 2) 1
  match (s.axis a).run with
  | .homeSeek 2 _ _ _ _ => (t.wr (rMotPos a) 0).backOff a 2
  | .homeBack 2 _ _ => t.homed a (t.axisPos a) 0
  | _ => (t.faultStop a (some 22)).raise (srcMot 0 a)

/-- A full-step boundary is issued (R292): n follows the lag as it stands before this boundary counts (log entry 60); in hard-stop
homing n is held at 0, and STALL needs the lag alone (log entry 58). -/
def State.fullStep (s : State) (a : Nat) : State :=
  if !s.flag (rMotCfg a) 28 then s
  else
    let x := s.axis a
    let hard := x.run.hardStop
    let behind := decide (s.fld (rMotLoad a) 24 8 < x.lagN)
    let n := s.axisLevel a
    let n' := if hard then 0 else if behind then min (n + 1) 16 else if x.lagN = 0 then n - 1 else n
    let bad := behind && (hard || n' == 16)
    let k := if bad then x.stallN + 1 else 0
    let t := (s.setFld (rMotStat a) 16 5 n').setFld (rMotStat a) 8 8 (min 255 (x.lagN + 1))
    let u := (t.updAxis a (fun y => { y with lagN := y.lagN + 1, stallN := k })).moveCode a hard
    if bad ∧ max 1 (s.fld (rMotLoad a) 16 8) ≤ k then u.stall a else u

/-- LOADFB_PULSE (R292). -/
def execLoadfbPulse (a : Fin 8) (s : State) : Outcome :=
  let k := a.val
  let x := s.axis k
  if !s.dom.main ∨ !s.flag (rMotCfg k) 28 ∨ x.lagN = 0 then .next s
  else .next ((s.setFld (rMotStat k) 8 8 (min 255 (x.lagN - 1))).updAxis k (fun y => { y with lagN := y.lagN - 1 }))

/-! ### Limits (R295, R296) -/

/-- The direction of motion of an axis that moves. -/
def State.movingIn (s : State) (a : Nat) (pos : Bool) : Bool :=
  match (s.axis a).run with
  | .rest => false
  | .interp segs _ _ => (match segs with | p :: _ => p.1 == pos | [] => false)
  | _ => (s.axis a).dir == pos

/-- LIMIT_ACTIVE (R295, R296): a limit's filtered level after LIMPOL. -/
def execLimitActive (a : Fin 8) (positive active : Bool) (s : State) : Outcome :=
  if !s.dom.main then .next s
  else
    let k := a.val
    let b := if positive then 25 else 24
    let was := s.flag (rMotStat k) b
    let t := s.setFlag (rMotStat k) b active
    if !active ∨ was then .next t
    else
      let u := t.count (rMotCnt 1) 1
      if u.movingIn k positive then .next ((u.faultStop k (some b)).raise (srcMot 1 k))
      else .next (u.raise (srcMot 1 k))

/-! ### Microsteps -/

/-- The timer is reloaded for the interval of V2 (R286). -/
def State.reload (s : State) (a i : Nat) : State :=
  (s.wr (rMotIvl a) i).updAxis a (fun y => { y with frac := (y.frac + i % 256) % 256 })

/-- STEP rises: the position changes by one (R286). -/
def State.stepOut (s : State) (a : Nat) (pos : Bool) (v2 : Nat) : State :=
  let p := s.axisPos a + (if pos then 1 else -1)
  let t := (s.wr (rMotPos a) (unsigned 32 p)).emitPin (.step a (pos != s.flag (rMotCfg a) 27))
  let u := t.updAxis a (fun y => { y with last2 := v2, moved := y.moved + 1, dir := pos })
  if p % 256 = 0 then u.fullStep a else u

/-- A move's last microstep has been issued. -/
def State.moveEnds (s : State) (a : Nat) (stopping : Bool) : State :=
  let x := s.axis a
  let t := s.axisRests a x.left
  if stopping then t else t.count (rMotCnt 0) 1

/-- R287 after a microstep with `r` still to issue. -/
def State.trapNext (s : State) (a r : Nat) (stopping : Bool) : State :=
  let x := s.axis a
  let vs := s.vs2 a
  let vm := s.vm2 a
  let acc := s.fld (rMotAcc a) 0 31
  let dec := s.fld (rMotDec a) 0 31
  let b := brakeDist x.v2 vs dec
  let v := if r ≤ b then max (x.v2 - 2 * dec) vs else if x.v2 < vm then min (x.v2 + 2 * acc) vm else x.v2
  let st := if stopping then 4 else if r ≤ b then 3 else if x.v2 < vm then 1 else 2
  ((s.updAxis a (fun y => { y with run := .trap r stopping, v2 := v })).setAxisState a st).reload a (interval v)

/-- The acceleration term of R289 after a step at V2, and whether it falls. -/
def nextAlpha (v2 vm2 jerk acc alpha : Nat) : Nat × Bool :=
  let m := alpha / jerk
  if vm2 ≤ v2 + jerk * m * (m - 1) then (alpha - jerk, true)
  else if alpha < acc then (alpha + jerk, false)
  else (acc, false)

/-- R289 after a microstep with `r` still to issue: an acceleration step, cruise, or the recorded steps in reverse. -/
def State.jerkNext (s : State) (a r : Nat) (up down stopping : Bool) (alpha : Nat) (falling : Bool) : State :=
  let x := s.axis a
  let vm := s.vm2 a
  let acc := s.fld (rMotAcc a) 0 31
  let jerk := max 1 (s.fld (rMotJerk a) 0 31)
  let go := up && !down && decide (x.table.length < r)
  let (al, f) := if go then nextAlpha x.v2 vm jerk acc alpha else (alpha, falling)
  let v := if go then min (x.v2 + 2 * al) vm else x.v2
  let table := if go then v :: x.table else x.table
  let up' := go && !(al == 0 && f) && decide (v < vm) && decide (table.length < 4096)
  let dn := down || decide (r ≤ table.length)
  let v' := if dn then table.headD (s.vs2 a) else v
  let rest := if dn then table.drop 1 else table
  let st := if stopping then 4 else if dn then 3 else if up' then 1 else 2
  ((s.updAxis a (fun y => { y with run := .jerk r (up' && !dn) dn stopping al f, v2 := v', table := rest })).setAxisState a st).reload
    a (interval v')

/-- The interval of interpolation (R290). -/
def State.interpIvl (s : State) (a fast : Nat) : Nat :=
  let imin := interval (s.vm2 a)
  if 0 < fast then imin
  else
    match (s.axis a).tc with
    | none => interval (s.vs2 a)
    | some tc => max (256 * tc / (s.fld (rMotCfg a) 8 8 + 1)) imin

/-- The V2 that a fault stop compares for a microstep issued after an interval: above VSTART² when the interval is shorter than
that of VSTART (R295). -/
def State.interpV2 (s : State) (a i : Nat) : Nat := if i < interval (s.vs2 a) then s.vs2 a + 1 else s.vs2 a

/-- A microstep of interpolation. -/
def State.interpStep (s : State) (a : Nat) (segs : List (Bool × Nat)) (fast : Nat) (stopping : Bool) : State :=
  match segs with
  | [] => s
  | (dir, n) :: rest =>
    let segs' := if n ≤ 1 then rest else (dir, n - 1) :: rest
    let t := (s.updAxis a (fun y => { y with run := .interp segs' (fast - 1) stopping })).stepOut a dir
      (s.interpV2 a (s.rd (rMotIvl a)))
    if t.atRest a then t
    else if segs'.isEmpty ∧ stopping then t.axisRests a 0
    else
      let u := t.reload a (t.interpIvl a (fast - 1))
      match segs' with
      | (d, _) :: _ => if d = dir then u else u.intoLimit a d
      | [] => u

/-- The axis is in the back-off or the seek of homing, and 2^31 microsteps have gone by without the HOME edge (R297). -/
def tooFar (n : Nat) : Bool := decide (2 ^ 31 ≤ n)

/-- A microstep of the homing run (R297): up to VHOME by the axis's profile, and no more than 2^31 microsteps. -/
def State.seekStep (s : State) (a method n : Nat) (up : Bool) (alpha : Nat) (falling : Bool) : State :=
  let x := s.axis a
  let t := (s.updAxis a (fun y => { y with run := .homeSeek method (n + 1) up alpha falling })).stepOut a false x.v2
  match (t.axis a).run with
  | .homeSeek m k _ _ _ =>
    let vh := t.vh2 a
    let acc := t.fld (rMotAcc a) 0 31
    if tooFar k then t.homeFails a none
    else if t.jerky a then
      let (al, f) := if up then nextAlpha x.v2 vh (max 1 (t.fld (rMotJerk a) 0 31)) acc alpha else (alpha, falling)
      let v := if up then min (x.v2 + 2 * al) vh else x.v2
      let table := if up then v :: x.table else x.table
      let up' := up && !(al == 0 && f) && decide (v < vh) && decide (table.length < 4096)
      (t.updAxis a (fun y => { y with run := .homeSeek m k up' al f, v2 := v, table := table })).reload a (interval v)
    else
      let v := if x.v2 < vh then min (x.v2 + 2 * acc) vh else x.v2
      (t.updAxis a (fun y => { y with run := .homeSeek m k up alpha falling, v2 := v })).reload a (interval v)
  | _ => t

/-- A microstep of the stop at HOME with `r` still to issue: by DEC, or by the recorded steps (R293). -/
def State.brakeStep (s : State) (a : Nat) : State :=
  let x := s.axis a
  let v := if s.jerky a then x.table.headD (s.vs2 a) else max (x.v2 - 2 * s.fld (rMotDec a) 0 31) (s.vs2 a)
  (s.updAxis a (fun y => { y with v2 := v, table := y.table.drop 1 })).reload a (interval v)

/-- MICROSTEP (R286–R290, R297): the step timer of an axis in motion expires. -/
def execMicrostep (a : Fin 8) (s : State) : Outcome :=
  let k := a.val
  let x := s.axis k
  if !s.dom.main then .next s
  else
    match x.run with
    | .rest => .next s
    | .trap r stopping =>
      let t := (s.updAxis k (fun y => { y with run := .trap (r - 1) stopping })).stepOut k x.dir x.v2
      if t.atRest k then .next t
      else if r ≤ 1 then .next (t.moveEnds k stopping)
      else .next (t.trapNext k (r - 1) stopping)
    | .jerk r up down stopping al f =>
      let t := (s.updAxis k (fun y => { y with run := .jerk (r - 1) up down stopping al f })).stepOut k x.dir x.v2
      if t.atRest k then .next t
      else if r ≤ 1 then .next (t.moveEnds k stopping)
      else .next (t.jerkNext k (r - 1) up down stopping al f)
    | .interp segs fast stopping => .next (s.interpStep k segs fast stopping)
    | .homeSeek m n up al f => .next (s.seekStep k m n up al f)
    | .homeBrake m r =>
      let t := (s.updAxis k (fun y => { y with run := .homeBrake m (r - 1) })).stepOut k false x.v2
      if t.atRest k then .next t
      else if r ≤ 1 then .next (t.backOff k m)
      else .next (t.brakeStep k)
    | .homeBack m r n =>
      let t := (s.updAxis k (fun y => { y with run := .homeBack m (r - 1) (n + 1) })).stepOut k true x.v2
      if t.atRest k then .next t
      else if m = 2 ∧ r ≤ 1 then .next (t.homed k (t.axisPos k) 0)
      else if m < 2 ∧ tooFar (n + 1) then .next (t.homeFails k none)
      else .next (t.reload k (interval (t.vs2 k)))
    | .homeIndex n =>
      let t := (s.updAxis k (fun y => { y with run := .homeIndex (n + 1) })).stepOut k true x.v2
      if t.atRest k then .next t
      else if t.axisPos k % 1024 = 0 then
        let d := unsigned 32 (t.axisPos k - (t.axis k).home)
        .next ((t.wr (rMotIndex k) d).homed k 0 d)
      else .next (t.reload k (interval (t.vs2 k)))

/-- COARSE_STEP_EDGE (R290): XDIR as shown at the edge, and the ticks since the edge before it. -/
def execCoarseStepEdge (a : Fin 8) (forward : Bool) (ticks : Nat) (s : State) : Outcome :=
  let k := a.val
  let x := s.axis k
  if !s.dom.main then .next s
  else
    match x.run with
    | .interp segs _ false =>
      let n := s.fld (rMotCfg k) 8 8 + 1
      let due := sumN (segs.map (·.2))
      let tc := if x.edge && decide (ticks ≤ 2 ^ 24) then some ticks else none
      let segs' := match segs.reverse with
        | (d, m) :: r => if d = forward then (r.reverse ++ [(d, m + n)]) else segs ++ [(forward, n)]
        | [] => [(forward, n)]
      let t := s.updAxis k (fun y => { y with run := .interp segs' due false, tc := tc, edge := true })
      let u := if 0 < due then t.count (rMotCnt 3) 1 else t
      let w := u.wr (rMotIvl k) (u.interpIvl k due)
      .next (if segs.isEmpty then w.intoLimit k forward else w)
    | _ => .next s

end Sys2Proof.Machine
end

