-- ==== Sys2Proof/Machine/Resets.lean ====
section
/-! DEFINITION. The reset of the main domain (R18, R378–R381): what it discards, what it keeps, and the epochs it increments. -/

namespace Sys2Proof.Machine

/-- The bits of a register that a reset of the main domain keeps (R10, R272, Table 18-5). PAD_FILT keeps its fields of the main domain too: they
are RWL and read their image value throughout (R381); the load writes them again. -/
def keptBits (off : Nat) : Nat :=
  let b := off / 0x10000
  if b = 0 ∨ b = 2 ∨ b = 3 ∨ b = 4 then 0xFFFFFFFF
  else if off = rTimRtcTrim ∨ off = rBalWdog ∨ off = rBalCut then 0xFFFFFFFF
  else if (List.range 8).any (fun n => rMemDevfail n == off) then 0xFFFFFFFF
  else if (List.range 6).any (fun g => rClkPll g == off) then 0xFFFFFFFF
  else if off = rClkStat then 0x3F0000
  else if off = rPadFilt then 0xFFFFFFFF
  else 0

/-- The registers after a reset of the main domain. -/
def keptRegs (l : List (Nat × Word)) : List (Nat × Word) :=
  l.foldl (fun acc p => storePut resetValue acc p.1
    (BitVec.ofNat 32 (mergeBits (keptBits p.1) p.2.toNat (resetValue p.1).toNat))) []

/-- A hole record that has not been consumed or a reply that has not been written would be lost (R380): every packet that is
outstanding still has its reply to come. -/
def State.wouldDrop (s : State) : Bool := !s.lay.holes.isEmpty || s.cmd.started.any (fun e => !e.discard)

/-- The injections end (R341), and with them the conditions that only they made. -/
def State.endInjections (s : State) : State :=
  s.flt.inj.foldl (fun t j => if bitAt j.value 31 then t.wireEnd j.src else t.injEnd j.src) { s with flt := { s.flt with inj := [] } }

/-- The collector reads the main-domain sources as not raised (R326). -/
def State.mainQuiet (s : State) : State :=
  s.flt.recs.foldl (fun t r => if r.stands && isMainSrc r.src then t.quietEnd r.src else t) s

/-- The outputs that nothing drives while the main domain is down (Table 17-6). -/
def mainOutputs : List Output := [.bal, .scn, .defl, .plinkTx, .tp, .clkout, .motion, .htrPwm, .gpio]

/-- The outputs that nothing drives while the always-on domain is unpowered (Table 17-6). -/
def allOutputs : List Output := [.alive, .gstb, .blankAll, .pwrEn, .qspi] ++ mainOutputs

/-- How an output stands (R364, Table 17-6; FAULT_N by R336). -/
def State.drive (s : State) (o : Output) : Drive :=
  if !s.dom.aon then (if allOutputs.contains o then .undriven else .pulledLow)
  else if s.dom.main then .driven
  else if mainOutputs.contains o then .undriven
  else match o with
    | .seqSync => if s.flag rPwrSeq 28 then .low else .undriven
    | .runSync | .alive => .low
    | .faultN => if s.faultNLow then .low else .undriven
    | .gstb => .held
    | _ => .driven

/-- The outputs when the main domain goes down (R196, R210, R364): every strobe is low, the transmit lanes go to electrical idle, and what
the main domain drove is driven no longer. -/
def State.outputsDown (s : State) : State :=
  let t := (s.bal.high.foldl (fun t h => t.emit (.strobe h.g false none)) s).setGate false
  (if t.linkOn then t.emit .txOff else t).emit (.undriven mainOutputs)

/-- The main domain is put into reset (R18, R298, R364, R380, R381): its registers and structures start over; the time passes to
the coarse timekeeper (R262), and the part drives both sync lines low. DROPPED says whether a hole record or a reply was lost; the next hole
record carries LOST_BEFORE for a loss now, and for an earlier one that no record has carried yet. -/
def State.mainDown (s0 : State) : State :=
  if !s0.dom.main then s0
  else
    let s := ((s0.endInjections.mainQuiet).toCoarse).outputsDown
    let drop := s.wouldDrop
    let t : State := { s with
      regs := keptRegs s.regs
      applied := []
      mem := []
      dom := { s.dom with main := false, mainUp := false, link := false, cfgDone := false,
                          d3 := [false, false, false, false], flr := [none, none, none, none], peers := none,
                          msix := Domain.reset.msix, ahead := [] }
      cmd := { CmdState.reset with nextId := s.cmd.nextId }
      run := { s.run with line := false, pull := true, queue := [], cur := none }
      net := NetState.reset
      flt := { s.flt with clearing := [] }
      rle := RleState.reset
      tim := { TimState.reset with elapsed := s.tim.elapsed, upNs := s.tim.upNs, cSec := s.tim.cSec, cNs := s.tim.cNs,
                                   cFrac := s.tim.cFrac }
      clk := { s.clk with sets := [], restarts := [0, 0, 0, 0], gated := false }
      lay := { LayState.reset with lost := drop || s.lay.lost }
      foot := FootState.reset
      dose := DoseState.reset
      gen := { GenState.reset with lastCal := s.gen.lastCal }
      esc := EscState.reset
      scan := ScanState.reset
      bal := { BalState.reset with tri := s.bal.tri }
      dma := DmaState.reset
      ddr := { DdrState.reset with posCnt := s.ddr.posCnt, corr := s.ddr.corr }
      mot := List.replicate 8 Axis.reset
      thm := List.replicate 6 Zone.reset
      dbg := JtagState.reset
      mbx := { s.mbx with coreHeld := [true, true, true],
                          shms := s.mbx.shms.map (fun x => { x with run := none }) } }
    (([0, 1, 2, 3].foldl (fun u k => u.setFlag (rMbxShmStat k) 31 false) t).setFlag rGlbRstcause 27 drop).pullSeq.aliveCheck

/-- The epochs of H0–H3 and M0–M2 increment at a reset of the main domain (R350, Table 18-6; log entry 63). -/
def State.mainEpochs (s : State) : State := [7, 8, 9, 10, 0, 1, 2].foldl State.bumpEpoch s

end Sys2Proof.Machine
end

