-- ==== Sys2Proof/Machine/Power.lean ====
section
/-! DEFINITION. The power sequencer (R300–R313), the ADC (R314) and the snapshot buffer (R316). -/

namespace Sys2Proof.Machine

/-! ### Power-up -/

/-- Every enabled rail that supplies the part is good: the main domain is powered (R301). -/
def State.ownGood (s : State) : Bool := rails.all (fun n => !(s.railUsed n && s.railOwn n) || s.railGood n)

/-- Once the part is supplied, the clock generators start (R272, Table 2-6). -/
def State.startClocks (s : State) : State :=
  if s.seqPhase = 1 ∧ s.ownGood ∧ (List.range 6).all (fun g => s.clkState g == 0) then
    (List.range 6).foldl (fun t g =>
      { t.setClk g 1 with clk := { t.clk with gens := updAt t.clk.gens g (fun _ => ⟨s.tim.elapsed, none, false⟩) } }) s
  else s

/-- SEQ_SYNC_RISE (R302). A rise cannot come while this part pulls the line. -/
def execSeqSyncRise (s : State) : Outcome :=
  if !s.dom.aon ∨ s.seqPull then .next s
  else
    let s1 := s.setFlag rPwrSeq 29 true
    if s.seqPhase ≠ 1 then .next (s1.count (rPwrCnt 3) 1)
    else if 64 ≤ s.pwr.steps then .next ((s1.setPhase 0).count (rPwrCnt 0) 1)
    else
      let k := s.pwr.steps
      let t : State := { s1 with pwr := { s1.pwr with steps := k + 1 } }
      .next ((t.setFld rPwrSeq 8 6 k).pullSeq.permit.releaseSeq)

/-- RAIL_START (R303): START after permission, EN rises. -/
def execRailStart (n : Fin 24) (s : State) : Outcome :=
  if s.railState n = 2 ∧ s.seqPhase < 2 then
    .next (((((s.driveEn n true).setRailState n 3).setFlag (rPwrRstat n) 27 false).setFld (rPwrRstat n) 20 4 0).updRail n
      (fun r => { r with off := false, skipped := false, fell := false, chat := 0, expired := false }))
  else .next s

/-- The record of a source that has caused a power-down is carried to the next entry to SERVICE, if its severity is 3 or 4 (R339). -/
def State.causedDown (s : State) (src : Nat) : State := if 3 ≤ (s.recOf src).eff then s.carryRec src else s

/-- A start has failed (R304): the rail's source is raised, SEQ_SYNC stays low, and a power-down is to come, which it has caused unless
one was asked for already. A cold reset that is already decided stays one. -/
def State.powerUpFails (s : State) (src n : Nat) : State :=
  let s0 := ((s.setRailState n 7).pullSeq).raise src
  let s1 := if s.pwr.downCause = 0 then s0.causedDown src else s0
  { s1 with pwr := { s1.pwr with downCause := if s1.pwr.downCause = 4 then 4 else 2 } }

/-- PG_RISE (R303): a rise in a start begins the debounce; a rise after a fall counts as chatter. -/
def execPgRise (n : Fin 24) (s : State) : Outcome :=
  let s1 := s.setFlag rPwrPg n true
  if s.railState n ≠ 3 then .next s1
  else if !(s.railRec n).fell then .next (s1.setRailState n 4)
  else
    let c := (s.railRec n).chat + 1
    let s2 := ((s1.updRail n (fun r => { r with chat := c })).setFld (rPwrRstat n) 20 4 (min c 15)).count (rPwrCnt 1) 1
    if s.fld (rPwrRtime n) 4 4 < c then .next (s2.powerUpFails (srcPwr 1 n) n) else .next (s2.setRailState n 4)

/-- DEBOUNCE_DONE (R303): the rail is good, which may permit other rails, release SEQ_SYNC, and start the clocks. A fall of PG on its clock
restarts DEB (R313). -/
def execDebounceDone (n : Fin 24) (s : State) : Outcome :=
  if s.railState n = 4 then
    let (b, t) := s.tie (fun c => match c with | .pgFall rs => bitAt rs.toNat n | _ => false)
    .next (if b then t else (t.setRailState n 5).permit.releaseSeq.startClocks)
  else .next s

/-- PGTO_EXPIRY (R304). A rise of PG on its clock is in time (R313); while an injection withholds the rise, the wait expires on a rail
that has risen (R341). -/
def execPgtoExpiry (n : Fin 24) (s : State) : Outcome :=
  if s.railState n = 3 ∧ s.seqPhase < 2 then
    let (b, t) := s.tie (fun c => match c with | .pgRise m => m == n | _ => false)
    .next (if b then t else t.powerUpFails (srcPwr 0 n) n)
  else if s.railEn n ∧ s.seqPhase < 2 then .next (s.waitOut (srcPwr 0 n))
  else .next s

/-! ### Rails while running -/

/-- Rails go off together (R305, R311): those of `l` have failed, those of `deps` depend on them. A rail that has not started
waits for permission again, and none of them is HOLD's to switch off any more. -/
def State.cutRails (s : State) (l deps : List Nat) : State :=
  let s0 : State := { s with pwr := { s.pwr with holdList := s.pwr.holdList.filter (fun n => !deps.contains n) } }
  deps.foldl (fun t n =>
    if l.contains n then ((t.switchOff n).setRailState n 7)
    else if t.railEn n then t.switchOff n
    else if t.railState n = 2 then t.setRailState n 1
    else t) s0

/-- One of the rails that failed on one clock, which names the failure event (R313). Where there are several, a rail that supplies
the part goes before the others; which of them otherwise is a free value (log entry 62). -/
def State.failedRail (s : State) (l : List Nat) : Nat × State :=
  let own := l.filter (fun n => s.railOwn n)
  let c := if own.isEmpty then l else own
  if c.length ≤ 1 then (c.headD 0, s) else (c.getD (s.freeVal % c.length) 0, s.tookFree)

/-! ### Power-down -/

/-- The rail the order waits for (R310) has passed DISTO with POLICY WAIT: the order holds. -/
def State.downShow (s : State) : State :=
  match s.pwr.discharging with
  | some n => s.setPhase (if (s.railRec n).expired && !(s.railRec n).off && s.railWaits n then 3 else 2)
  | none => s.setPhase 2

/-- The next rail of the order is switched off, or is waited for if it is off already; the main domain goes into reset before
the first rail that supplies the part (R309, R310). -/
def State.downNext (s : State) : State :=
  match s.nextOff s.downTodo with
  | none => { s with pwr := { s.pwr with discharging := none } }.downShow
  | some n =>
    let s1 := if s.railOwn n then s.mainDown else s
    let s2 := if s1.railEn n then s1.switchOff n else s1
    { s2 with pwr := { s2.pwr with discharging := some n } }.downShow

/-- The heater outputs are forced to 0 (R309, R320). -/
def State.heatersOff (s : State) : State :=
  (List.range 6).foldl (fun t z =>
    let u := if t.flag (rThmCfg z) 30 then t.setFld (rThmStat z) 30 2 2 else t
    { u with thm := updAt u.thm z (fun x => { x with duty := 0, high := 0 }) }.setFld (rThmDuty z) 0 16 0) s

/-- A reply to STANDBY is still to be written: the power-down waits for it (Table 3-4). -/
def State.standbyHeld (s : State) : Bool := s.cmd.held.any (fun h => pkOpcode h.pk == 0x05)

/-- POWER_DOWN_START (R309): once something has asked for it. -/
def execPowerDownStart (s : State) : Outcome :=
  if s.pwr.downCause = 0 ∨ 2 ≤ s.seqPhase ∨ s.standbyHeld then .next s
  else
    let s1 := ((s.setPhase 2).pullSeq).heatersOff
    let s2 := rails.foldl (fun t n =>
      let u := if t.railState n = 1 ∨ t.railState n = 2 then t.setRailState n 0 else t
      u.setFlag (rPwrRstat n) 28 false) s1
    let s3 : State := { s2 with pwr := { s2.pwr with holdList := [] } }
    match s3.pwr.discharging with
    | some _ => .next s3.downShow
    | none => .next s3.downNext

/-- The rail is off (R310); one that an entry to SERVICE has asked for starts again (R307). -/
def State.foundOff (s : State) (n : Nat) : State :=
  let s1 := (if s.railState n = 6 then s.setRailState n 0 else s).updRail n (fun r => { r with off := true })
  if s1.railHold n = 1 ∧ s1.flag (rPwrRstat n) 27 ∧ 1 ≤ s1.mode ∧ s1.mode ≤ 4 ∧ s1.seqPhase < 2 then (s1.restartRail n).permit
  else s1

/-- The rails in use that are switched off and not yet found off. -/
def State.fading (s : State) : List Nat :=
  rails.filter (fun n => s.railUsed n && !s.railEn n && !(s.railRec n).off)

/-- The latest conversions of all channels. -/
def State.readings (s : State) : List Nat := (List.range 32).map (fun c => s.fld (rPwrAdc c) 0 12)

/-- A running heater zone adds the reading of its channel (R318). -/
def State.zoneScan (s : State) (z : Nat) : State :=
  let c := s.fld (rThmCfg z) 0 5
  if s.dom.main && s.flag (rThmCfg z) 30 && decide (c < 24) then
    let v := s.fld (rPwrAdc c) 0 12
    { s with thm := updAt s.thm z (fun x =>
        { x with sum := x.sum + v, count := x.count + 1, sense := x.sense || v == 0 || v == 4095 }) }
  else s

/-- ADC_SCAN (R310, R314, R315, R318): one scan of channels 0–23 completes, with the voltage at each ball. The next rail of a power-down is switched off at the
first scan after the one before it was passed. -/
def execAdcScan (volts : List Int) (s : State) : Outcome :=
  if !s.dom.aon then .next s
  else
    let s1 := (List.range 24).foldl (fun t c =>
      match volts[c]? with | some v => t.wr (rPwrAdc c) (adcCode v) | none => t) s
    let s2 := rails.foldl (fun t n => match t.railSense n with
      | some c => t.setFld (rPwrRstat n) 0 12 (t.fld (rPwrAdc c) 0 12)
      | none => t) s1
    let h := s2.snap.history
    let s3 : State := { s2 with snap := { s2.snap with history := (if 255 ≤ h.length then h.drop 1 else h) ++ [s2.readings] } }
    let s4 := (List.range 6).foldl State.zoneScan s3
    let step := match s4.pwr.discharging with
      | some n => s4.railPassed n
      | none => decide (2 ≤ s4.seqPhase)
    let s5 := s4.fading.foldl (fun t n => if t.railReadsOff n then t.foundOff n else t) s4
    if step then
      let t : State := { s5 with pwr := { s5.pwr with discharging := none } }
      .next (if 2 ≤ t.seqPhase then t.downNext else t.holdOffNext)
    else .next (if 2 ≤ s5.seqPhase then s5.downShow else s5)

/-- A scan finds rail n off: its voltage converts to less than OFFTH (R310, R313). -/
def State.scanFindsOff (s : State) (n : Nat) (volts : List Int) : Bool :=
  match s.railSense n with
  | some c => (match volts[c]? with | some v => decide (adcCode v < s.fld (rPwrRoff n) 0 12) | none => false)
  | none => false

/-- The source that DISTO's expiry raises by POLICY (R310). -/
def State.slowSrc (s : State) (n : Nat) : Nat := if s.railWaits n then srcPwr 6 n else srcPwr 5 n

/-- DISTO_EXPIRY (R310). A scan on its clock that finds the rail off is in time (R313). STUCK shows an expiry in the current power-down.
While an injection withholds the reading, the wait expires on a rail that is off (R341). -/
def execDistoExpiry (n : Fin 24) (s : State) : Outcome :=
  if (s.railRec n).expired then .next s
  else if !s.fading.contains n.val then
    .next (if s.railUsed n && !s.railEn n && (s.railSense n).isSome then s.waitOut (s.slowSrc n) else s)
  else
    let (b, s0) := s.tie (fun c => match c with | .adcScan v => s.scanFindsOff n v | _ => false)
    if b then .next s0
    else
      let s1 := s0.updRail n (fun r => { r with expired := true })
      let s2 := if 2 ≤ s1.seqPhase then s1.setFlag (rPwrRstat n) 28 true else s1
      match s2.railSense n with
      | none => .next (s2.foundOff n)
      | some _ => .next ((if 2 ≤ s2.seqPhase ∧ s2.railWaits n then s2.downShow else s2).raise (s2.slowSrc n))

/-! ### Rails that fail -/

/-- The axes that move on a rail of `l` whose PG has fallen stop at once (R285, R295). -/
def State.railAxes (s : State) (l : List Nat) : List Nat :=
  (List.range 8).filter (fun a => !s.atRest a && (match s.axisRail a with | some r => l.contains r | none => false))

/-- A good rail has failed (R305), or a rail that should still be on has dropped its PG in a power-down (R311). A part whose own
supply goes off is down from then on (log entry 64). The MOT_HOMEFAILs that the raise brings come after it (R333). -/
def State.railsFail (s : State) (l : List Nat) (down : Bool) : State :=
  let deps := s.dependents l 24
  let own := deps.any (fun n => s.railOwn n && s.railEn n)
  let s1 := s.cutRails l deps
  let (n, s2) := s1.failedRail l
  let src := if down then srcPwr 4 n else if s2.railOwn n then srcPwr 3 n else srcPwr 2 n
  let s3 := (if down then s2 else s2.count (rPwrCnt 2) 1).raiseOne (Raise.of src) none (chkFault src)
  if own then s3.mainDown else s3

/-- The part drives EN of rail n low on this clock, behind this command (R313): by the next rail of an order, or by a HOLD command. -/
def State.dropsNow (s : State) (n : Nat) : Bool × State :=
  let low (o : Outcome) : Bool := match o with | .next t => !t.railEn n | _ => false
  s.tie (fun c => match c with
    | .adcScan v => low (execAdcScan v s)
    | .powerDownStart => low (execPowerDownStart s)
    | .hold pk => low (execHold pk s)
    | _ => false)

/-- The rails of `l` whose EN the part drives low on this clock, and the state after the free values this took. -/
def State.dropping (s : State) (l : List Nat) : List Nat × State :=
  l.foldl (fun p n => let r := p.2.dropsNow n; (if r.1 then p.1 ++ [n] else p.1, r.2)) ([], s)

/-- The PGs of a set of rails fall on one clock (R303, R305, R311, R313). A rail whose EN falls on it too has not failed. Its raises are taken in
ascending order (R333). -/
def State.pgFall (s : State) (rs : BitVec 24) : State :=
  let l := rails.filter (fun n => bitAt rs.toNat n && s.railPg n)
  let s1 := l.foldl (fun t n => t.setFlag rPwrPg n false) s
  let ax := s1.railAxes l
  let s2 := ax.foldl (fun t a => t.faultStop a none) s1
  let deb := l.filter (fun n => s2.railState n == 3 || s2.railState n == 4)
  let s3 := if s2.seqPhase < 2 then
      deb.foldl (fun t n => (t.setRailState n 3).updRail n (fun r => { r with fell := true })) s2
    else s2
  let down := decide (2 ≤ s3.seqPhase)
  let (off, s4) := s3.dropping (l.filter (fun n => s3.railUsed n && s3.railEn n && (down || s3.railGood n)))
  let bad := l.filter (fun n => s4.railUsed n && s4.railEn n && (down || s4.railGood n) && !off.contains n)
  let s5 := if bad.isEmpty then s4 else s4.railsFail bad down
  (ax.foldl (fun t a => t.raiseOne (Raise.of (srcMot 2 a)) none (chkFault (srcMot 2 a))) s5).homeFailsOut

/-- PG_FALL (R303, R305, R311, R313): its raises fall on one clock (R335). -/
def execPgFall (rs : BitVec 24) (s : State) : Outcome := .next (s.onOneClock (fun t => t.pgFall rs))

/-! ### STANDBY -/

/-- The part is in STANDBY (R18, R302, R312, R341): the always-on logic drives both lines low. A cold reset then restarts the
always-on domain (R379). -/
def State.enterStandby (s : State) : State :=
  let s1 := ((s.mainDown.endInjections.setPhase 0).pullSeq).setFld rPwrSeq 8 6 0
  let s2 := (List.range 6).foldl (fun t g => (t.setClk g 0).setFlag rClkStat (16 + g) false) s1
  let cold := s2.pwr.downCause == 4
  let s3 : State := { s2 with
    pwr := { s2.pwr with downCause := 0, steps := 0, discharging := none, holdList := [] }
    run := { s2.run with pull := true, line := false }
    dom := { s2.dom with perst := false, coldPend := cold, resetting := if cold then 3 else 0 } }
  let s4 := (s3.setFld rGlbMode 29 3 0).wr rFltHold 0
  { s4 with flt := { s4.flt with allstop := false } }.aliveCheck

/-- STANDBY_ENTRY (R312): once the last rail is off. -/
def execStandbyEntry (s : State) : Outcome :=
  if s.seqPhase = 2 ∧ s.downTodo.isEmpty then .next s.enterStandby else .next s

/-! ### RAIL_STATUS and the snapshot buffer -/

/-- RAIL_STATUS (R59), once its parameters stand. -/
def State.railStatus (s : State) (pk : Packet) : State :=
  s.complete pk ⟨0, 0, 0, Config.railStatus (s.rd rPwrEn) (s.rd rPwrPg) (s.fld rPwrSeq 8 6) s.readings, 1, false⟩

/-- RAIL_STATUS (R59). -/
def execRailStatus (pk : Packet) (s : State) : Outcome :=
  .next (s.decidePk pk ⟨0x60, fnAll, modesAny, []⟩ (fun t => t.railStatus pk))

/-- SNAPSHOT_READ (R316): the entry decoded, which marks it read. What an empty entry returns no rule states: free bytes (log
entry 65). -/
def execSnapshotRead (pk : Packet) (s : State) : Outcome :=
  .next (s.decidePk pk ⟨0x61, fnAll, modesAny, fByte 16⟩ fun t =>
    let i := pkU pk 0x20 1
    match t.snap.entries.getD i none with
    | none => (t.complete pk ⟨0, 0, 0, t.freeBytes 4096, 1, false⟩).tookFreeN 4096
    | some x =>
      let t1 : State := { t with snap := { t.snap with entries := t.snap.entries.set i (some { x with read := true }) } }
      (t1.setFld rPwrSnap 16 5 t1.unread).complete pk ⟨0, 0, 0, snapshotBytes x, 1, false⟩)

end Sys2Proof.Machine
end

