-- ==== Sys2Proof/Machine/Heaters.lean ====
section
/-! DEFINITION. The heater zones (R317–R321). -/

namespace Sys2Proof.Machine

/-- Zone z regulates: RUN. -/
def State.zoneRun (s : State) (z : Nat) : Bool := s.flag (rThmCfg z) 30
/-- The zone record. -/
def State.zone (s : State) (z : Nat) : Zone := s.thm.getD z Zone.reset
/-- The zone record changed. -/
def State.updZone (s : State) (z : Nat) (f : Zone → Zone) : State := { s with thm := updAt s.thm z f }
/-- The timer that the zone holds (R40). -/
def State.zoneTimer (s : State) (z : Nat) : Option Nat := ((List.range 15).map (· + 2)).find? (fun r => s.ownedBy r (0x20 + z))
/-- RAIL of a zone: 24–30 are taken as none. -/
def State.zoneRail (s : State) (z : Nat) : Option Nat :=
  let r := s.fld (rThmCfg z) 20 5
  if r < 24 then some r else none
/-- The zone's rail, if it has one, is good. -/
def State.zoneSupplied (s : State) (z : Nat) : Bool := match s.zoneRail z with | some n => s.railGood n | none => true

/-- RUN becomes 1 (R317, R319): the integrator starts at 0. -/
def State.startZone (s : State) (z : Nat) : State :=
  if s.zoneRun z then s
  else
    (((s.setFlag (rThmCfg z) 30 true).setFld (rThmStat z) 30 2 1).setFld (rThmDuty z) 16 16 0).updZone z
      (fun x => { x with i := 0, sum := 0, count := 0, sense := false, duty := 0 })

/-- RUN becomes 0: the output is low (R320), and no period has a bad sensor or temperature (R321). -/
def State.stopZone (s : State) (z : Nat) : State :=
  (((((s.setFlag (rThmCfg z) 30 false).setFld (rThmStat z) 30 2 0).setFld (rThmDuty z) 0 16 0).updZone z
    (fun x => { x with duty := 0, high := 0 })).condEnd (srcHtrSensor z)).condEnd (srcHtrOver z)

/-- A master gives the zone's timer up unless the claim is pinned (R317): one that another master claimed it cannot release (R38). -/
def State.dropZoneTimer (s : State) (master z : Nat) : State :=
  match s.zoneTimer z with
  | none => s
  | some r => if s.clmPinned r then s else (s.release master (0x20 + z) r).2

/-- The zone has a timer, claimed now for a master if it had none; none when no timer is free (R40, R317). -/
def State.takeZoneTimer (s : State) (master z : Nat) : Option State :=
  match s.zoneTimer z with
  | some _ => some s
  | none =>
    match s.freeTimer with
    | none => none
    | some r => some (s.grant master (0x20 + z) r)

/-- HEATER_SET, once its parameters stand (R317); the checks are made in the order sensor, rail, timer (log entry 66). -/
def State.heaterSet (s : State) (pk : Packet) : State :=
  let z := pkU pk 0x20 1
  let sp := pkU pk 0x22 2
  if pkU pk 0x24 1 = 0 then (((s.setFld (rThmSp z) 0 16 sp).stopZone z).dropZoneTimer 2 z).complete pk (.ok 0)
  else if 24 ≤ s.fld (rThmCfg z) 0 5 then s.badFree pk
  else if (match s.zoneRail z with | some n => !s.railPg n | none => false) then s.complete pk (.plain 0x50 0 0)
  else
    match s.takeZoneTimer 2 z with
    | none => s.timerConflict pk (0x20 + z)
    | some t => ((t.setFld (rThmSp z) 0 16 sp).startZone z).complete pk (.ok 0)

/-- HEATER_SET (R317). -/
def execHeaterSet (pk : Packet) (s : State) : Outcome :=
  .next (s.decidePk pk ⟨0x62, fn01, modesRun, fHeaterSet⟩ (fun t => t.heaterSet pk))

/-- HEATER_STATUS (R59, 14): four words. -/
def execHeaterStatus (pk : Packet) (s : State) : Outcome :=
  .next (s.decidePk pk ⟨0x63, fnAll, modesAny, fByte 6⟩ fun t =>
    let z := pkU pk 0x20 1
    t.complete pk ⟨0, 0, 0, ([rThmCfg z, rThmSp z, rThmStat z, rThmDuty z].map (fun o => leBytes 4 (t.rd o))).flatten, 1, false⟩)

/-- The temperature of an average code (R318). -/
def State.zoneTemp (s : State) (z code : Nat) : Int :=
  let c (k : Nat) : Int := signed 16 (s.fld (rThmCal z k) 0 16)
  let k := code / 256
  c k + roundHalfEven ((c (k + 1) - c k) * ((code % 256 : Nat) : Int)) 256

/-- The loop (R319): the new integrator, the new duty, and whether it is saturated. -/
def heaterLoop (sp t i : Int) (kp ki dmax : Nat) : Int × Nat × Bool :=
  let e := sp - t
  let ic := i + ki * e
  let u := kp * e + ic
  let hi : Int := 256 * dmax
  let i' := if (hi < u ∧ 0 < e) ∨ (u < 0 ∧ e < 0) then i else sat ic 0 hi
  let duty := (sat (shrRound (kp * e + i') 8) 0 dmax).toNat
  (i', duty, (duty == dmax && decide (0 < e)) || (duty == 0 && decide (e < 0)))

/-- HEATER_CONTROL_PERIOD (R318, R319, R321). A period holds scans; one without any does not end (log entry 2). -/
def execHeaterControlPeriod (z : Fin 6) (s : State) : Outcome :=
  let x := s.zone z
  if !s.dom.main ∨ !s.zoneRun z ∨ x.count = 0 then .next s
  else
    let t := s.zoneTemp z (roundHalfEven x.sum x.count).toNat
    let hot := decide (signed 16 (s.fld (rThmSp z) 16 16) < t)
    let s1 := (((s.setFld (rThmStat z) 0 16 (unsigned 16 t)).setFlag (rThmStat z) 29 x.sense).setFlag (rThmStat z) 28 hot).updZone z
      (fun y => { y with sum := 0, count := 0, sense := false })
    let s2 :=
      if x.sense || hot then
        (((s1.setFld (rThmStat z) 30 2 2).setFlag (rThmStat z) 27 false).wr (rThmDuty z) 0).updZone z
          (fun y => { y with i := 0, duty := 0, high := 0 })
      else
        let (i, d, full) := heaterLoop (signed 16 (s.fld (rThmSp z) 0 16)) t x.i (s.fld (rThmGain z) 16 16) (s.fld (rThmGain z) 0 16)
          (s.fld (rThmOut z) 16 16)
        (((s1.setFld (rThmStat z) 30 2 1).setFlag (rThmStat z) 27 full).setFld (rThmDuty z) 16 16 (i / 256).toNat).updZone z
          (fun y => { y with i := i, duty := d })
    .next ((s2.levelIs (srcHtrSensor z) x.sense).levelIs (srcHtrOver z) hot)

/-- PERIOD of a zone, taken as the nearest limit. -/
def State.pwmPeriod (s : State) (z : Nat) : Nat := clampN (s.fld (rThmPwm z) 0 18) 2500 250000

/-- PWM_PERIOD (R320): the duty in force, and how long the output is high in this period. -/
def execPwmPeriod (z : Fin 6) (s : State) : Outcome :=
  if !s.dom.main then .next s
  else
    let d := if s.zoneRun z && decide (s.seqPhase < 2) then (s.zone z).duty else 0
    let high := if s.zoneSupplied z then (shrRound ((d * s.pwmPeriod z : Nat) : Int) 16).toNat else 0
    .next ((s.setFld (rThmDuty z) 0 16 d).updZone z (fun y => { y with high := high }))

end Sys2Proof.Machine
end

