-- ==== Sys2Proof/Machine/Net.lean ====
section
/-! DEFINITION. The timing ports: PTP (R264–R269) and heartbeats (R270). -/

namespace Sys2Proof.Machine

/-- A PTP port. -/
def State.port (s : State) (p : Nat) : PtpPort := s.net.ports.getD p PtpPort.reset
/-- A PTP port changed. -/
def State.updPort (s : State) (p : Nat) (f : PtpPort → PtpPort) : State :=
  { s with net := { s.net with ports := updAt s.net.ports p f } }
/-- The port is enabled, and its link is up. -/
def State.portUp (s : State) (p : Nat) : Bool := s.dom.main && s.flag (rTimPcfg p) 31 && (s.port p).link

/-- LOCKED is 0 while no port is in SLAVE state (R268). -/
def State.checkSlave (s : State) : State :=
  if s.net.ports.any (fun x => x.state == .slave) then s
  else { s with tim := { s.tim with goodSyncs := 0 } }.setFlag rTimStat 30 false

/-- The port has come up, or gone down: it listens, or is disabled (IEEE 1588-2019, log entry 36); `was` says whether it was up. -/
def State.portTurns (s : State) (p : Nat) (was : Bool) : State :=
  if s.portUp p = was then s
  else (s.updPort p (fun x => { x with state := if s.portUp p then .listening else .disabled })).checkSlave

/-- The fields of TIM_PCFG are taken when EN goes from 0 to 1; `was` says whether EN was set. -/
def State.takePcfg (s : State) (p : Nat) (was : Bool) : State :=
  if !was && s.flag (rTimPcfg p) 31 then s.updPort p (fun x => { x with cfg := s.rd (rTimPcfg p) }) else s

/-- TP_LINK_CHANGE (R264, R268). -/
def execTpLinkChange (p : Fin 2) (up : Bool) (s : State) : Outcome :=
  if s.dom.main then .next ((s.updPort p (fun x => { x with link := up })).portTurns p (s.portUp p)) else .next s

/-- A latency in ps as 2^-16 ns (R266). -/
def psTo16 (ps : Int) : Int := roundHalfEven (ps * 65536) 1000

/-- offsetFromMaster of a Sync whose origin and correction are known, in 2^-16 ns: delayAsymmetry adds to the correction
(IEEE 1588-2019, log entry 36). -/
def State.syncOffset (s : State) (p : Nat) (origin rx : Int) : Int :=
  rx - origin - (s.port p).pathDelay - psTo16 (signed 24 (s.rd (rTimAsym p)))

/-- The servo's correction of frequency (R268): it moves INCR from its estimate by an amount no rule gives (log entry 3); an offset above
TIM_JMAX is slewed away at the ±1,000 ppm limit. While the ETH generator coasts, INCR is held (R276). -/
def State.servoRate (s : State) (off : Int) (big : Bool) : State :=
  if s.clkState 4 = 3 then s
  else if big then (s.timTouched .m2 rTimIncrHi).setRate (if 0 < off then incrMin else incrMax)
  else ((s.timTouched .m2 rTimIncrHi).setRate ((s.tim.estimate : Int) + signed 32 s.freeVal).toNat).tookFree

/-- The servo's answer to a Sync on the SLAVE port (R268): LOCKED by the run of small offsets; while SET is 0 the time is stepped;
otherwise INCR moves within R255, and an offset above TIM_JMAX raises PTP_BIGOFS. -/
def State.servo (s : State) (p : Nat) (off : Int) : State :=
  let s0 := s.updPort p (fun x => { x with offset := off })
  if !((s.port p).state == .slave) then s0
  else
    let good := decide (off.natAbs ≤ 6553600)
    let n := if good then s0.tim.goodSyncs + 1 else 0
    let s1 := { s0 with tim := { s0.tim with goodSyncs := n } }
    let s2 := if 16 ≤ n then s1.setFlag rTimStat 30 true
      else if 65536000 < off.natAbs then s1.setFlag rTimStat 30 false else s1
    let set := s2.flag rTimStat 31
    let big := set && decide (s2.jmax * 65536 < off.natAbs)
    let s3 := if big then s2.raise srcPtpBigOfs else s2
    if set then s3.servoRate off big
    else if s3.tim.step.isSome then s3
    else
      let o := -(roundHalfEven off 65536)
      let sec := o.fdiv 1000000000
      s3.moveStep (unsigned 64 sec % 2 ^ 32) (unsigned 64 sec / 2 ^ 32) (unsigned 32 (o - sec * 1000000000)) none false

/-! ### The best master clock (R265, IEEE 1588-2019, default dataset; log entry 36) -/

/-- The clock's own dataset, with the priorities of a port. -/
def State.ownClock (s : State) (p : Nat) : PtpClock :=
  let c := (s.port p).cfg
  ⟨bits c 8 8, s.net.clockQual, bits c 0 8, s.net.clockId, 0, s.net.clockId, s.net.utcOffset⟩

/-- The numbers of `l` come before those of `m` in the order of the comparison. -/
def lexLess : List Nat → List Nat → Bool
  | a :: l, b :: m => decide (a < b) || (a == b && lexLess l m)
  | _, _ => false

/-- One clock is better than another: by the grandmaster's attributes, and for one grandmaster by the steps to it and the sender. -/
def clockBetter (a b : PtpClock) : Bool :=
  if a.identity = b.identity then lexLess [a.steps, a.sender] [b.steps, b.sender]
  else lexLess [a.prio1, a.quality, a.prio2, a.identity] [b.prio1, b.quality, b.prio2, b.identity]

/-- The best clock that the part has heard on its ports, and on which. -/
def State.bestHeard (s : State) : Option (Nat × PtpClock) :=
  [0, 1].foldl (fun acc p => match (s.port p).best, acc with
    | some c, none => if s.portUp p then some (p, c) else acc
    | some c, some b => if s.portUp p && clockBetter c b.2 then some (p, c) else acc
    | none, _ => acc) none

/-- The state that the decision puts a port in. -/
def State.portDecision (s : State) (p : Nat) : PtpState :=
  let x := s.port p
  let role := bits x.cfg 29 2
  let following : PtpState := if x.state == .slave then .slave else .uncalibrated
  if role = 1 then .master
  else if role = 2 then (if x.best.isSome then following else .listening)
  else
    match s.bestHeard with
    | none => x.state
    | some (q, c) =>
      let own := s.ownClock p
      if s.net.clockQual / 2 ^ 24 < 128 then
        (match x.best with | some b => if clockBetter own b then .master else .passive | none => .master)
      else if clockBetter own c then .master
      else if q = p then following
      else match x.best with | some b => if b.identity = c.identity then .passive else .master | none => .master

/-- The decision is taken on every port that is up. -/
def State.decidePorts (s : State) : State :=
  ([0, 1].foldl (fun t p => if s.portUp p then t.updPort p (fun x => { x with state := s.portDecision p }) else t) s).checkSlave

/-- What an Announce of the part shows: its grandmaster, which is the part itself while no port follows another. -/
def State.announced (s : State) (p : Nat) : PtpClock :=
  match s.bestHeard with
  | some (q, c) => if (s.port q).state == .slave || (s.port q).state == .uncalibrated then
      { c with steps := c.steps + 1, sender := s.net.clockId } else s.ownClock p
  | none => s.ownClock p

/-- A Sync has given its offset: the servo answers it, and a port that was UNCALIBRATED is SLAVE from then on (log entry 36). -/
def State.synced (s : State) (p : Nat) (off : Int) : State :=
  let t := s.servo p off
  if (t.port p).state == .uncalibrated then t.updPort p (fun y => { y with state := .slave }) else t

/-- The port uses this delay mechanism's messages (R265): DELAY, as taken. -/
def PtpPort.hears (x : PtpPort) (k : PtpKind) : Bool :=
  let p2p := bitAt x.cfg 28
  match k with
  | .delayReq | .delayResp => !p2p
  | .pdelayReq | .pdelayResp | .pdelayRespFollowUp => p2p
  | _ => true

/-- The port uses the message: it is of its domain and of its delay mechanism (R265). -/
def PtpPort.takes (x : PtpPort) (m : PtpMsg) : Bool := m.domain == bits x.cfg 16 7 && x.hears m.kind

/-- An Announce has been weighed (R265): where its port follows the clock it shows, the part reports that clock's currentUtcOffset. -/
def State.takeUtc (s : State) (p : Nat) : State :=
  match (s.port p).best with
  | some b => if (s.port p).state == .slave || (s.port p).state == .uncalibrated then { s with net := { s.net with utcOffset := b.utc } } else s
  | none => s

/-- What a received message does at its port, stamped `rx` at the ball (R265–R269). -/
def State.ptpReceive (s : State) (p : Nat) (rx : Int) (msg : PtpMsg) : State :=
  let x := s.port p
  let s1 := s.updPort p (fun y => { y with rxFrames := y.rxFrames + 1 })
  if msg.kind == .management then s1.updPort p (fun y => { y with mgmt := y.mgmt + 1 })
  else if !x.takes msg then s1
  else
    let s2 := s1.updPort p (fun y => { y with
      syncAt := if msg.kind = .sync then s.tim.elapsed else y.syncAt, annAt := if msg.kind = .announce then s.tim.elapsed else y.annAt })
    match msg.kind with
    | .sync =>
      if msg.oneStep then
        (s2.updPort p (fun y => { y with lastSyncOrigin := msg.origin + msg.corr, lastSyncRx := rx, awaitFollowUp := false })).synced p
          (s2.syncOffset p (msg.origin + msg.corr) rx)
      else s2.updPort p (fun y => { y with lastSyncOrigin := msg.corr, lastSyncRx := rx, awaitFollowUp := true })
    | .followUp =>
      if x.awaitFollowUp then
        let o := msg.origin + msg.corr + x.lastSyncOrigin
        (s2.updPort p (fun y => { y with lastSyncOrigin := o, awaitFollowUp := false })).synced p (s2.syncOffset p o x.lastSyncRx)
      else s2
    | .delayReq => s2.updPort p (fun y => { y with reqRx := some rx, reqCorr := msg.corr })
    | .pdelayReq => s2.updPort p (fun y => { y with reqRx := some rx, reqCorr := msg.corr })
    | .delayResp =>
      if x.awaitResp then
        s2.updPort p (fun y => { y with
          pathDelay := floorDiv ((x.lastSyncRx - x.reqTx) + (msg.origin - msg.corr - x.lastSyncOrigin)) 2, awaitResp := false })
      else s2
    | .pdelayResp =>
      if x.awaitResp then
        if msg.oneStep then
          s2.updPort p (fun y => { y with pathDelay := floorDiv (rx - x.reqTx - msg.corr) 2, awaitResp := false })
        else s2.updPort p (fun y => { y with respRx := some (rx + msg.origin - msg.corr), awaitResp := false })
      else s2
    | .pdelayRespFollowUp =>
      match x.respRx with
      | some t => s2.updPort p (fun y => { y with pathDelay := floorDiv (t - x.reqTx - msg.origin - msg.corr) 2, respRx := none })
      | none => s2
    | .announce =>
      let better := match x.best with | some b => clockBetter msg.clock b || b.sender == msg.clock.sender | none => true
      (if better then s2.updPort p (fun y => { y with best := some msg.clock }) else s2).decidePorts.takeUtc p
    | .management => s2

/-- PTP_MESSAGE_RECEIVE (R265–R269). -/
def execPtpMessageReceive (p : Fin 2) (e : Fin 16) (msg : PtpMsg) (s : State) : Outcome :=
  if s.portUp p then
    .next (s.ptpReceive p ((s.stamp e : Int) - psTo16 (signed 24 (s.rd (rTimIgl p)))) msg)
  else .next s

/-- The nanoseconds of an originTimestamp (R267): SEC keeps its low 48 bits. -/
def originNs (t : Int) : Int := (t.fdiv 65536) % (2 ^ 48 * 1000000000)

/-- The fraction of a time, which goes to correctionField (R267). -/
def originFrac (t : Int) : Int := t - t.fdiv 65536 * 65536

/-- A message leaves the port, in its domain, to the address of its kind (R265). -/
def State.ptpOut (s : State) (p : Nat) (k : PtpKind) (origin corr : Int) : State :=
  let peer := k == .pdelayReq || k == .pdelayResp || k == .pdelayRespFollowUp
  s.emit (.ptp p k (if peer then 0x0180C200000E else 0x011B19000000) (bits (s.port p).cfg 16 7) origin corr
    (if k == .announce then some (s.announced p) else none))

/-- What a message carries as it leaves the port, and what the port keeps of its stamp (R267). An answer hands on the correction of its
request; a time of receipt that the receiver subtracts a correction from takes its fraction with the sign turned (IEEE 1588-2019, log entry
36). A message that answers or follows up
another goes out only where that one stands, and a request only by the port's delay mechanism. -/
def State.ptpSend (s : State) (p : Nat) (tx : Int) (k : PtpKind) : State :=
  let x := s.port p
  let one := bitAt x.cfg 27
  if !x.hears k then s
  else
    match k with
    | .sync =>
      if one then s.ptpOut p k (originNs tx) (originFrac tx)
      else (s.ptpOut p k 0 0).updPort p (fun y => { y with syncTx := some tx })
    | .followUp =>
      match x.syncTx with
      | some t => (s.ptpOut p k (originNs t) (originFrac t)).updPort p (fun y => { y with syncTx := none })
      | none => s
    | .delayReq => (s.ptpOut p k 0 0).updPort p (fun y => { y with reqTx := tx, awaitResp := true })
    | .pdelayReq => (s.ptpOut p k 0 0).updPort p (fun y => { y with reqTx := tx, awaitResp := true, respRx := none })
    | .delayResp =>
      match x.reqRx with
      | some t => (s.ptpOut p k (originNs t) (x.reqCorr - originFrac t)).updPort p (fun y => { y with reqRx := none })
      | none => s
    | .pdelayResp =>
      match x.reqRx with
      | some t =>
        if one then (s.ptpOut p k 0 (x.reqCorr + (tx - t))).updPort p (fun y => { y with reqRx := none })
        else (s.ptpOut p k (originNs t) (-originFrac t)).updPort p (fun y => { y with reqRx := none, respTx := some tx })
      | none => s
    | .pdelayRespFollowUp =>
      match x.respTx with
      | some t => (s.ptpOut p k (originNs t) (x.reqCorr + originFrac t)).updPort p (fun y => { y with respTx := none })
      | none => s
    | .announce => s.ptpOut p k 0 0
    | .management => s

/-- PTP_MESSAGE_SEND (R266, R267). -/
def execPtpMessageSend (p : Fin 2) (e : Fin 16) (kind : PtpKind) (s : State) : Outcome :=
  if s.portUp p then .next (s.ptpSend p ((s.stamp e : Int) + psTo16 (signed 24 (s.rd (rTimEgl p)))) kind) else .next s

/-- A message that the port awaits falls on this clock, behind this command (R342). -/
def State.ptpTies (s : State) (p : Fin 2) (k : PtpKind) : Bool :=
  s.ties (fun c => match c with
    | .ptpMessageReceive q _ m => q == p && m.kind == k && (s.port p).takes m
    | _ => false)

/-- ANNOUNCE_TIMEOUT (R269): the receipt timeout of IEEE 1588-2019 leads a slave-only port to LISTENING and another to MASTER, and so
does one of a port that still listens (log entry 36). An Announce on its clock is in time. -/
def execAnnounceTimeout (p : Fin 2) (s : State) : Outcome :=
  let st := (s.port p).state
  let slaveOnly := bits (s.port p).cfg 29 2 == 2
  if !s.portUp p then .next s
  else if s.onCoreClock (s.port p).annAt || s.ptpTies p .announce then
    .next (if st == .slave || st == .uncalibrated then s.waitOut (srcPtpTimeout p) else s)
  else if st == .slave || st == .uncalibrated then
    let fallTo : PtpState := if slaveOnly then .listening else .master
    .next (((s.updPort p (fun x => { x with state := fallTo, best := none })).checkSlave).raise (srcPtpTimeout p))
  else if st == .listening && !slaveOnly then .next (s.updPort p (fun x => { x with state := .master }))
  else .next s

/-- PTP_MSG_WAIT_EXPIRY (R269). A message on its clock is in time; while an injection withholds it, the wait expires all the same
(R341). -/
def execPtpMsgWaitExpiry (p : Fin 2) (kind : PtpKind) (s : State) : Outcome :=
  let x := s.port p
  let waits := match kind with
    | .sync => (x.state == .slave || x.state == .uncalibrated) && !s.onCoreClock x.syncAt
    | .followUp => x.awaitFollowUp
    | .delayResp => x.awaitResp
    | .pdelayResp => x.awaitResp
    | _ => false
  if s.portUp p && waits && !s.ptpTies p kind then
    .next ((s.updPort p (fun y => { y with
      awaitFollowUp := if kind = .followUp then false else y.awaitFollowUp,
      awaitResp := if kind = .delayResp ∨ kind = .pdelayResp then false else y.awaitResp,
      syncLost := y.syncLost + 1 })).raise (srcPtpLoss p))
  else .next (if s.portUp p then s.waitOut (srcPtpLoss p) else s)

/-- What PTP_STATUS tells of a port: its state and measurements, and its counts (R264, R265, R269). -/
def State.ptpNumbers (s : State) (p : Nat) : List Int :=
  let x := s.port p
  [bit x.link, x.cfg, x.offset, x.pathDelay, x.rxFrames, x.discarded, x.badHb, x.mgmt, x.syncLost, s.net.utcOffset]

/-- PTP_STATUS: the 64 bytes have no layout in the manual; they are a free function of what the port holds (log entry 145). -/
def execPtpStatus (pk : Packet) (s : State) : Outcome :=
  .next (s.decidePk pk ⟨0x73, fnAll, modesAny, fByte 2⟩ fun t =>
    let p := pkU pk 0x20 1
    t.complete pk ⟨0, 0, 0, (List.range 64).map (Config.ptpStatus (t.port p).state (t.ptpNumbers p)), 1, false⟩)

/-! ### Heartbeats -/

/-- HEARD: the indices heard within the last 300 µs, in the roster or not. -/
def State.heard (s : State) : Nat :=
  s.net.heardAt.foldl (fun m p => if s.tim.elapsed - p.2 ≤ t16us 300 then m ||| 2 ^ (p.1 % 64) else m) 0

/-- This part shows itself armed, or committed, in its heartbeat. -/
def State.hbFlags (s : State) : Nat :=
  bit s.flt.allstop + 2 * bit (s.ownFlag false) + 4 * bit (s.ownFlag true) + 8 * bit s.net.dup

/-- The bytes 0x00–0x27 of a heartbeat, given HOPS. -/
def State.hbHead (s : State) (hops : Nat) : List Byte :=
  leBytes 2 0x4E5A ++ leBytes 1 1 ++ leBytes 1 s.sysIdx ++ leBytes 1 s.mode ++ leBytes 1 s.hbFlags ++ leBytes 1 hops ++
  leBytes 1 0 ++ leBytes 4 s.run.step.toNat ++ leBytes 4 s.net.hbSeq.toNat ++ s.timeNow ++ leBytes 8 s.heard

/-- A heartbeat payload with its CRC (Table 12-1). -/
def hbFrame (head : List Byte) : List Byte := head ++ leBytes 4 (crc32c head) ++ zeros 2

/-- The destination address of heartbeats (R270). -/
def hbDest : Nat := 0x034E5A262000
/-- The Ethertype of heartbeats (R264, R270). -/
def hbType : Nat := 0x88B5

/-- HEARTBEAT_SEND (R42, R270): on every enabled timing port; SEQ is one more each time. -/
def execHeartbeatSend (s : State) : Outcome :=
  let f := hbFrame (s.hbHead 0)
  let ps := [0, 1].filter (fun p => s.portUp p)
  if ps.isEmpty then .next s
  else
    let s1 := ps.foldl (fun t p => t.emit (.heartbeat p hbDest (s.port p).mac hbType f)) s
    .next { s1 with net := { s1.net with hbSeq := s1.net.hbSeq + 1#32, lastHbAt := s1.tim.elapsed } }

/-- A heartbeat is forwarded out of the other enabled port with HOPS one higher (R270), under its sender's address (log entry 146). -/
def State.forwardHb (s : State) (port srcMac : Nat) (frame : List Byte) : State :=
  let hops := getU frame 6 1
  if 15 ≤ hops ∨ !s.portUp (1 - port) then s
  else s.emit (.heartbeat (1 - port) hbDest srcMac hbType (hbFrame (slice frame 0 6 ++ leBytes 1 (hops + 1) ++ slice frame 7 33)))

/-- A heartbeat of a roster member is used (R45, R46, R270). -/
def State.useHb (s : State) (frame : List Byte) : State :=
  let i := getU frame 3 1
  let fl := getU frame 5 1
  if !s.net.roster.contains i then s
  else
    let p : Peer := ⟨i, getU frame 4 1, bitAt fl 0, bitAt fl 1, bitAt fl 2, bitAt fl 3, getU frame 8 4, s.tim.elapsed, false⟩
    let s1 := { s with net := { s.net with peers := s.net.peers.filter (fun q => !(q.idx == i)) ++ [p] } }
    if bitAt fl 0 then
      { s1 with net := { s1.net with allstopAt := some s1.tim.elapsed } }.enterHold 4 0 false
    else s1

/-- The MAC accepts an untagged frame of at most 1,518 bytes, header and FCS among them, with the Ethertype of heartbeats (R264). A tag
shows as another Ethertype. -/
def macAccepts (etherType : Nat) (frame : List Byte) : Bool := etherType == hbType && decide (frame.length + 18 ≤ 1518)

/-- The frame is a good heartbeat of another source that is not a copy of one received before (R270). -/
def State.hbGood (s : State) (port : Fin 2) (srcMac : Nat) (f : EthFrame) : Bool :=
  let frame := f.bytes
  s.portUp port && macAccepts f.etherType frame && getU frame 0 2 == 0x4E5A && getU frame 0x28 4 == crc32c (slice frame 0 0x28) &&
    getU frame 2 1 == 1 && !s.net.ports.any (fun x => x.mac == srcMac) &&
    !s.net.recent.any (fun r => r.1 == getU frame 3 1 && r.2.1 == getU frame 0xC 4 && decide (s.tim.elapsed - r.2.2 < t16ms))

/-- A heartbeat of index `i` falls on this clock: it has been received, or it comes behind this command (R342). -/
def State.hbTies (s : State) (i : Nat) : Bool :=
  s.net.heardAt.any (fun h => h.1 == i && s.onCoreClock h.2) ||
    s.ties (fun c => match c with
      | .heartbeatReceive port srcMac f => s.hbGood port srcMac f && getU f.bytes 3 1 == i
      | _ => false)

/-- HEARTBEAT_RECEIVE (R17, R46, R264, R270): a frame that is no PTP message comes in. -/
def execHeartbeatReceive (port : Fin 2) (srcMac : Nat) (f : EthFrame) (s : State) : Outcome :=
  let frame := f.bytes
  if !s.portUp port then .next s
  else
    let s0 := s.updPort port (fun x => { x with rxFrames := x.rxFrames + 1 })
    if !macAccepts f.etherType frame then .next (s0.updPort port (fun x => { x with discarded := x.discarded + 1 }))
    else if getU frame 0 2 ≠ 0x4E5A ∨ getU frame 0x28 4 ≠ crc32c (slice frame 0 0x28) then
      .next (s0.updPort port (fun x => { x with badHb := x.badHb + 1 }))
    else if getU frame 2 1 ≠ 1 then .next (s0.updPort port (fun x => { x with discarded := x.discarded + 1 }))
    else
      let i := getU frame 3 1
      let q := getU frame 0xC 4
      let own := s0.net.ports.any (fun x => x.mac == srcMac)
      if own then .next s0
      else if s0.net.recent.any (fun r => r.1 == i && r.2.1 == q && decide (s0.tim.elapsed - r.2.2 < t16ms)) then .next s0
      else
        let keep := s0.net.recent.filter (fun r => decide (s0.tim.elapsed - r.2.2 < t16ms))
        let s1 : State := { s0 with net := { s0.net with
          recent := keep ++ [(i, q, s0.tim.elapsed)]
          heardAt := s0.net.heardAt.filter (fun h => !(h.1 == i)) ++ [(i, s0.tim.elapsed)] } }
        let s2 := s1.forwardHb port srcMac frame
        if i = s2.sysIdx then
          let s3 := { s2 with net := { s2.net with dup := true, dupAt := s2.tim.elapsed } }
          .next (if s2.net.dup then s3 else s3.onsetOr srcRosterDup (fun t => t.raise srcRosterDup))
        else .next (s2.useHb frame)

/-- A roster member is marked as not heard. -/
def State.losePeer (s : State) (i : Nat) : State :=
  let peers : List Peer :=
    if s.net.peers.any (fun p => p.idx == i) then
      s.net.peers.map (fun q => if q.idx == i then { q with lost := true } else q)
    else s.net.peers ++ [{ idx := i, mode := 0, allstop := false, armed := false, committed := false, dup := false,
                           step := 0, at_ := 0, lost := true }]
  { s with net := { s.net with peers := peers } }

/-- HB_LOSS (R270): a roster member has not been heard for 300 µs. A heartbeat on its clock is in time (R342). -/
def execHbLoss (i : Fin 64) (s : State) : Outcome :=
  if s.dom.main && s.net.roster.contains i.val && !(i.val == s.sysIdx) &&
      !(s.net.peers.any (fun p => p.idx == i.val && p.lost)) && !s.hbTies i then
    .next ((s.losePeer i).onsetOr srcHbLoss (fun t => t.raise srcHbLoss))
  else .next (if s.dom.main && s.net.roster.contains i.val && !(i.val == s.sysIdx) then s.waitOut srcHbLoss else s)

/-- DUP_EXPIRY (R270): 1 ms has passed without such a frame; one on its clock keeps DUP (R342). -/
def execDupExpiry (s : State) : Outcome :=
  if s.net.dup && !s.hbTies s.sysIdx then
    let s1 : State := { s with net := { s.net with dup := false } }
    .next (s1.condEnd srcRosterDup)
  else .next s

end Sys2Proof.Machine
end

