-- ==== Sys2Proof/Machine/Faults.lean ====
section
/-! DEFINITION. The fault collector's commands and events (R326–R341). -/

namespace Sys2Proof.Machine

/-! ### Raises -/

/-- A command that raises: its source, and whether it is a WIRE raise. -/
def raiseCmd : Instr → Option (Nat × Bool)
  | .faultRaise src => some (src, false)
  | .wireFault src => some (src, true)
  | _ => none

/-- The WIRE raise of a source: a level condition while the pair is invalid (R326). -/
def State.raiseWire (s : State) (src : Nat) : State :=
  if !s.collects src ∨ (s.recOf src).wire then s
  else s.raiseFull { Raise.of src with wire := true, inj := s.pairInjected src } none (chkFault src)

/-- A raise by its detector (R325, R327, R330, R341): it carries INJECTED while an injection trips the source too (log entry 88). -/
def State.raiseBy (s : State) (x : Nat × Bool) : State :=
  if x.2 then s.raiseWire x.1 else s.raiseInput x.1 (s.injTrips x.1)

/-- A source among those in ascending order. -/
def putSrc (l : List (Nat × Bool)) (x : Nat × Bool) : List (Nat × Bool) :=
  match l with
  | [] => [x]
  | y :: t => if x.1 < y.1 then x :: y :: t else y :: putSrc t x

/-- The raises of lower sources of the same class that fall on this command's clock, behind it (R333). -/
def State.lowerRaises (s : State) (src : Nat) : List (Nat × Bool) :=
  (s.beforeTick.filterMap (fun c => (raiseCmd c).filter (fun x => decide (x.1 < src) && srcClass x.1 == srcClass src))).foldl putSrc []

/-- A command raises a lower source of the class of `x`, not yet raised in its turn. -/
def State.comesBefore (s : State) (x : Nat × Bool) (c : Instr) : Bool :=
  match raiseCmd c with
  | some y => decide (y.1 < x.1) && srcClass y.1 == srcClass x.1 && !s.flt.early.contains y
  | none => false

/-- A raise that its command brings (R333): one that has gone before already is done; lower sources of its class on the same clock go
first. -/
def State.raiseInTurn (s : State) (x : Nat × Bool) : State :=
  if s.flt.early.contains x then { s with flt := { s.flt with early := s.flt.early.erase x } }
  else
    let (b, t) := s.tie (s.comesBefore x)
    if b then
      let l := (t.lowerRaises x.1).filter (fun y => !t.flt.early.contains y)
      let u : State := { t with flt := { t.flt with early := t.flt.early ++ l } }
      u.onOneClock (fun v => (l ++ [x]).foldl State.raiseBy v)
    else t.raiseBy x

/-- FAULT_RAISE (R325, R327, R330, R333, R341). -/
def execFaultRaise (src : Nat) (s : State) : Outcome := .next (s.raiseInTurn (src, false))

/-- WIRE_FAULT (R326, R333): the pair has been invalid for three samples. -/
def execWireFault (src : Nat) (s : State) : Outcome := .next (s.raiseInTurn (src, true))

/-- LEVEL_CONDITION_END (R330): the condition on the real input ends, else the one on the injected input, else that of a pair
which no injection holds (log entry 88). -/
def execLevelConditionEnd (src : Nat) (s : State) : Outcome :=
  let x := s.recOf src
  if x.cond then .next (s.condEnd src)
  else if x.inj then .next (s.injEnd src)
  else if s.pairInjected src then .next s
  else .next (s.wireEnd src)

/-! ### Transitions and HOLD on one clock -/

/-- A command takes the part into HOLD from a state (R28, R46, R69, R328): the mode after it. -/
def State.bringsHold (t : State) (c : Instr) : Bool :=
  let to5 (o : Outcome) : Bool := match o with | .next u => u.mode == 5 | _ => false
  t.mode != 5 && (match c with
    | .hold pk => to5 (execHold pk t)
    | .faultRaise src => to5 (execFaultRaise src t)
    | .wireFault src => to5 (execWireFault src t)
    | .heartbeatReceive p m f => to5 (execHeartbeatReceive p m f t)
    | .moveWdog core => to5 (execMoveWdog core t)
    | .clkCoastLimit g => to5 (execClkCoastLimit g t)
    | _ => false)

/-- A HOLD trigger falls on this command's clock, behind it (R28): in the state `t` it would take the part into HOLD. -/
def State.holdBehind (s t : State) : Bool := s.ties t.bringsHold

/-- COMMIT_EDGE (R28, R44): a HOLD trigger on its clock abandons it; else the step closes, the registers of R158 are read, and the new mode is in force or the stripe starts. -/
def execCommitEdge (s : State) : Outcome :=
  match s.run.cur with
  | some c =>
    if c.phase == StepPhase.applied && !s.holdBehind s then
      let s1 := { s with run := { s.run with cur := none, step := s.run.step + 1#32, closedAt := s.tim.elapsed, line := true } }.applyRegs.pulse 27
      match c.cmd with
      | none => .next s1.openNext
      | some k =>
        if k.handle ≠ 0 then .next (s1.startStripe k.handle k.pk).openNext
        else .next (((s1.changeMode k.target).complete k.pk (.ok s1.run.step.toNat)).openNext)
    else .next s
  | none => .next s

/-- STANDBY (R28, R309): the reply is written before the power-down starts. A HOLD trigger on its clock leaves it BAD_MODE. -/
def execStandby (pk : Packet) (s : State) : Outcome :=
  .next (s.decidePk pk ⟨0x05, fn01, [1], []⟩ fun t =>
    if s.holdBehind t then t.complete pk (.plain 0x04 0 0)
    else
    let t1 := if t.pwr.downCause = 0 then { t with pwr := { t.pwr with downCause := 1 } } else t
    t1.complete pk (.ok 0))

/-! ### STRIPE_CANCEL -/

/-- The first shot from which a command behind this one, on this clock, blanks the remainder of a stripe (R176): an event of the
escapement, of the link or of the SHOT clock, or a raise. -/
def State.blankedBy (s : State) (h : Nat) (c : Instr) : Option Nat :=
  let at_ (o : Outcome) : Option Nat := match o with
    | .next t => if (s.stripeOf h).isSome && (t.stripeOf h).isNone then t.bal.tail.bind (fun x => if x.remainder then some x.shots else none)
                 else none
    | _ => none
  match c with
  | .decision => at_ (execDecision s)
  | .sampleSlotMissing => at_ (execSampleSlotMissing s)
  | .encoderSample t d i => at_ (execEncoderSample t d i s)
  | .stall => at_ (execStall s)
  | .shotClockLimit => at_ (execShotClockLimit s)
  | .linkCoast => at_ (execLinkCoast s)
  | .statusMissing => at_ (execStatusMissing s)
  | .backchLockLoss n => at_ (execBackchLockLoss n s)
  | .strobeWatchdog x => at_ (execStrobeWatchdog x s)
  | .faultRaise src => at_ (execFaultRaise src s)
  | .wireFault src => at_ (execWireFault src s)
  | _ => none

/-- The first shot or interval of a cancel's remainder (R68, R176): its own, or a lower one that a condition of the same clock gives. -/
def State.cancelFrom (s : State) (h sb : Nat) : Nat :=
  if s.clocked then s.beforeTick.foldl (fun m c => match s.blankedBy h c with | some b => min m b | none => m) sb else sb

/-- STRIPE_CANCEL of a handle (R68): the state after it, and RESULT. A stripe whose remainder a condition of this clock has blanked for the
cancel already was firing (R176). -/
def State.cancel (s : State) (h : Nat) : State × Nat :=
  match s.stripeOf h with
  | none => (s, match s.esc.cancels with | some (k, t) => if k = h ∧ s.onCoreClock t then 2 else 0 | none => 0)
  | some x =>
    if x.phase == .admitted ∨ x.phase == .armed then
      let t := (s.endArms x).dropStripe h
      (if t.foot.handle = h then t.emptyFoot else t, 1)
    else if x.phase == .started then
      let s1 := (s.dropStripe h).boundary
      let s2 : State := { s1 with esc := { s1.esc with firing := none },
                                  dose := { s1.dose with shots := [], values := [], adds := [] } }
      (s2.commitReady, 1)
    else
      match s.esc.firing with
      | none => (s, 0)
      | some f =>
        let sb := if s.mode = 3 then s.scan.interval else f.pend
        if s.ends x ≤ sb then (s, 0) else (s.blankRest 0x0D (s.cancelFrom h sb) false false, 2)

/-- STRIPE_CANCEL (R68). -/
def execStripeCancel (pk : Packet) (s : State) : Outcome :=
  .next (s.decidePk pk ⟨0x13, [.h0], modesRunHold, [anyField 0x20 4]⟩ fun t =>
    let r := t.cancel (pkU pk 0x20 4)
    r.1.complete pk (.ok r.2))

/-! ### Acknowledgement -/

/-- A record after an acknowledgement (R330). -/
def ackRec (r : FaultRec) : FaultRec :=
  if r.state = 1 then
    if r.stands then { r with state := 2 } else { r with state := 0, carry := false }
  else r

/-- FAULT_ACK, once its parameters stand. A record raised on this clock stays unacknowledged (R333). -/
def State.faultAck (s : State) (pk : Packet) : State :=
  let v := pkU pk 0x20 2
  let hit (r : FaultRec) : Bool := r.state == 1 && (v == 0xFFFF || r.src == v) && !s.onClock r.at_
  let n := (s.flt.recs.filter hit).length
  { s with flt := { s.flt with recs := s.flt.recs.map (fun r => if hit r then ackRec r else r) } }.complete pk (.ok n)

/-- FAULT_ACK (R330). -/
def execFaultAck (pk : Packet) (s : State) : Outcome :=
  .next (s.decidePk pk ⟨0x91, fn01, modesAny, fFaultAck⟩ (fun t => t.faultAck pk))

/-! ### The log -/

/-- The 32 bytes of a log entry (Table 15-5), with LOST_BEFORE or without. -/
def logBytes (lost : Bool) (e : LogEntry) : List Byte :=
  leBytes 2 e.seq ++ leBytes 2 e.src ++ leBytes 1 e.sevCfg ++ leBytes 1 e.sev ++ leBytes 1 (e.flags + 32 * bit lost) ++
  leBytes 1 e.mode ++ leBytes 4 e.count ++ leBytes 4 e.detail ++ timeBytes e.sec e.ns e.frac

/-- The sequence number of the oldest entry kept. -/
def State.oldestSeq (s : State) : Nat := (s.flt.nextSeq + 65536 - s.flt.log.length % 65536) % 65536

/-- The entries from log sequence `seq` on, at most `max` (0: all), and whether `seq` is older than the oldest kept; sequence
numbers compare modulo 65,536 (log entry 69). -/
def State.logFrom (s : State) (seq max : Nat) : List LogEntry × Bool :=
  let d := signed 16 (seq + 65536 - s.oldestSeq)
  let l := if d < 0 then s.flt.log else s.flt.log.drop d.toNat
  (if max = 0 then l else l.take max, decide (d < 0))

/-- FAULT_READ, once its parameters stand (R334). Entries beyond MAX are no result data of this packet, and do not set MORE (log
entry 136). -/
def State.faultRead (s : State) (pk : Packet) : State :=
  let (l, lost) := s.logFrom (pkU pk 0x20 2) (pkU pk 0x22 2)
  let data := match l with
    | [] => []
    | e :: t => logBytes lost e ++ (t.map (logBytes false)).flatten
  s.replyRecords pk 32 data

/-- FAULT_READ (R334). -/
def execFaultRead (pk : Packet) (s : State) : Outcome :=
  .next (s.decidePk pk ⟨0x90, fnAll, modesAny, fFaultRead⟩ (fun t => t.faultRead pk))

/-! ### Severities and injection -/

/-- SEVERITY_SET (R329). -/
def execSeveritySet (pk : Packet) (s : State) : Outcome :=
  .next (s.decidePk pk ⟨0x93, [.h1], [1],
      [⟨0x20, 2, isSource⟩, ⟨0x22, 1, fun v => decide (v ≤ 4) && decide (minSev (pkU pk 0x20 2) ≤ v)⟩]⟩ fun t =>
    (t.setSev (pkU pk 0x20 2) (pkU pk 0x22 1)).complete pk (.ok 0))

/-- VALUE has the form of its source, or holds the pair itself (Table 15-6). -/
def injValueOk (src v : Nat) : Bool :=
  if bitAt v 31 then bits v 0 30 == 0
  else if injForm src = 1 then decide (v < 2 ^ 30)
  else decide (v < 2)

/-- An injection ends (R341): a condition that it alone made ends with it. -/
def State.endInjection (s : State) (src : Nat) : State :=
  match s.flt.inj.find? (fun j => j.src == src) with
  | none => s
  | some j =>
    let t : State := { s with flt := { s.flt with inj := s.flt.inj.filter (fun x => !(x.src == src)) } }
    if bitAt j.value 31 then t.wireEnd src else t.injEnd src

/-- The injections in ascending order of source. -/
def putInj (l : List Injection) (x : Injection) : List Injection :=
  match l with
  | [] => [x]
  | y :: t => if x.src < y.src then x :: y :: t else y :: putInj t x

/-- INJECT, once its parameters stand: it replaces an earlier injection of its source, and one of 0 µs only ends it. The detector compares
from the decision on. -/
def State.injectStart (s : State) (src v us : Nat) : State :=
  let t := s.endInjection src
  if us = 0 then t
  else
    let trip := t.valueTrips src v
    let u := if trip.isNone then t.tookFree else t
    { u with flt := { u.flt with inj := putInj u.flt.inj ⟨src, v, u.tim.elapsed + t16us us, trip.getD (bitAt t.freeVal 0), false⟩ } }.injCheck

/-- INJECT (R341). -/
def execInject (pk : Packet) (s : State) : Outcome :=
  .next (s.decidePk pk ⟨0x92, [.h1, .h2], [1],
      [⟨0x20, 2, isSource⟩, ⟨0x24, 4, injValueOk (pkU pk 0x20 2)⟩, anyField 0x28 4]⟩ fun t =>
    (t.injectStart (pkU pk 0x20 2) (pkU pk 0x24 4) (pkU pk 0x28 4)).complete pk (.ok 0))

/-- INJECTION_EXPIRY (R341). -/
def execInjectionExpiry (src : Nat) (s : State) : Outcome := .next (s.endInjection src)

/-! ### ALIVE -/

/-- ALIVE_TOGGLE (R337): an edge, every 50 µs. -/
def execAliveToggle (s : State) : Outcome :=
  if !s.aliveAllowed then .next s
  else
    let b := !s.flt.alive
    .next ({ s with flt := { s.flt with alive := b, edges := s.flt.edges + 1,
                                        aliveSince := if s.flt.edges = 0 then s.tim.elapsed else s.flt.aliveSince } }.emitPin (.alive b))

/-! ### Recovery -/

/-- An uncleared level record of effective severity 3 or above has its condition present (R339, R340). -/
def State.condStands (s : State) : Bool := s.flt.recs.any (fun r => decide (r.state ≠ 0) && decide (3 ≤ r.eff) && r.stands)

/-- The part may leave HOLD for SERVICE: no power-down is asked for or runs (log entry 68). -/
def State.mayRecover (s : State) : Bool :=
  s.mode == 5 && s.dom.main && s.pwr.downCause == 0 && decide (s.seqPhase < 2) && s.dom.resetting == 0

/-- QUIET_PERIOD_END (R339): ALLSTOP is cleared, unless the recovery latch holds it (R340). A raise of 2 or above on the same clock
restarts the period (R333). -/
def execQuietPeriodEnd (s : State) : Outcome :=
  if s.mode = 5 ∧ !s.condStands ∧ !s.flt.latched ∧ !s.onClock s.flt.lastSev2 then .next { s with flt := { s.flt with allstop := false } } else .next s

/-- The automatic recoveries of the last 3,600 s (R340). -/
def State.recentRecoveries (s : State) : List T16 :=
  s.flt.recTimes.filter (fun t => decide (s.tim.elapsed - t ≤ 3600000 * t16ms))

/-- AUTO_RECOVERY (R28, R339, R340): a HOLD trigger on its clock leaves the part in HOLD. -/
def execAutoRecovery (s : State) : Outcome :=
  if !s.mayRecover ∨ s.flt.allstop ∨ s.flt.latched ∨ !s.flag rFltRecovCfg 31 ∨ s.fld rFltHold 28 4 = 2 ∨ !s.flt.clearing.isEmpty then
    .next s
  else
    let l := s.recentRecoveries
    let lim := max 1 (s.fld rFltRecovCfg 16 8)
    if lim ≤ l.length then .next { s with flt := { s.flt with latched := true, allstop := true, recTimes := l } }
    else
      let s1 : State := { s with flt := { s.flt with recTimes := l ++ [s.tim.elapsed] } }
      let t := (s1.setFld rFltRecov 0 16 (satAdd 0xFFFF (s1.fld rFltRecov 0 16) 1)).enterService
      .next (if s.holdBehind t then s else t)

/-- CLEAR_HOLD (R340): the latch, ALLSTOP and the recovery times go at once; the reply comes with SERVICE. -/
def execClearHold (pk : Packet) (s : State) : Outcome :=
  .next (s.decidePk pk ⟨0x04, fn01, [5], []⟩ fun t =>
    { t with flt := { t.flt with allstop := false, latched := false, recTimes := [], clearing := t.flt.clearing ++ [pk] } })

/-- HOST_CLEAR_SERVICE_ENTRY (R28, R340): a HOLD trigger on its clock leaves the part in HOLD. -/
def execHostClearServiceEntry (s : State) : Outcome :=
  if s.flt.clearing.isEmpty ∨ !s.mayRecover ∨ s.condStands then .next s
  else
    let q := s.flt.clearing
    let s1 := ({ s with flt := { s.flt with clearing := [] } }.setFld rFltRecov 16 16
      (satAdd 0xFFFF (s.fld rFltRecov 16 16) 1)).enterService
    if s.holdBehind s1 then .next s
    else .next (q.foldl (fun t pk => t.complete pk (.ok 0)) s1)

end Sys2Proof.Machine
end

