-- ==== Sys2Proof/Machine/Crypto.lean ====
section
/-! DEFINITION. SHA-384 and the verification of ECDSA P-384 signatures, which R31 names and does not define: as FIPS 180-4 and
FIPS 186 define them (PRESUMED, log entry 75). -/

namespace Sys2Proof.Machine

/-! ### SHA-384 -/

/-- A word of SHA-384. -/
abbrev W64 : Type := BitVec 64

/-- The round constants of SHA-384. -/
def shaK : List Nat :=
  [0x428A2F98D728AE22, 0x7137449123EF65CD, 0xB5C0FBCFEC4D3B2F, 0xE9B5DBA58189DBBC,
   0x3956C25BF348B538, 0x59F111F1B605D019, 0x923F82A4AF194F9B, 0xAB1C5ED5DA6D8118,
   0xD807AA98A3030242, 0x12835B0145706FBE, 0x243185BE4EE4B28C, 0x550C7DC3D5FFB4E2,
   0x72BE5D74F27B896F, 0x80DEB1FE3B1696B1, 0x9BDC06A725C71235, 0xC19BF174CF692694,
   0xE49B69C19EF14AD2, 0xEFBE4786384F25E3, 0x0FC19DC68B8CD5B5, 0x240CA1CC77AC9C65] ++
  [0x2DE92C6F592B0275, 0x4A7484AA6EA6E483, 0x5CB0A9DCBD41FBD4, 0x76F988DA831153B5,
   0x983E5152EE66DFAB, 0xA831C66D2DB43210, 0xB00327C898FB213F, 0xBF597FC7BEEF0EE4,
   0xC6E00BF33DA88FC2, 0xD5A79147930AA725, 0x06CA6351E003826F, 0x142929670A0E6E70,
   0x27B70A8546D22FFC, 0x2E1B21385C26C926, 0x4D2C6DFC5AC42AED, 0x53380D139D95B3DF,
   0x650A73548BAF63DE, 0x766A0ABB3C77B2A8, 0x81C2C92E47EDAEE6, 0x92722C851482353B] ++
  [0xA2BFE8A14CF10364, 0xA81A664BBC423001, 0xC24B8B70D0F89791, 0xC76C51A30654BE30,
   0xD192E819D6EF5218, 0xD69906245565A910, 0xF40E35855771202A, 0x106AA07032BBD1B8,
   0x19A4C116B8D2D0C8, 0x1E376C085141AB53, 0x2748774CDF8EEB99, 0x34B0BCB5E19B48A8,
   0x391C0CB3C5C95A63, 0x4ED8AA4AE3418ACB, 0x5B9CCA4F7763E373, 0x682E6FF3D6B2B8A3,
   0x748F82EE5DEFB2FC, 0x78A5636F43172F60, 0x84C87814A1F0AB72, 0x8CC702081A6439EC] ++
  [0x90BEFFFA23631E28, 0xA4506CEBDE82BDE9, 0xBEF9A3F7B2C67915, 0xC67178F2E372532B,
   0xCA273ECEEA26619C, 0xD186B8C721C0C207, 0xEADA7DD6CDE0EB1E, 0xF57D4F7FEE6ED178,
   0x06F067AA72176FBA, 0x0A637DC5A2C898A6, 0x113F9804BEF90DAE, 0x1B710B35131C471B,
   0x28DB77F523047D84, 0x32CAAB7B40C72493, 0x3C9EBE0A15C9BEBC, 0x431D67C49C100D4C,
   0x4CC5D4BECB3E42B6, 0x597F299CFC657E2A, 0x5FCB6FAB3AD6FAEC, 0x6C44198C4A475817]

/-- The initial hash value of SHA-384. -/
def shaInit : List W64 :=
  [0xCBBB9D5DC1059ED8#64, 0x629A292A367CD507#64, 0x9159015A3070DD17#64, 0x152FECD8F70E5939#64,
   0x67332667FFC00B31#64, 0x8EB44A8768581511#64, 0xDB0C2E0D64F98FA7#64, 0x47B5481DBEFA4FA4#64]

/-- The message schedule, newest word first: `n` words are added to it. -/
def shaSchedule : Nat → List W64 → List W64
  | 0, w => w
  | n + 1, w =>
    let a := w.getD 14 0#64
    let b := w.getD 1 0#64
    let s0 := a.rotateRight 1 ^^^ a.rotateRight 8 ^^^ (a >>> 7)
    let s1 := b.rotateRight 19 ^^^ b.rotateRight 61 ^^^ (b >>> 6)
    shaSchedule n ((w.getD 15 0#64 + s0 + w.getD 6 0#64 + s1) :: w)

/-- The working variables of a round. -/
structure ShaVars where
  a : W64
  b : W64
  c : W64
  d : W64
  e : W64
  f : W64
  g : W64
  h : W64

/-- One round, with its constant and its word of the schedule. -/
def shaRound (v : ShaVars) (kw : Nat × W64) : ShaVars :=
  let s1 := v.e.rotateRight 14 ^^^ v.e.rotateRight 18 ^^^ v.e.rotateRight 41
  let t1 := v.h + s1 + ((v.e &&& v.f) ^^^ (~~~v.e &&& v.g)) + BitVec.ofNat 64 kw.1 + kw.2
  let s0 := v.a.rotateRight 28 ^^^ v.a.rotateRight 34 ^^^ v.a.rotateRight 39
  let t2 := s0 + ((v.a &&& v.b) ^^^ (v.a &&& v.c) ^^^ (v.b &&& v.c))
  ⟨t1 + t2, v.a, v.b, v.c, v.d + t1, v.e, v.f, v.g⟩

/-- The hash value after one block of 128 bytes. -/
def shaBlock (hv : List W64) (blk : List Byte) : List W64 :=
  let w16 := (List.range 16).map (fun i => BitVec.ofNat 64 (beNat (slice blk (8 * i) 8)))
  let w := (shaSchedule 64 w16.reverse).reverse
  let x (i : Nat) : W64 := hv.getD i 0#64
  let v := (shaK.zip w).foldl shaRound ⟨x 0, x 1, x 2, x 3, x 4, x 5, x 6, x 7⟩
  [x 0 + v.a, x 1 + v.b, x 2 + v.c, x 3 + v.d, x 4 + v.e, x 5 + v.f, x 6 + v.g, x 7 + v.h]

/-- `n` blocks of a padded message. -/
def shaBlocks : Nat → List W64 → List Byte → List W64
  | 0, hv, _ => hv
  | n + 1, hv, bs => shaBlocks n (shaBlock hv (bs.take 128)) (bs.drop 128)

/-- The SHA-384 digest of a message. -/
def sha384 (m : List Byte) : List Byte :=
  let z := (239 - m.length % 128) % 128
  let p := m ++ [0x80#8] ++ zeros z ++ beBytes 16 (8 * m.length)
  (((shaBlocks (p.length / 128) shaInit p).take 6).map (fun w => beBytes 8 w.toNat)).flatten

/-! ### ECDSA on P-384 -/

/-- The prime of the field. -/
def ecP : Nat := 2 ^ 384 - 2 ^ 128 - 2 ^ 96 + 2 ^ 32 - 1
/-- The order of the group. -/
def ecN : Nat :=
  39402006196394479212279040100143613805079739270465446667946905279627659399113263569398956308152294913554433653942643
/-- The coefficient b of the curve. -/
def ecB : Nat := 0xB3312FA7E23EE7E4988E056BE3F82D19181D9C6EFE8141120314088F5013875AC656398D8A2ED19D2A85C8EDD3EC2AEF
/-- The base point. -/
def ecG : Nat × Nat :=
  (0xAA87CA22BE8B05378EB1C71EF320AD746E1D3B628BA79B9859F741E082542A385502F25DBF55296C3A545E3872760AB7,
   0x3617DE4A96262C6F5D9E98BF9292DC29F8F41DBD289A147CE9DA3113B5F0B8C00A60B1CE1D7E819D7A431D7C90EA0E5F)

/-- `b ^ e` modulo `m`, over the low bits of `e` that the first argument counts. -/
def powMod (m : Nat) : Nat → Nat → Nat → Nat
  | 0, _, _ => 1 % m
  | k + 1, b, e =>
    let r := powMod m k (b * b % m) (e / 2)
    if e % 2 = 1 then r * b % m else r

/-- The inverse of `a` modulo a prime below 2^384. -/
def invMod (m a : Nat) : Nat := powMod m 384 (a % m) (m - 2)

/-- `a - b` modulo `m`, for `b < m`. -/
def subMod (m a b : Nat) : Nat := (a + m - b) % m

/-- A point of the curve in Jacobian coordinates: (x, y, z) stands for (x / z², y / z³), and z = 0 for the point at infinity. -/
abbrev EcPoint : Type := Nat × Nat × Nat

/-- Twice a point, for the curve's a = -3. -/
def ecDouble (p : EcPoint) : EcPoint :=
  let (x, y, z) := p
  let yy := y * y % ecP
  let m := 3 * (x * x + (ecP - 1) * (z * z % ecP * (z * z % ecP))) % ecP
  let s := 4 * x * yy % ecP
  let x3 := (m * m + (ecP - 2) * s) % ecP
  (x3, (m * subMod ecP s x3 + (ecP - 8) * (yy * yy)) % ecP, 2 * y * z % ecP)

/-- The sum of two points. -/
def ecAdd (p q : EcPoint) : EcPoint :=
  let (x1, y1, z1) := p
  let (x2, y2, z2) := q
  if z1 = 0 then q
  else if z2 = 0 then p
  else
    let u1 := x1 * (z2 * z2) % ecP
    let u2 := x2 * (z1 * z1) % ecP
    let s1 := y1 * (z2 * z2 * z2) % ecP
    let s2 := y2 * (z1 * z1 * z1) % ecP
    if u1 = u2 then (if s1 = s2 then ecDouble p else (1, 1, 0))
    else
      let h := subMod ecP u2 u1
      let r := subMod ecP s2 s1
      let hh := h * h % ecP
      let v := u1 * hh % ecP
      let x3 := (r * r + (ecP - 2) * v + (ecP - 1) * (h * hh % ecP)) % ecP
      (x3, (r * subMod ecP v x3 + (ecP - 1) * (s1 * (h * hh % ecP) % ecP)) % ecP, h * z1 * z2 % ecP)

/-- A multiple of a point, over the low bits of the factor that the first argument counts. -/
def ecMul : Nat → Nat → EcPoint → EcPoint
  | 0, _, _ => (1, 1, 0)
  | n + 1, k, p =>
    let r := ecMul n (k / 2) (ecDouble p)
    if k % 2 = 1 then ecAdd r p else r

/-- The point lies on the curve. -/
def ecOn (x y : Nat) : Bool :=
  decide (x < ecP) && decide (y < ecP) && y * y % ecP == (x * x * x + (ecP - 3) * x + ecB) % ecP

/-- Whether the 96 bytes `rs` sign the digest `z` under an uncompressed public key of 97 bytes. -/
def ecdsaOk (key z rs : List Byte) : Bool :=
  let x := beNat (slice key 1 48)
  let y := beNat (slice key 49 48)
  let r := beNat (slice rs 0 48)
  let s := beNat (slice rs 48 48)
  if key.length ≠ 97 ∨ getU key 0 1 ≠ 4 ∨ !ecOn x y ∨ r = 0 ∨ ecN ≤ r ∨ s = 0 ∨ ecN ≤ s then false
  else
    let w := invMod ecN s
    let (px, _, pz) := ecAdd (ecMul 384 (beNat z * w % ecN) (ecG.1, ecG.2, 1)) (ecMul 384 (r * w % ecN) (x, y, 1))
    pz != 0 && px * invMod ecP (pz * pz) % ecP % ecN == r

end Sys2Proof.Machine
end

