-- ==== Sys2Proof/Machine/Image.lean ====
section
/-! DEFINITION. The configuration image (R29–R33): its header and directory, its authentication, and what each section sets. -/

namespace Sys2Proof.Machine

/-! ### Header, directory and authentication -/

/-- A directory entry (Table 2-3). -/
structure Section where
  type : Nat
  resv : Nat
  off  : Nat
  len  : Nat
deriving DecidableEq, Repr

/-- LENGTH of the image at the start of a flash slot, where the header stands (Table 2-3): none for a slot that holds no image. -/
def imageLength (slot : List Byte) : Option Nat :=
  let len := getU slot 8 4
  let n := getU slot 0x12 2
  if getU slot 0 4 = 0x46435A4E ∧ getU slot 4 2 = 1 ∧ len % 4 = 0 ∧ len ≤ 0x1000000 ∧ len ≤ slot.length ∧
      1 ≤ n ∧ n ≤ 64 ∧ 0x20 + 12 * n + 96 ≤ len ∧ getU slot 0x11 1 < 3 then some len
  else none

/-- The image in a flash slot. -/
def imageIn (slot : List Byte) : Option (List Byte) := (imageLength slot).map slot.take

/-- The bytes that the signature covers (R31). -/
def signedBytes (img : List Byte) : List Byte := img.take (img.length - 96)

/-- The directory. -/
def sections (img : List Byte) : List Section :=
  (List.range (getU img 0x12 2)).map (fun i =>
    let o := 0x20 + 12 * i
    ⟨getU img o 2, getU img (o + 2) 2, getU img (o + 4) 4, getU img (o + 8) 4⟩)

/-- The bytes of the first section of a type. -/
def sectionOf (img : List Byte) (type : Nat) : Option (List Byte) :=
  ((sections img).find? (fun e => e.type == type)).map (fun e => slice img e.off e.len)

/-- The image authenticates (R31): its key is the one fused in KEYSLOT, the slot is not revoked, and the signature verifies. -/
def State.authentic (s : State) (img : List Byte) : Bool :=
  match sectionOf img 1, s.dom.otp[getU img 0x11 1]? with
  | some key, some slot =>
    !slot.revoked && sha384 key == slot.digest && ecdsaOk key (sha384 (signedBytes img)) (img.drop (img.length - 96))
  | _, _ => false

/-- The image the AOC takes (R29): slot A if it authenticates, else slot B if that does; whether it is slot B. -/
def State.pickImage (s : State) (fl : Flash) : Option (Bool × List Byte) :=
  let ok (slot : List Byte) : Option (List Byte) := (imageIn slot).filter s.authentic
  match ok fl.slotA with
  | some img => some (false, img)
  | none => (ok fl.slotB).map (fun img => (true, img))

/-! ### What can be wrong with a section -/

/-- Why an image does not load: the section's TYPE, and its entry where one is at fault. -/
abbrev LoadError : Type := Nat × Option Nat

/-- What a part of the load does: a new state, or the failure of the load. -/
abbrev Loader : Type := State → Except LoadError State

/-- The section types of Table 2-4 that an image must hold. -/
def requiredTypes : List Nat := [0x01, 0x10, 0x11, 0x12, 0x13, 0x15, 0x16, 0x17, 0x19, 0x1A, 0x1B]

/-- The other section types of Table 2-4. -/
def optionalTypes : List Nat := [0x14, 0x18, 0x1C]

/-- The directory is in order (R32): header and entries well formed, types known, required types there once. A header field that
authentication does not use fails the load, under section code 0 (log entry 134). -/
def directoryError (img : List Byte) : Option LoadError :=
  let l := sections img
  if getU img 6 2 / 4 ≠ 0 ∨ 63 < getU img 0x10 1 ∨ getU img 0x14 12 ≠ 0 then some (0, none)
  else
    match l.find? (fun e => !(requiredTypes.contains e.type || optionalTypes.contains e.type) || e.resv != 0 ||
        decide (img.length < e.off + e.len + 96)) with
    | some e => some (e.type, none)
    | none => (requiredTypes.find? (fun t => (l.filter (fun e => e.type == t)).length != 1)).map (fun t => (t, none))

/-- The first index below `n` for which `f` holds. -/
def firstIdx (n : Nat) (f : Nat → Bool) : Option Nat := (List.range n).find? f

/-- A section is loaded entry by entry. -/
def loadEntries (type : Nat) (f : Nat → State → Option State) : List Nat → Loader
  | [], s => .ok s
  | i :: t, s => match f i s with
    | some u => loadEntries type f t u
    | none => .error (type, some i)

/-- A section that the image may leave out. -/
def optionalSection (img : List Byte) (type : Nat) (f : List Byte → Loader) : Loader := fun s =>
  match sectionOf img type with
  | some b => f b s
  | none => .ok s

/-- A required section; the directory has been checked. -/
def requiredSection (img : List Byte) (type : Nat) (f : List Byte → Loader) : Loader := fun s =>
  match sectionOf img type with
  | some b => f b s
  | none => .error (type, none)

/-- One part of the load after the other. -/
def loadAll : List Loader → Loader
  | [], s => .ok s
  | f :: t, s => match f s with
    | .ok u => loadAll t u
    | .error e => .error e

/-! ### The rail table (R300, R301) -/

/-- Word i of rail n in the rail table section. -/
def railWord (b : List Byte) (n i : Nat) : Nat := getU b (20 * n + 4 * i) 4
/-- EN of rail n in the section. -/
def railWordEn (b : List Byte) (n : Nat) : Bool := bitAt (railWord b n 0) 31
/-- HV of rail n in the section. -/
def railWordHv (b : List Byte) (n : Nat) : Bool := bitAt (railWord b n 0) 30
/-- STEP of rail n in the section. -/
def railWordStep (b : List Byte) (n : Nat) : Nat := bits (railWord b n 0) 8 6
/-- SENSE of rail n in the section. -/
def railWordSense (b : List Byte) (n : Nat) : Nat := bits (railWord b n 0) 16 5
/-- Rail n depends on rail m in the section. -/
def railWordDep (b : List Byte) (n m : Nat) : Bool := bitAt (railWord b n 1) m

/-- The rails that `l` depends on, directly or through others. -/
def railReach (b : List Byte) (l : List Nat) : Nat → List Nat
  | 0 => l
  | k + 1 => railReach b (l ++ rails.filter (fun m => !l.contains m && l.any (fun n => railWordDep b n m))) k

/-- Rail n breaks a rule of R301; `zones` are the channels that heater zones name. -/
def railBroken (b : List Byte) (zones : List Nat) (n : Nat) : Bool :=
  let deps := rails.filter (fun m => railWordDep b n m)
  let low := rails.filter (fun m => railWordEn b m && !railWordHv b m)
  railWordEn b n &&
    (deps.any (fun m => !railWordEn b m || m == n) || (railReach b deps 24).contains n ||
     (railWordHv b n && (decide (24 ≤ railWordSense b n) || bitAt (railWord b n 0) 29 ||
        low.any (fun m => !railWordDep b n m || decide (railWordStep b n < railWordStep b m)))) ||
     deps.any (fun m => decide (railWordStep b n < railWordStep b m)) ||
     (decide (railWordSense b n < 24) && (zones.contains (railWordSense b n) ||
        rails.any (fun m => m != n && railWordEn b m && railWordSense b m == railWordSense b n))))

/-- The channels that the heater section names. -/
def zoneChannels (img : List Byte) : List Nat :=
  match sectionOf img 0x14 with
  | some b => (List.range 6).map (fun i => bits (getU b (92 * i + 4) 4) 0 5)
  | none => []

/-- What is wrong with the rail table of an image. -/
def railsError (img b : List Byte) : Option LoadError :=
  if b.length ≠ 480 then some (0x13, none)
  else (firstIdx 24 (railBroken b (zoneChannels img))).map (fun n => (0x13, some n))

/-- The configuration load writes a register (R377): RWL fields are not refused. -/
def State.loadWr (s : State) (off v : Nat) : State := s.writeByType true off v

/-- The rail table reaches PWR_RCFG, PWR_RDEP, PWR_RTIME, PWR_RLIM and PWR_ROFF. -/
def State.writeRails (s : State) (b : List Byte) : State :=
  rails.foldl (fun t n => (List.range 5).foldl (fun u i => u.loadWr (rPwrRcfg n + 4 * i) (railWord b n i)) t) s

/-- The rail table section is applied, and kept in always-on RAM (R33). -/
def loadRails (img : List Byte) (b : List Byte) : Loader := fun s =>
  match railsError img b with
  | some e => .error e
  | none => .ok ({ s with dom := { s.dom with railTable := b } }.writeRails b)

/-! ### The clock plan (R272) -/

/-- The entries of a plan: offset and value. -/
def planEntries (b : List Byte) : List (Nat × Nat) :=
  (List.range (b.length / 8)).map (fun i => (getU b (8 * i) 4, getU b (8 * i + 4) 4))

/-- An offset of the CLK block with a field that can be written. -/
def clkWritable (off : Nat) : Bool :=
  off / 0x10000 == 6 && (match regAt off with | some r => (r.rw ||| r.rwl ||| r.w1c) != 0 | none => false)

/-- An offset of CLK_PLL. -/
def isPll (off : Nat) : Bool := (List.range 6).any (fun g => rClkPll g == off)

/-- What is wrong with a clock plan. -/
def planError (b : List Byte) : Option LoadError :=
  if b.length % 8 ≠ 0 then some (0x12, none)
  else (firstIdx (b.length / 8) (fun i => !clkWritable (getU b (8 * i) 4))).map (fun i => (0x12, some i))

/-- At a wake the plan's CLK_PLL entries come into force before the generators start (R272). -/
def State.applyPlls (s : State) : State :=
  (s.clk.plan.filter (fun e => isPll e.1)).foldl (fun t e => t.loadWr e.1 e.2) s

/-- An entry of the plan takes effect: a CLK_OUT entry reaches its output (R280). -/
def State.planEntry (s : State) (off v : Nat) : State :=
  let t := s.loadWr off v
  match (List.range 4).find? (fun n => rClkOut n == off) with
  | some n => t.clkOutSet n
  | none => t

/-- The plan is kept, and its other entries take effect at once; its CLK_PLL entries wait for the next wake (R272). -/
def loadPlan (b : List Byte) : Loader := fun s =>
  match planError b with
  | some e => .error e
  | none =>
    let l := planEntries b
    .ok ((l.filter (fun e => !isPll e.1)).foldl (fun t e => t.planEntry e.1 e.2) { s with clk := { s.clk with plan := l } })

/-! ### Functions, pads, job store, mailboxes -/

/-- The PCIe identity section: FUNC of the queues it sets (R48), and the peer range of Requester IDs (R345). Its format is no rule's (log
entry 4). -/
def loadPcie (b : List Byte) : Loader := fun s0 =>
  match Config.pcieFuncs b with
  | none => .error (0x10, none)
  | some l =>
    let s : State := { s0 with dom := { s0.dom with peers := some (Config.pciePeers b) } }
    .ok ((l.zipIdx).foldl (fun t p => match p with
      | (some f, q) => if q < 16 then t.setFld (rCmdQctl q) 24 2 f.val else t
      | (none, _) => t) s)

/-- A pad write of the section names a PAD register with fields of the load and a function that the GPIO offers. -/
def padEntryOk (p : Nat × Nat) : Bool :=
  p.1 / 0x10000 == 19 && rwlMask p.1 != 0 &&
    (!(decide (0x130000 ≤ p.1) && decide (p.1 < 0x1300C0)) || gpioOffers ((p.1 - 0x130000) / 4) (bits p.2 28 4))

/-- The pad section. Its format is no rule's (log entry 4). -/
def loadPads (b : List Byte) : Loader := fun s =>
  match Config.padWrites b with
  | none => .error (0x11, none)
  | some l =>
    loadEntries 0x11 (fun i t => match l[i]? with
      | some p => if padEntryOk p then some (t.loadWr p.1 p.2) else none
      | none => some t) (List.range l.length) s

/-- What is wrong with a training table (Table 11-5). -/
def trainBad (b : List Byte) : Bool :=
  let zero (o n : Nat) : Bool := getU b o n == 0
  b.length != 4416 || getU b 0 2 != 1 || decide (3 < getU b 2 1) || decide (7 < getU b 3 1) || getU b 4 2 == 0 || !zero 6 58 ||
  (List.range 16).any (fun i => !zero (0x140 + 256 * i + 202) 54) ||
  (!bitAt (getU b 3 1) 2 && (List.range 16).any (fun i => i % 4 / 2 == 1 && !zero (0x140 + 256 * i) 256))

/-- The DDR5 training table (R246): kept for bring-up, and shown in MEM_CFG, MEM_SCRUB and MEM_TEMP. -/
def loadTrain (b : List Byte) : Loader := fun s =>
  if trainBad b then .error (0x16, none)
  else
    let g := getU b 3 1
    let size := bit (!bitAt g 0) + bit (bitAt g 1) + bit (bitAt g 2)
    let cfg := 256 * getU b 2 1 + 32 * bit (bitAt g 2) + 16 * bit (bitAt g 1) + 8 * bit (bitAt g 0) + size
    let t := ({ s with ddr := { s.ddr with train := b } }.wr rMemCfg cfg).setFld rMemScrub 0 16 (getU b 4 2)
    .ok ((List.range 4).foldl (fun u c => u.setFld (rMemTemp c) 8 8 (getU b (0x42 + 64 * c) 1)) t)

/-- A code names an identity (Table 16-2). -/
def isIdentity (c : Nat) : Bool := decide (c < 5) || (decide (7 ≤ c) && decide (c ≤ 11))

/-- An entry of the binding table that fails the load (R346), be its channel in use or not. -/
def bindBad (w : Nat) : Bool :=
  let a := bits w 24 4
  let b := bits w 20 4
  a == b || b == 11 || !isIdentity a || !isIdentity b || decide (27 < bits w 12 5)

/-- The mailbox binding table (R346): written, then locked. -/
def loadBind (b : List Byte) : Loader := fun s =>
  if b.length ≠ 192 then .error (0x17, none)
  else
    match firstIdx 48 (fun i => bindBad (getU b (4 * i) 4)) with
    | some i => .error (0x17, some i)
    | none => .ok ((List.range 48).foldl (fun t i => t.loadWr (rMbxBind i) (getU b (4 * i) 4)) s).setMbxLock

/-! ### Severities, time, roster, firmware -/

/-- The fault-severity section (R329). -/
def loadSevs (b : List Byte) : Loader := fun s =>
  if b.length % 4 ≠ 0 then .error (0x18, none)
  else
    loadEntries 0x18 (fun i t =>
      let src := getU b (4 * i) 2
      let v := getU b (4 * i + 2) 1
      if isSource src && decide (v ≤ 4) && decide (minSev src ≤ v) && getU b (4 * i + 3) 1 == 0 then some (t.setSev src v)
      else none) (List.range (b.length / 4)) s

/-- An offset that the time section may set (R272). -/
def timWritable (off : Nat) : Bool :=
  off == rTimJmax || [0, 1].any (fun p => off == rTimPcfg p || off == rTimPint p || off == rTimIgl p || off == rTimEgl p || off == rTimAsym p)

/-- The time section (R272): MAC addresses, clock identity and quality, and register values. -/
def loadTime (b : List Byte) : Loader := fun s =>
  if b.length < 32 ∨ b.length % 8 ≠ 0 ∨ getU b 24 8 ≠ 0 then .error (0x19, none)
  else
    let mac (p : Nat) : Nat := beNat (slice b (6 * p) 6)
    let t : State := { s with net := { s.net with
      ports := s.net.ports.zipIdx.map (fun x => { x.1 with mac := mac x.2 }), clockId := beNat (slice b 12 8), clockQual := getU b 20 1 * 2 ^ 24 + getU b 21 1 * 2 ^ 16 + getU b 22 2 } }
    loadEntries 0x19 (fun i u =>
      let o := getU b (32 + 8 * i) 4
      let en (p : Nat) : Bool := u.flag (rTimPcfg p) 31
      if timWritable o then some (((u.loadWr o (getU b (36 + 8 * i) 4)).takePcfg 0 (en 0)).takePcfg 1 (en 1)) else none)
      (List.range ((b.length - 32) / 8)) t

/-- The roster section. Its format is no rule's (log entry 4). -/
def loadRoster (b : List Byte) : Loader := fun s =>
  match Config.sectionRoster b with
  | none => .error (0x1A, none)
  | some l => .ok { s with net := { s.net with roster := l.filter (fun i => decide (i < 64)) } }

/-- MASTER of the general DMA channels, as the image gives it (Table 10-1, log entry 135). -/
def loadDmaMasters (img : List Byte) : Loader := fun s =>
  .ok ((List.range 8).foldl (fun t i => t.setFld (rDmaCtl (i + 4)) 4 4 ((Config.dmaMaster img i) % 16)) s)

/-- The firmware section. Its format is no rule's (log entry 4). -/
def loadFirmware (b : List Byte) : Loader := fun s => if Config.firmwareOk b then .ok s else .error (0x1B, none)

/-! ### Claims, heaters, axes -/

/-- A code of Table 2-8 that can own something. -/
def isOwner (o : Nat) : Bool :=
  (decide (0x10 ≤ o) && decide (o < 0x26)) || [0x30, 0x31, 0x32, 0x40, 0x41, 0x42].contains o

/-- The pinned claims of every configuration (R39). -/
def State.pinnedClaims (s : State) : State :=
  let t := (s.grant 15 0x30 17).grant 15 0x41 19
  if t.scnPort then t else t.grant 15 0x40 18

/-- The claims section (R37): a claim of a resource that has an owner fails the load, and leaves CLM_LAST and CLM_NCONF as they are
(log entry 133). Its format is no rule's (log entry 4). -/
def loadClaims (b : List Byte) : Loader := fun s =>
  match Config.sectionClaims b with
  | none => .error (0x15, none)
  | some l =>
    loadEntries 0x15 (fun i t => match l[i]? with
      | some (r, o) => if decide (r < 20) && isOwner o && !t.clmHeld r then some (t.grant 15 o r) else none
      | none => some t) (List.range l.length) s

/-- The heater section (R317): an enabled zone holds a pinned claim. -/
def loadHeaters (b : List Byte) : Loader := fun s =>
  if b.length ≠ 552 then .error (0x14, none)
  else
    loadEntries 0x14 (fun i t =>
      let e := slice b (92 * i) 92
      let z := getU e 0 1
      if 6 ≤ z ∨ getU e 1 3 ≠ 0 then none
      else
        let w (k : Nat) : Nat := getU e (4 + 4 * k) 4
        let t1 := (List.range 5).foldl (fun u k => u.loadWr (rThmCfg z + 4 * k) (w k)) t
        let t2 := (List.range 17).foldl (fun u k => u.loadWr (rThmCal z k) (w (5 + k))) t1
        let t3 := if bitAt (w 0) 30 then (t2.setFlag (rThmCfg z) 30 false).startZone z else t2
        if bitAt (w 0) 31 || bitAt (w 0) 30 then t3.takeZoneTimer 15 z else some t3) (List.range 6) s

/-- The motion section (R283, R284): claims made from the image are pinned. -/
def loadAxes (b : List Byte) : Loader := fun s =>
  if b.length % 72 ≠ 0 then .error (0x1C, none)
  else
    loadEntries 0x1C (fun i t =>
      let e := slice b (72 * i) 72
      let a := getU e 0 1
      if 8 ≤ a ∨ getU e 1 7 ≠ 0 ∨ (profileBad (e.drop 8)).isSome then none
      else t.axisConfig 15 a (e.drop 8)) (List.range (b.length / 72)) s

/-! ### The whole load -/

/-- GLB_CFG, GLB_VERSION and GLB_DIGEST (R382). -/
def State.showImage (s : State) (img digest : List Byte) (slotB fallback : Bool) : State :=
  let cfg := bit fallback * 2 ^ 31 + bit slotB * 2 ^ 30 + bit (bitAt (getU img 6 2) 1) * 2 ^ 29 + getU img 0x10 1 % 64 * 65536 +
    getU img 0x11 1
  let t := (s.wr rGlbCfg cfg).wr rGlbVersion (getU img 0xC 4)
  (List.range 12).foldl (fun u n => u.wr (rGlbDigest n) (getU digest (4 * n) 4)) t

/-- The sections of an image, in the order in which the model applies them (log entry 73). -/
def imageLoaders (img : List Byte) : List Loader :=
  [requiredSection img 0x10 loadPcie, requiredSection img 0x11 loadPads, requiredSection img 0x12 loadPlan,
   requiredSection img 0x13 (loadRails img), requiredSection img 0x16 loadTrain, requiredSection img 0x17 loadBind,
   optionalSection img 0x18 loadSevs, requiredSection img 0x19 loadTime, requiredSection img 0x1A loadRoster,
   requiredSection img 0x1B loadFirmware, loadDmaMasters img, requiredSection img 0x15 loadClaims, optionalSection img 0x14 loadHeaters,
   optionalSection img 0x1C loadAxes]

/-- The sections of an authentic image are applied (R32, R33); none of them is where one fails. -/
def State.loadImage (s : State) (img : List Byte) : Except LoadError State :=
  match directoryError img with
  | some e => .error e
  | none => loadAll (imageLoaders img) s.pinnedClaims

end Sys2Proof.Machine
end

