-- ==== Sys2Proof/Machine/Boot.lean ====
section
/-! DEFINITION. Power-up of the always-on domain, wakes, the cold start, the configuration load and the resets (R29–R36,
R378–R381), the TAP (R369, R370) and the die temperature (R368). -/

namespace Sys2Proof.Machine

/-! ### Wakes -/

/-- The power-up sequence starts (R34, R302, R303): the main domain's fields take their reset values, the plan's CLK_PLL entries
come into force, every rail waits for its step, and the part releases SEQ_SYNC. -/
def State.startWake (s : State) : State :=
  let s0 := (s.mainEpochs.setFld rGlbRstcause 28 4 4)
  let s1 : State := { s0 with
    regs := keptRegs s0.regs
    dom := { s0.dom with wakeKept := false, resetting := 0 }
    pwr := { s0.pwr with steps := 0, discharging := none, holdList := [] } }
  let s2 := rails.foldl (fun t n =>
    if t.railUsed n then (((t.setFld (rPwrRstat n) 20 9 0).setRailState n 1).updRail n
      (fun r => { r with skipped := false, fell := false, chat := 0, expired := false, met := false })) else t) s1
  ((((s2.applyPlls.setPhase 1).setFld rPwrSeq 8 6 0).setFlag rPwrSeq 28 false)).startClocks

/-- The part is in STANDBY, and nothing keeps it from waking. -/
def State.mayWake (s : State) : Bool :=
  s.dom.aon && s.mode == 0 && s.seqPhase == 0 && s.pwr.downCause == 0 && !s.dom.main && s.dom.imageOk && !s.dom.coldPend

/-- A power-down runs or is asked for. -/
def State.goingDown (s : State) : Bool := decide (2 ≤ s.seqPhase) || s.pwr.downCause != 0

/-- A wake (R33, R34): refused where no image authenticates, kept during a power-down. -/
def State.wakeNow (s : State) : State :=
  if s.mayWake then s.startWake
  else if s.dom.aon && s.goingDown then { s with dom := { s.dom with wakeKept := true } }
  else s

/-- WAKE (R34): WAKE_N, or a request kept from a power-down. -/
def execWake (src : WakeSource) (s : State) : Outcome :=
  match src with
  | .wakeN => .next s.wakeNow
  | .kept => if s.dom.wakeKept && s.mayWake then .next s.startWake else .next s

/-- AOC_SCHEDULE_ENTRY (R34, R309): a wake, or a power-down from SERVICE (Table 2-2). -/
def execAocScheduleEntry (toStandby : Bool) (s : State) : Outcome :=
  if !toStandby then .next s.wakeNow
  else if s.mode = 1 ∧ !s.goingDown then .next { s with pwr := { s.pwr with downCause := 1 } }
  else .next s

/-! ### Always-on power -/

/-- The state in which the always-on domain starts (R378): what the model itself counts goes on, and so does the OTP. -/
def State.aonFresh (s : State) (aon : Bool) : State :=
  { State.reset with
    pending := s.pending, hostMem := s.hostMem, out := s.out, free := s.free
    cmd := { CmdState.reset with nextId := s.cmd.nextId }
    tim := { TimState.reset with elapsed := s.tim.elapsed }
    bal := { BalState.reset with blankAll := aon }
    dom := { Domain.reset with aon := aon, otp := s.dom.otp } }

/-- A cold reset of everything but always-on RAM (R378): the fault log, the snapshot buffer, the mailbox slots and the
availability counters stay, and every epoch increments. -/
def State.coldFresh (s : State) : State :=
  let t0 := s.aonFresh true
  let t1 : State := { t0 with
    flt := { t0.flt with log := s.flt.log, nextSeq := s.flt.nextSeq, downT := s.flt.downT, outage := s.flt.outage, credit := s.flt.credit }
    snap := s.snap
    tim := { t0.tim with upNs := s.tim.upNs }
    mbx := { t0.mbx with chans := s.mbx.chans, shms := s.mbx.shms.map (fun x => { x with owner := 0, releasedAt := none, run := none }) }
    lay := { t0.lay with lost := s.lay.lost }
    dom := { t0.dom with wakeKept := s.dom.wakeKept } }
  let t2 := (t1.wr rFltAvEvt (s.rd rFltAvEvt)).wr rPwrSnap (s.rd rPwrSnap)
  let t3 := [0, 1, 2, 3, 4, 7, 8, 9, 10].foldl (fun u c => u.wr (rMbxEpoch c) ((s.rd (rMbxEpoch c) + 1) % 256)) t2
  (t3.setFld rGlbRstcause 28 4 2).setFlag rGlbRstcause 27 (s.flag rGlbRstcause 27)

/-- The AOC authenticates the image (R29, R33) and keeps its digest, its rail table and its clock plan; AUTO_WAKE is honoured
(R34). In STANDBY the always-on logic drives both sync lines low (R302). -/
def State.readFlash (s : State) (fl : Flash) : State :=
  let s0 := { s with dom := { s.dom with booted := true } }.pullSeq
  match s0.pickImage fl with
  | none => s0.raise srcConfigAuth
  | some (b, img) =>
    let rt := (sectionOf img 0x13).filter (fun x => (railsError img x).isNone)
    let plan := ((sectionOf img 0x12).filter (fun x => (planError x).isNone)).map planEntries
    let s1 : State := { s0 with
      dom := { s0.dom with imageOk := true, digest := sha384 (signedBytes img), slotB := b, railTable := rt.getD [] }
      clk := { s0.clk with plan := plan.getD [] } }
    let s2 := match rt with | some x => s1.writeRails x | none => s1
    let s3 := if b then s2.raise srcConfigSlotB else s2
    if bitAt (getU img 6 2) 0 then s3.wakeNow else s3

/-- ALWAYS_ON_POWER_UP (R33, R378): the always-on domain is powered, or restarts for a cold reset. -/
def execAlwaysOnPowerUp (fl : Flash) (s : State) : Outcome :=
  if s.dom.aon && s.dom.coldPend then .next (s.coldFresh.readFlash fl)
  else if !s.dom.aon ∨ !s.dom.booted then .next ((s.aonFresh true).readFlash fl)
  else .next s

/-- ALWAYS_ON_POWER_LOSS (R18, R364, R378): the sync lines and FAULT_N fall to their pull-downs, no other output is driven, and always-on RAM
is lost. -/
def execAlwaysOnPowerLoss (s : State) : Outcome := .next ((s.emit (.undriven allOutputs)).aonFresh false).pullSeq

/-! ### The cold start of the main domain -/

/-- Every generator has been declared locked, be it that it coasts since (R272). -/
def State.clocksLocked (s : State) : Bool := (List.range 6).all (fun g => decide (2 ≤ s.clkState g) && !s.clkWaits g)

/-- The part has left STANDBY: its power-up runs or has run. -/
def State.awake (s : State) : Bool := s.dom.aon && decide (s.seqPhase < 2) && s.pwr.downCause == 0 &&
  (s.seqPhase == 1 || s.pwr.steps != 0)

/-- MAIN_UP (R35, R262, R379): on-chip SRAM is initialised, the timekeeper is loaded, and MAIN_UP goes high; link training starts if
PERST_N is released already. After a warm reset the part lets SEQ_SYNC go where its step allows. -/
def execMainUp (s : State) : Outcome :=
  if s.dom.main ∨ !s.awake ∨ !s.ownGood ∨ !s.clocksLocked then .next s
  else
    let s1 := { s with dom := { s.dom with main := true, mainUp := true, link := s.dom.perst } }.fromCoarse
    if s.dom.resetting = 2 then
      .next (if s1.seqPhase = 1 then s1.releaseSeq else s1.setFlag rPwrSeq 28 false)
    else .next s1

/-- PERST_N_RELEASE (R35). -/
def execPerstNRelease (s : State) : Outcome :=
  .next { s with dom := { s.dom with perst := true, link := s.dom.link || s.dom.mainUp } }

/-- The source that a carried record names for CAUSE 5 (R339): where there are several, a free choice (log entry 76). -/
def State.carrySource (s : State) (l : List FaultRec) : Nat × State :=
  if l.length ≤ 1 then ((l.map (·.src)).headD 0, s)
  else ((l.map (·.src)).getD (s.freeVal % l.length) 0, s.tookFree)

/-- Entry to SERVICE after a load (R339, R379): RUN_SYNC is released; a record carried over, or after a warm reset any uncleared one
of effective severity 3 or above, takes the part into HOLD. -/
def State.serviceAfterLoad (s : State) : State :=
  let warm := s.dom.resetting == 2
  let s1 := s.enterService
  let s2 : State := { s1 with run := { s1.run with pull := false }, dom := { s1.dom with cfgDone := true, resetting := 0 } }
  let l := s2.flt.recs.filter (fun r => r.state != 0 && (r.carry || (warm && decide (3 ≤ r.eff))))
  let s3 : State := { s2 with flt := { s2.flt with recs := s2.flt.recs.map (fun r => { r with carry := false }) } }
  if l.isEmpty then s3
  else
    let (src, s4) := s3.carrySource l
    s4.enterHold 5 src (s4.recOf src).internal

/-- The image is loaded (R33): the main domain's fields of PAD_FILT start over, the only ones that were kept for it (R381); then its sections,
or the fallback configuration with CONFIG_LOAD; then every block is locked (R377), and
the part enters SERVICE. Where no entry is at fault, the entry in DETAIL is a free value (log entry 3). -/
def State.applyImage (s : State) (img digest : List Byte) (slotB : Bool) : State :=
  let lock (t : State) : State := t.wr rGlbLock (0x1FFFFB + 4 * (t.rd rMbxLock % 2))
  let s := s.setFld rPadFilt 0 24 0x0A0222
  match (s.showImage img digest slotB false).loadImage img with
  | .ok t => (lock t).serviceAfterLoad
  | .error (type, e) =>
    let t := lock ((s.showImage img digest slotB true).pinnedClaims)
    let (n, t1) := match e with
      | some i => (i, t)
      | none => (t.freeVal % 65536, t.tookFree)
    (t1.raiseWith srcConfigLoad (type * 65536 + n)).serviceAfterLoad

/-- CONFIG_LOAD (R33): the image is read again; where its digest is not the one kept, it is authenticated again. Where neither slot
authenticates any longer, the part goes back to STANDBY (log entry 72). -/
def execConfigLoad (fl : Flash) (s : State) : Outcome :=
  if !s.dom.main ∨ s.dom.cfgDone then .next s
  else
    let same := ((imageIn (if s.dom.slotB then fl.slotB else fl.slotA)).filter
      (fun img => sha384 (signedBytes img) == s.dom.digest)).map (fun img => (s.dom.slotB, img))
    match same with
    | some (b, img) => .next (s.applyImage img s.dom.digest b)
    | none =>
      match s.pickImage fl with
      | some (b, img) =>
        let d := sha384 (signedBytes img)
        let t : State := { s with dom := { s.dom with digest := d, slotB := b } }
        .next ((if b then t.raise srcConfigSlotB else t).applyImage img d b)
      | none =>
        let t := { s with dom := { s.dom with imageOk := false } }.raise srcConfigAuth
        .next { t with pwr := { t.pwr with downCause := if t.pwr.downCause = 4 then 4 else 2 } }

/-! ### Resets -/

/-- The main domain and the AOC core are reset (R379, R18): the epochs increment, and both sync lines are low meanwhile. -/
def State.runWarmReset (s : State) : State :=
  let t := ((s.mainDown.pullSeq).mainEpochs).bumpEpoch 3
  let t1 := (t.setFld rGlbRstcause 28 4 3).setFld rGlbRstcause 0 16 (satAdd 0xFFFF (t.fld rGlbRstcause 0 16) 1)
  { t1 with dom := { t1.dom with resetting := 2, waitFor := [] } }

/-- A warm reset that waits runs once the replies of R69 have been written (R379). -/
def State.warmResetCheck (s : State) : State :=
  if s.dom.resetting = 1 ∧ !(s.dom.waitFor.any (fun pk => s.cmd.held.any (fun h => h.pk == pk))) then s.runWarmReset else s

/-- A warm reset is decided (R379): from ARRAY, SCAN and CHECK by way of HOLD, whose replies it waits for. FLT_HOLD.CAUSE of that
HOLD is no rule's: a free value (log entry 3). -/
def State.warmReset (s : State) : State :=
  if exposing s.mode then
    let t := (s.enterHold (s.freeVal % 16) 0 false).tookFree
    let q := (t.cmd.held.filter (fun h => !(s.cmd.held.any (fun x => x.pk == h.pk)))).map (·.pk)
    { t with dom := { t.dom with resetting := 1, waitFor := q } }.warmResetCheck
  else s.runWarmReset

/-- A cold reset is decided (R379): a power-down to STANDBY comes first, or the one under way finishes. -/
def State.coldReset (s : State) : State :=
  { s with pwr := { s.pwr with downCause := 4 }, dom := { s.dom with resetting := 3 } }

/-- A write of GLB_RESET (R379). -/
def State.glbReset (s : State) (m : Master) (key kind : Nat) : State :=
  let who := m == .h1 || m == .aoc || m == .debug
  let busy := s.mode == 0 || s.dom.resetting != 0 || (decide (2 ≤ s.seqPhase) && kind != 2)
  if !who || key != 0xC3 || busy then s.access rGlbReset
  else if kind = 1 then s.warmReset
  else if kind = 2 then s.coldReset
  else s.access rGlbReset

/-- WARM_RESET (R379). -/
def execWarmReset (m : Master) (key : Byte) (s : State) : Outcome :=
  s.regCmd m rGlbReset (fun t => t.glbReset m key.toNat 1)

/-- COLD_RESET (R379). -/
def execColdReset (m : Master) (key : Byte) (s : State) : Outcome :=
  s.regCmd m rGlbReset (fun t => t.glbReset m key.toNat 2)

/-- The replies that a warm reset waits for are all written on this clock, behind this command (R342). -/
def State.repliesTie (s : State) : Bool :=
  let l := s.cmd.held.filter (fun h => s.dom.waitFor.contains h.pk)
  !l.isEmpty && l.all (fun h => match h.pk.org with
    | .queue q =>
      let before := ((s.cmd.held.takeWhile (fun g => g.pk != h.pk)).filter (fun g => fromQueue q g.pk)).length
      s.clocked && decide (before < (s.beforeTick.filter (fun c => match c with | .replyWrite p ok => p.val == q && ok | _ => false)).length)
    | .shared k => s.ties (fun c => match c with | .shmReply i => i.val == k | _ => false))

/-- WARM_RESET_WAIT_EXPIRY (R379). Replies that are written on its clock are in time (R342). -/
def execWarmResetWaitExpiry (s : State) : Outcome :=
  if s.dom.resetting = 1 ∧ !s.repliesTie then .next s.runWarmReset else .next s

/-! ### JTAG and temperature -/

/-- Every HV rail is off (R370). -/
def State.hvOff (s : State) : Bool := rails.all (fun n => !(s.railUsed n && s.railHv n) || (!s.railEn n && (s.railRec n).off))

/-- IDCODE (R369): version 0x1, part 0x0262, manufacturer 0x535, and bit 0 set. -/
def idCode : Nat := 0x10262A6B

/-- The pins pass between their functions and the boundary scan at Update-IR (R370): EXTEST and CLAMP put the cells on them, HIGHZ drives
none of them. GSTB, BLANK_ALL and PWR_EN are observed only, and so are not displaced. -/
def State.passPins (s : State) (had : Bool) : State :=
  if s.scanDrives then s.emit (.scanPins (if s.dbg.ir = 0x05#8 then none else some s.dbg.cells))
  else if had then s.emit .pinsReturn
  else s

/-- An instruction is loaded (R369, R370): DEBUG attaches D; EXTEST, CLAMP and HIGHZ are refused outside SERVICE or with an HV rail on, and
then act as BYPASS. The DETAIL of that ACCESS is a free value (log entry 3). -/
def State.tapLoad (s : State) (code : Byte) : State :=
  let c := code.toNat
  let bad := (c == 3 || c == 4 || c == 5) && !(s.mode == 1 && s.hvOff)
  let s1 := ({ s with dbg := { s.dbg with ir := code, refused := bad } }).passPins s.scanDrives
  if bad then s1.tookFree.raiseWith srcAccess s1.freeVal
  else if c = 0x10 then { s1 with dbg := { s1.dbg with session := true } }.bumpEpoch 4
  else s1

/-- `n` free bits, and the state after they are taken (log entry 3). -/
def State.freeBits (s : State) : Nat → List Bool × State
  | 0 => ([], s)
  | n + 1 =>
    let (l, t) := s.tookFree.freeBits n
    (bitAt s.freeVal 0 :: l, t)

/-- What the selected data register captures (R369): IDCODE its 32 bits, the boundary register the levels at its cells' pins, which nothing
here tells, and every other one the single 0 of BYPASS. DEBUG's register no rule describes (log entry 173). -/
def State.tapCapture (s : State) : List Bool × State :=
  if s.dbg.ir = 0x01#8 then ((List.range 32).map (fun k => bitAt idCode k), s)
  else if s.dbg.ir = 0x02#8 ∨ (s.dbg.ir = 0x03#8 ∧ !s.dbg.refused) then s.freeBits Config.scanCells
  else if s.dbg.ir = 0x10#8 then s.freeBits 1
  else ([false], s)

/-- A data register is captured, shifted and updated (R369): TDO sends it out, lowest bit first, and the bits of TDI follow. SAMPLE/PRELOAD and
EXTEST update the cells; under EXTEST the pins take them. -/
def State.tapScan (s : State) (tdi : List Bool) : State :=
  let (cap, t) := s.tapCapture
  let all := cap ++ tdi
  let u := t.emit (.tdo (all.take tdi.length))
  if u.dbg.ir = 0x02#8 ∨ (u.dbg.ir = 0x03#8 ∧ !u.dbg.refused) then
    let v : State := { u with dbg := { u.dbg with cells := all.drop tdi.length } }
    if v.scanDrives then v.emit (.scanPins (some v.dbg.cells)) else v
  else u

/-- JTAG_INSTRUCTION (R369, R370), with the scans of the data registers, and TRST_N or Test-Logic-Reset, which selects IDCODE. -/
def execJtagInstruction (ev : TapEvent) (s : State) : Outcome :=
  if !s.dom.main then .next s
  else
    match ev with
    | .load code => .next (s.tapLoad code)
    | .scan tdi => .next (s.tapScan tdi)
    | .reset => .next (({ s with dbg := { s.dbg with ir := 0x01#8, refused := false } }).passPins s.scanDrives)

/-- PAD_TJ_PEAK_CLR (R368): CLR sets PEAK to NOW. -/
def execPadTjPeakClr (m : Master) (v : Word) (s : State) : Outcome :=
  s.regCmd m rPadTjPeak (fun t => if bitAt v.toNat 31 then t.setFld rPadTjPeak 0 16 (t.fld rPadTj 0 16) else t)

end Sys2Proof.Machine
end

