-- ==== Sys2Proof/Machine/Replies.lean ====
section
/-! DEFINITION. The commands by which held replies leave their queue or mailbox; a warm reset that waits for them runs after the
last (R51, R53, R355, R378, R379). -/

namespace Sys2Proof.Machine

/-- REPLY_WRITE (R51, R53, R379). -/
def execReplyWrite (q : Fin 16) (ok : Bool) (s : State) : Outcome :=
  if !s.pcieUp || !s.qEn q || s.qHalted q || s.cqFull q then .next s
  else
    match s.heldOf q with
    | none => .next s
    | some h => .next (if ok then (s.putReply q h).warmResetCheck else s.haltQueue q 3)

/-- CMD_QCTL_EN_WRITE (R53, R379). -/
def execCmdQctlEnWrite (m : Master) (q : Fin 16) (v : Word) (s : State) : Outcome :=
  s.queueCmd m q (rCmdQctl q) fun t => (t.writeQctl q v.toNat (m == .load)).warmResetCheck

/-- SHM_REPLY (R355, R379). -/
def execShmReply (k : Fin 4) (s : State) : Outcome :=
  match s.cmd.held.find? (fun h => h.pk.org == .shared k) with
  | none => .next s
  | some h =>
    let s1 := (s.updShm k (fun x => { x with slots := replyBytes h 0 false ++ x.slots.drop 16, run := none })).finish h.pk
    let s2 := (s1.setFlag (rMbxShmStat k) 31 false).setW1c (rMbxShmStat k) 30
    .next (s2.ringBits (masterCode h.pk.fn) (2 ^ (28 + k.val))).warmResetCheck

/-- FUNCTION_RESET (R378, R350, R351): the function's queues are disabled, its configuration space and MSI-X table start over, and its epoch
increments. An FLR is then in progress; after a link-down every function is OFF until PERST_N_RELEASE starts training again. -/
def execFunctionReset (f : Fin 4) (kind : FnReset) (s : State) : Outcome :=
  if !s.dom.main then .next s
  else
    let s1 := (List.range 16).foldl (fun t q => if t.fld (rCmdQctl q) 24 2 = f.val then t.disableQueue q else t) s
    let s2 : State := { s1 with dom := { s1.dom with
      d3 := s1.dom.d3.set f false
      flr := s1.dom.flr.set f (if kind = .flr then some s1.tim.elapsed else none)
      link := s1.dom.link && kind != .linkDown
      msix := s1.dom.msix.set f (List.replicate 64 MsixVec.reset) } }
    .next (s2.bumpEpoch (7 + f.val)).warmResetCheck

end Sys2Proof.Machine
end

