-- ==== Sys2Proof/Machine/Legacy.lean ====
section
/-! DEFINITION. The FX legacy opcodes (R74, R75, Tables 3-9 and 3-11), and the end of an admission that waits for its generation
(R154). -/

namespace Sys2Proof.Machine

/-- What Table 3-4 says of an FX opcode: H3 only, modes "run", with the parameters of Table 3-11. -/
def fxSpec (op : Nat) (fields : List PField) : OpSpec := ⟨op, [.h3], modesRun, fields⟩

/-- The arm of an FX_STRIPE (Table 3-9): STRIPE_ARM with T_OPEN = now + 1 ms and default windows; it needs ARRAY mode (R74). In
every other mode the admission stands and the reply is BAD_MODE (log entry 11). -/
def State.fxArm (s : State) (pk : Packet) (h : Nat) : State :=
  if s.mode = 2 then
    let c : StepCmd := ⟨pk, h, 0, s.now40 + 1000000 * 2 ^ 40, 2000, 50000⟩
    { s with run := { s.run with queue := s.run.queue ++ [c] } }
  else s.complete pk (.plain 0x04 0 0)

/-- The admission of an FX_STRIPE stands (R75): its handle is kept for FX_ABORT, and it is armed. -/
def State.fxAdmitted (s : State) (pk : Packet) (h : Nat) : State :=
  { s with lay := { s.lay with fxHandle := h } }.fxArm pk h

/-- FX_STATUS (R75). -/
def execFxStatus (pk : Packet) (s : State) : Outcome :=
  .next (s.decidePk pk (fxSpec 0x80 []) fun t => t.statusReply pk)

/-- FX_LOAD (R75). -/
def execFxLoad (pk : Packet) (host : HostRead) (s : State) : Outcome :=
  .next (s.decidePk pk (fxSpec 0x81 (s.fUpload pk)) fun t => t.upload pk host)

/-- FX_STRIPE (R75): an admission with WAIT_US 0, then the arm. -/
def execFxStripe (pk : Packet) (s : State) : Outcome :=
  .next (s.decidePk pk (fxSpec 0x82 (s.fStripeAdmit pk true)) fun t => t.stripeAdmit pk 0 true State.fxAdmitted)

/-- FX_ABORT (R68, R75): the stripe of the kept handle. -/
def execFxAbort (pk : Packet) (s : State) : Outcome :=
  .next (s.decidePk pk (fxSpec 0x83 []) fun t =>
    let r := t.cancel t.lay.fxHandle
    r.1.complete pk (.ok r.2))

/-- FX_HOLES (R72, R75): CONSUME is 1. -/
def execFxHoles (pk : Packet) (s : State) : Outcome :=
  .next (s.decidePk pk (fxSpec 0x84 (fHoleRead true)) fun t => t.holeRead pk true)

/-- FX_TIME (R75). -/
def execFxTime (pk : Packet) (s : State) : Outcome :=
  .next (s.decidePk pk (fxSpec 0x85 []) fun t => t.complete pk ⟨0, 0, 0, t.timeNow, 1, false⟩)

/-- FX_RAILS (R75). -/
def execFxRails (pk : Packet) (s : State) : Outcome :=
  .next (s.decidePk pk (fxSpec 0x86 []) fun t => t.railStatus pk)

/-- FX_MOVE (R75). -/
def execFxMove (pk : Packet) (s : State) : Outcome :=
  .next (s.decidePk pk (fxSpec 0x87 fAxisMove) fun t => t.axisReady pk (pkU pk 0x20 1) (fun u => u.axisMove pk))

/-- FX_HALT (R75). -/
def execFxHalt (pk : Packet) (s : State) : Outcome :=
  .next (s.decidePk pk (fxSpec 0x88 (fByte 8)) fun t => t.axisStop pk)

/-- FX_HEAT (R75). -/
def execFxHeat (pk : Packet) (s : State) : Outcome :=
  .next (s.decidePk pk (fxSpec 0x89 fHeaterSet) fun t => t.heaterSet pk)

/-- FX_FAULTS (R75). -/
def execFxFaults (pk : Packet) (s : State) : Outcome :=
  .next (s.decidePk pk (fxSpec 0x8A fFaultRead) fun t => t.faultRead pk)

/-- FX_FAULT_ACK (R75). -/
def execFxFaultAck (pk : Packet) (s : State) : Outcome :=
  .next (s.decidePk pk (fxSpec 0x8B fFaultAck) fun t => t.faultAck pk)

/-! ### Admissions that wait -/

/-- The waiting admission of a packet. -/
def State.waitOf (s : State) (pk : Packet) : Option Waiting := s.lay.waiting.find? (fun w => w.pk == pk)

/-- A stripe is one of a SCAN job. -/
def State.ofScan (s : State) (x : Stripe) : Bool :=
  match s.jobOf x.job with
  | some j => j.scan
  | none => false

/-- The slot that an admission waits for, as test 5 finds it. -/
def State.waitSlot (s : State) (x : Stripe) : Option Nat :=
  let kind := if s.ofScan x then 2 else 0
  (s.slotOf kind x.gen).filter (fun n => s.builtFor x kind n)

/-- The admission waits no longer. -/
def State.unwait (s : State) (pk : Packet) : State :=
  { s with lay := { s.lay with waiting := s.lay.waiting.filter (fun w => !(w.pk == pk)) } }

/-- The test goes on once the generation is ready (R62, R154). -/
def State.waitReady (s : State) (w : Waiting) : State :=
  (s.unwait w.pk).admitStripe w.pk w.stripe (if w.stripe.fx then State.fxAdmitted else State.admitReply)

/-- READY_BY_WAIT_END (R154): the generation has become ready. -/
def execReadyByWaitEnd (pk : Packet) (s : State) : Outcome :=
  match s.waitOf pk with
  | none => .next s
  | some w =>
    match s.waitSlot w.stripe with
    | none => .next ((s.unwait pk).complete pk (.refuse 0x14 1 w.stripe.gen 0))
    | some n => if s.slotState n = 1 then .next s else .next (s.waitReady w)

/-- The fill of slot n is done on this clock, behind this command (R154, R342). -/
def State.fillTies (s : State) (n : Nat) : Bool :=
  s.ties (fun c => match c with
    | .genFillDone m => m.val == n
    | .eventPulse k => s.dma.pulses.contains k.val && s.flag (rDmaEvmSel (12 + n / 2)) 31 && s.fld (rDmaEvmSel (12 + n / 2)) 0 6 == k.val
    | _ => false)

/-- WAIT_US_EXPIRY (R154): a generation that became ready on the same clock is ready; else RESULT holds the updated prediction. A fill that is done on its clock is in time (R342). -/
def execWaitUsExpiry (pk : Packet) (s : State) : Outcome :=
  match s.waitOf pk with
  | none => .next s
  | some w =>
    match s.waitSlot w.stripe with
    | none => .next ((s.unwait pk).complete pk (.refuse 0x14 1 w.stripe.gen 0))
    | some n =>
      if s.slotState n = 1 ∧ s.fillTies n then .next s
      else if s.slotState n = 1 then .next ((s.unwait pk).complete pk (.refuse 0x14 2 w.stripe.gen (s.readyIn n)))
      else .next (s.waitReady w)

end Sys2Proof.Machine
end

