-- ==== Sys2Proof/Machine/View.lean ====
section
/-! DEFINITION. What a read of BAR0 returns to a master (R9–R11, R156, R256, R347, R372–R375, R383): the stored fields, the fields
that the part derives from its state, the table windows and the cell window. -/

namespace Sys2Proof.Machine

/-! ### Derived fields -/

/-- A RUN_SYNC step is open (GLB_MODE.STEP_OPEN). -/
def State.stepOpen (s : State) : Bool := s.run.cur.isSome

/-- ARMED: from this part's release in the arm phase to the closing rise. -/
def State.armedBit (s : State) : Bool :=
  match s.run.cur with
  | some o => o.armed
  | none => false

/-- GLB_MODE (R382). -/
def State.viewMode (s : State) : Nat :=
  s.mode * 2 ^ 29 + bit s.stepOpen * 2 ^ 28 + bit s.armedBit * 2 ^ 27 + s.run.step.toNat % 2 ^ 24

/-- The value that a master selected for itself (R256, R382). -/
def selOf (l : List (Nat × Nat)) (m : Master) : Nat := ((l.find? (fun p => p.1 == masterCode m)).map (·.2)).getD 0

/-- The selections with a master's set. -/
def selPut (l : List (Nat × Nat)) (m : Master) (v : Nat) : List (Nat × Nat) :=
  l.filter (fun p => !(p.1 == masterCode m)) ++ [(masterCode m, v)]

/-- STATE of an identity that is not OFF, as master `m` reads it (R351): a core that no set and unmasked doorbell bit wakes, and that is not the
reader, sleeps or not by a free value (log entry 33). -/
def State.awakeCode (s : State) (m : Master) (c : Nat) : Nat :=
  let called := s.rd (rMbxDb c) &&& (0xFFFFFFFF - s.rd (rMbxDbmask c)) ≠ 0
  if c < 4 ∧ masterCode m ≠ c ∧ !called ∧ bitAt s.freeVal c then 1 else 2

/-- MBX_STATE (R351). -/
def State.viewMbxState (s : State) (m : Master) : Nat :=
  sumN (([Master.m0, .m1, .m2, .aoc, .debug, .h0, .h1, .h2, .h3].filter s.masterUp).map (fun i =>
    s.awakeCode m (masterCode i) * 4 ^ masterCode i))

/-- The highest effective severity of an uncleared record of severity 1 or more; 0 when there is none. -/
def State.maxSev (s : State) : Nat := (s.flt.recs.filter (fun r => r.state != 0)).foldl (fun a r => max a r.eff) 0

/-- FLT_STAT (R343). -/
def State.viewFltStat (s : State) : Nat :=
  bit (decide (s.flt.edges ≠ 0)) * 2 ^ 31 + bit s.faultNLow * 2 ^ 30 + bit s.flt.latched * 2 ^ 29 + bit s.flt.allstop * 2 ^ 28 +
    s.maxSev * 2 ^ 25 + min 255 s.flt.inj.length * 2 ^ 8

/-- FLT_SEV[v]: uncleared records of effective severity v. -/
def State.viewFltSev (s : State) (v : Nat) : Nat := (s.flt.recs.filter (fun r => r.state != 0 && r.eff == v)).length

/-- FLT_SRC_CFG of a source. -/
def State.viewSrcCfg (s : State) (src : Nat) : Nat :=
  match defaultSev src with
  | none => 0
  | some d =>
    2 ^ 31 + bit (isMerging src) * 2 ^ 30 + bit (isLevel src) * 2 ^ 29 + bit (canBeInternal src) * 2 ^ 28 +
      bit (isMainSrc src) * 2 ^ 27 + minSev src * 2 ^ 12 + d * 2 ^ 8 + s.sevOf src * 2 ^ 4 + srcClass src

/-- FLT_SRC_STAT of a source. A source in a WIRE state is a level source (R330); a cleared record has no effective severity (log
entry 127). -/
def State.viewSrcStat (s : State) (src : Nat) : Nat :=
  let r := s.recOf src
  r.state * 2 ^ 30 + bit r.wire * 2 ^ 29 + bit (s.injected src) * 2 ^ 28 + bit r.stands * 2 ^ 27 +
    (if r.state = 0 then 0 else r.eff) * 2 ^ 24 + r.raises

/-- Seconds out of STANDBY since always-on power-up (R343). -/
def State.viewAvUp (s : State) : Nat := min 0xFFFFFFFF (s.tim.upNs / 65536000000000)

/-- Milliseconds charged to the part (R343); an outage that runs is counted so far. -/
def State.viewAvDown (s : State) : Nat :=
  let running := match s.flt.outage with
    | some t => s.tim.elapsed - t - s.flt.credit
    | none => 0
  min 0xFFFFFFFF ((s.flt.downT + running) / t16ms)

/-- CLK_STAT.GATED (R279). -/
def State.viewGated (s : State) : Nat :=
  bit s.clk.gated + 2 * bit s.lay.stripes.isEmpty

/-- LINK of BAL_STAT. -/
def State.viewLink (s : State) : Nat :=
  if !s.flag rBalCfg 31 then 0 else if s.bal.rateBusy then 3 else if s.bal.span then 2 else 1

/-- The shadow of a master (R256); a master that has captured nothing reads zeros. -/
def State.shadow (s : State) (m : Master) : Nat × Nat × Nat :=
  match s.tim.shadows.find? (fun x => x.1 == masterCode m) with
  | some x => x.2
  | none => (0, 0, 0)

/-- RLE_STAT[e]. Between commands only a COMPRESS of engine 0 is under way. -/
def State.viewRle (s : State) (e : Nat) : Nat :=
  if e = 0 ∧ s.rle.comps.any (fun c => c.eng == 0) then 2 ^ 30 + 0x42 * 2 ^ 16 else 0

/-- The register at `off` as a master reads it: the stored value, with the derived fields in place of what is stored. -/
def State.readReg (s : State) (m : Master) (off : Nat) : Nat :=
  let b := off / 0x10000
  let v := s.rd off
  if off = rGlbMode then s.viewMode
  else if off = rGlbCellsel then selOf s.dom.cellSel m
  else if b = 1 then
    (match queueOf off with
     | some q => if off = rCmdQstat q then setBits v 16 5 (s.outstanding q) else v
     | none => v)
  else if off = rMbxState then s.viewMbxState m
  else if 0x2D000 ≤ off ∧ off < 0x2E000 ∧ off % 0x400 = 0x200 then s.shmOwner ((off - 0x2D000) / 0x400)
  else if off = rFltStat then s.viewFltStat
  else if 0x30010 ≤ off ∧ off < 0x30024 then s.viewFltSev ((off - 0x30010) / 4)
  else if off = rFltSel then selOf s.flt.sel m
  else if off = rFltSrcCfg then s.viewSrcCfg (selOf s.flt.sel m)
  else if off = rFltSrcStat then s.viewSrcStat (selOf s.flt.sel m)
  else if off = rFltLog then s.oldestSeq * 2 ^ 16 + s.flt.nextSeq
  else if off = rFltAvUp then s.viewAvUp
  else if off = rFltAvDown then s.viewAvDown
  else if b = 4 ∧ off < 0x40300 ∧ off % 0x20 = 0 then setBit v 28 (bitAt v 28 || bitAt v 30)
  else if off = rClkStat then setBits v 0 2 s.viewGated
  else if off = rTimNowSecHi then (s.shadow m).1 / 2 ^ 32 % 2 ^ 32
  else if off = rTimNowNs then (s.shadow m).2.1
  else if off = rTimNowFrac then (s.shadow m).2.2
  else if off = rEscStat then setBits v 29 3 s.escState
  else if b = 12 ∧ 0xC0080 ≤ off ∧ off < 0xC0098 then setBits v 16 8 (s.slotPins ((off - 0xC0080) / 4))
  else if off = rBalStat then setBit (setBits v 30 2 s.viewLink) 29 s.bal.blankAll
  else if off = rRleStat 0 then s.viewRle 0
  else if off = rRlePool then setBits (setBits v 26 5 s.rle.snaps.length) 16 10 s.rle.tiles.length
  else if b = 18 ∧ off < 0x120400 ∧ off % 0x80 = 0x54 then s.viewMotTim ((off - 0x120000) / 0x80)
  else if off = rMemPoscnt then
    (let p := s.fld rMemPoscntSel 0 8
     if p < 160 then s.posCount p else 0)
  else v

/-! ### Windows -/

/-- A byte of a context (R383). -/
def State.cellByte (s : State) (ctx o : Nat) : Byte :=
  match (s.lay.jobs.flatMap (·.cells)).find? (fun c => c.ctx == ctx) with
  | some c => c.bytes.getD o 0#8
  | none => 0#8

/-- A master may read the cell window (R383). -/
def cellReader : Master → Bool
  | .h0 | .h1 | .h2 | .m0 | .m1 | .m2 | .debug => true
  | _ => false

/-- A master may read the table windows (R156). A read of any other master gets 0, without an error or ACCESS (log entry 172). -/
def tableReader : Master → Bool
  | .h0 | .h1 | .h2 => true
  | _ => false

/-- A byte of the windows of the upper half (Table 18-2). DESIGN CHOICE: the table windows read 0 to every other master, without an
error (log entry 172). -/
def State.upperByte (s : State) (m : Master) (off : Nat) : Byte :=
  if off < 0xB40000 then (if tableReader m then s.windowByte off else 0#8)
  else if 0xC00000 ≤ off ∧ off < 0xC10000 then
    (if cellReader m then s.cellByte (selOf s.dom.cellSel m) (off - 0xC00000) else 0#8)
  else 0#8

/-- The bytes of the slot of a channel at window offset `o`: only the receiver reads them (R347). -/
def State.chanByte (s : State) (ch o : Nat) : Byte :=
  match (s.chan ch).slots[o / 64]? with
  | some x => (s.slotBytes ch x).getD (o % 64) 0#8
  | none => 0#8

end Sys2Proof.Machine
end

