-- ==== Sys2Proof/Machine/RegWrite.lean ====
section
/-! DEFINITION. Register writes as a whole (R10–R13, R352, R371–R377): an access finds its register, window or reserved offset; a
register with a behaviour of its own takes that, and any other is written by its access types. -/

namespace Sys2Proof.Machine

/-! ### Hooks of registers written by type -/

/-- CLK_SSC (R274): in SERVICE and HOLD, CORE spreads as the register says, unless a step into another mode is open; in another mode
the change waits for those. -/
def State.writeSsc (s : State) (load : Bool) (v : Nat) : State :=
  let t := s.writeByType load rClkSsc v
  if !(t.mode == 1 || t.mode == 5) then t
  else if !t.flag rClkSsc 31 || !t.spreadBarred then t.startSpread
  else t

/-- The master in whose name a register write claims: a host function's or a peer's claims are made by the movement, M2 (R40,
Table 2-9). -/
def claimCode (m : Master) : Nat := if (hostFn m).isSome || masterCode m == 11 then 2 else masterCode m

/-- THM_CFG (R40, R317): RUN starts or stops the zone; a zone that starts without a timer claims one, and stays stopped where none is
free. CLM_LAST.RES is then a free value (log entry 3). The output is low where RAIL names a rail that is not good (R320). -/
def State.writeThm (s : State) (m : Master) (load : Bool) (z v : Nat) : State :=
  let was := s.zoneRun z
  let t := (s.writeByType load (rThmCfg z) v).heatersLow
  if was == t.zoneRun z then t
  else if was then (t.setFlag (rThmCfg z) 30 true).stopZone z
  else
    let u := t.setFlag (rThmCfg z) 30 false
    match u.takeZoneTimer (claimCode m) z with
    | some w => w.startZone z
    | none => u.timerRefused (claimCode m) (0x20 + z)

/-- TIM_PCFG: its fields are taken as EN rises, and the port starts or ends with EN (R265). -/
def State.writePcfg (s : State) (load : Bool) (p v : Nat) : State :=
  ((s.writeByType load (rTimPcfg p) v).takePcfg p (s.flag (rTimPcfg p) 31)).portTurns p (s.portUp p)

/-- A write of DMA_CTL (R219, R225, R226): MASTER by its type, then ABORT, RESUME and GO in this order (log entry 77). -/
def State.writeDmaCtl (s : State) (load : Bool) (n v : Nat) : State :=
  let t := s.writeByType load (rDmaCtl n) v
  let t1 := if bitAt v 30 then t.dmaStop n else t
  let t2 := if bitAt v 29 then t1.dmaGoesOn n else t1
  if bitAt v 31 then t2.dmaStart n false else t2

/-- A base or size write to a queue takes effect only while EN is 0 (R53). -/
def queueFrozen (off : Nat) : Bool := decide (0x10100 ≤ off) && decide (off < 0x10300) && decide ((off - 0x10100) % 0x20 < 0x14)

/-- A write, by its access types, of a register that the master may write, with what the register's change brings about. -/
def State.plainWrite (s : State) (m : Master) (off v : Nat) : State :=
  let load := m == .load
  if !s.mayWrite m off v then s.access off
  else if queueFrozen off ∧ s.qEn ((off - 0x10100) / 0x20) then s
  else if off = rClkSsc then s.writeSsc load v
  else if off / 0x10000 = 5 ∧ off < 0x50180 ∧ (off - 0x50000) % 0x40 = 0 then s.writeThm m load ((off - 0x50000) / 0x40) v
  else if off / 0x10000 = 18 ∧ off < 0x120400 ∧ off % 0x80 = 0 then s.writeMotCfg load (masterCode m) ((off - 0x120000) / 0x80) v
  else if off = rTimPcfg 0 then s.writePcfg load 0 v
  else if off = rTimPcfg 1 then s.writePcfg load 1 v
  else if off / 0x10000 = 6 then
    let t := s.writeByType load off v
    if 0x600A0 ≤ off ∧ off < 0x600B0 then t.clkOutSet ((off - 0x600A0) / 4) else t
  else if off / 0x10000 = 16 ∧ off < 0x100600 ∧ (off - 0x100000) % 0x80 = 0 then
    s.writeDmaCtl load ((off - 0x100000) / 0x80) v
  else if off / 0x10000 = 16 ∧ off < 0x100600 ∧ (off - 0x100000) % 0x80 = 8 then
    (s.settleCredit ((off - 0x100000) / 0x80) 0).writeByType load off v
  else s.writeByType load off v

/-! ### Windows of the mailboxes -/

/-- Bytes of the staging area of a channel (R347): its sender writes them. -/
def State.writeStaging (s : State) (m : Master) (off : Nat) (v : Word) : State :=
  let ch := (off - 0x21000) / 0x400
  let o := (off - 0x21000) % 0x400
  if masterCode m = s.chSender ch ∧ 0x208 ≤ o ∧ o < 0x240 then
    s.updChan ch (fun c => { c with staging := patch c.staging (o - 0x208) (leBytes 4 v.toNat) })
  else s.access off

/-- Bytes of the slots of a shared mailbox (R355): its owner writes them. -/
def State.writeShm (s : State) (m : Master) (off : Nat) (v : Word) : State :=
  let k := (off - 0x2D000) / 0x400
  if s.shmOwner k = ownerNo (masterCode m) then
    s.updShm k (fun x => { x with slots := patch x.slots ((off - 0x2D000) % 0x400) (leBytes 4 v.toNat) })
  else s.access off

/-! ### GLB_LOCK -/

/-- A write of GLB_LOCK (R377): ones set lock bits; zeros leave set bits alone. Once bit 0 is set the register is read-only, and every
write is an ACCESS (R13), but the configuration load's. -/
def State.lockWrite (s : State) (load : Bool) (v : Nat) : State :=
  let old := s.rd rGlbLock
  if bitAt old 0 ∧ !load then s.access rGlbLock
  else s.wr rGlbLock (old ||| (v &&& rwlMask rGlbLock))

/-- GLB_LOCK_WRITE (R377). -/
def execGlbLockWrite (m : Master) (v : Word) (s : State) : Outcome := s.regCmd m rGlbLock (fun t => t.lockWrite (m == .load) v.toNat)

/-! ### Bad accesses -/

/-- The form of an access that R372 accepts at an offset. -/
def accessForm (off size : Nat) : Bool :=
  decide (off % 4 = 0) && (size == 4 || (inMbxWindow off && size % 4 == 0 && decide (4 ≤ size) && decide (off % 64 + size ≤ 64)))

/-- The word that a read returns at a good offset: a mailbox slot to its receiver, MBX_CHSTAT to either end (R347), a register
otherwise; and whether the read is refused. -/
def State.readWord (s : State) (m : Master) (off : Nat) : Nat × Bool :=
  if 0x21000 ≤ off ∧ off < 0x2D000 ∧ (off - 0x21000) % 0x400 < 0x240 then
    let ch := (off - 0x21000) / 0x400
    let o := (off - 0x21000) % 0x400
    if o < 0x200 then
      (if masterCode m = s.chReceiver ch then (leNat ((List.range 4).map (fun i => s.chanByte ch (o + i))), false) else (0, true))
    else (0, decide (0x208 ≤ o))
  else if 0x21000 ≤ off ∧ off < 0x2D000 then
    let ch := (off - 0x21000) / 0x400
    if (off - 0x21000) % 0x400 = 0x244 ∧ (masterCode m = s.chSender ch ∨ masterCode m = s.chReceiver ch) then (s.readReg m off, false)
    else (0, true)
  else if inShm off ∧ off % 0x400 < 0x200 then (getU (s.shm ((off - 0x2D000) / 0x400)).slots (off % 0x400) 4, false)
  else if 0x2E000 ≤ off ∧ off < 0x2E0B0 ∧ off % 16 < 8 ∧ masterCode m ≠ (off - 0x2E000) / 16 then (0, true)
  else (s.readReg m off, false)

/-- A read shows its words to the reader; one that its register refuses reads 0 and raises ACCESS (R347). -/
def State.readOut (s : State) (m : Master) (off size : Nat) : State :=
  let ws := (List.range (size / 4)).map (fun i => (off + 4 * i, s.readWord m (off + 4 * i)))
  let s0 := if off = rMbxState then s.tookFree else s
  let t := ws.foldl (fun t w => t.emit (.readValue m w.1 (BitVec.ofNat 32 w.2.1))) s0
  if ws.any (fun w => w.2.2) then t.access off else t

/-- The lower half of BAR0 holds the blocks, the upper half the windows (R371). -/
def upperHalf (off : Nat) : Bool := decide (0x800000 ≤ off)

/-- An access of a form that R372 refuses. -/
def State.badForm (s : State) (m : Master) (off : Nat) (wr : Bool) : State :=
  (if wr then s else s.emit (.readError m off)).access off

/-- Any access but the write of an aligned register (R352, R372–R374): a read of a domain that is down gets an error, and a write to it
changes nothing; a bad form is refused with ACCESS; at a reserved offset a read gets 0 and a write raises ACCESS. A good read shows
what it reads; the reads and writes that are commands of their own are left to those. -/
def State.oddAccess (s : State) (m : Master) (off size : Nat) (wr : Bool) : State :=
  if !s.masterUp m then s
  else if !s.serves off then (if wr then s.touch else s.touch.emit (.readError m off))
  else if !accessForm off size then s.touch.badForm m off wr
  else if upperHalf off then
    (if wr then s.touch.access off
     else s.touch.emit (.readValue m off (BitVec.ofNat 32 (leNat ((List.range 4).map (fun i => s.upperByte m (off + i)))))))
  else
    match s.reach m off with
    | .ok =>
      if wr ∨ off = rTimNowSecLo ∨ (inShm off ∧ off % 0x400 = 0x200) then s else s.touch.readOut m off size
    | _ => if wr then s.touch.access off else s.touch.emit (.readValue m off 0#32)

/-! ### REGISTER_WRITE -/

/-- The index in an array of `n` elements at `base` with a stride, if the offset is one of them. -/
def elemOf (base stride n off : Nat) : Option (Fin n) :=
  if h : base ≤ off ∧ (off - base) % stride = 0 ∧ (off - base) / stride < n then some ⟨(off - base) / stride, h.2.2⟩ else none

/-- Applies `f` where there is an index, else goes on. -/
def orElse {α : Type} (i : Option α) (f : α → Outcome) (next : Outcome) : Outcome :=
  match i with
  | some x => f x
  | none => next

/-- Writes of the CMD and MBX registers that have a behaviour of their own. -/
def State.ownCmdMbx (s : State) (m : Master) (off : Nat) (v : Word) (next : Outcome) : Outcome :=
  orElse (elemOf 0x10114 0x20 16 off) (fun q => execCmdQctlEnWrite m q v s) <|
  orElse (elemOf 0x11000 8 16 off) (fun q => execCmdSqTailWrite m q v s) <|
  orElse (elemOf 0x11004 8 16 off) (fun q => execCmdCqHeadWrite m q v s) <|
  orElse (elemOf 0x21240 0x400 48 off) (fun ch => execMbxPost m ch v s) <|
  orElse (elemOf 0x21248 0x400 48 off) (fun ch => execMbxDone m ch v s) <|
  orElse (elemOf 0x2E004 0x10 11 off) (fun i => execMbxDbmaskWrite m i v s) <|
  orElse (elemOf 0x2E008 0x10 11 off) (fun i => execMbxRing m i v s) <|
  orElse (elemOf 0x2D200 0x400 4 off) (fun k => execMbxShmLockRelease m k v s) <|
  orElse (elemOf 0x2D204 0x400 4 off) (fun k => execMbxShmGo m k v s) <|
  if off = rMbxAlive then execMbxAliveWrite m v s
  else if off = rMbxLock then execMbxLockWrite m v s
  else if 0x21000 ≤ off ∧ off < 0x2D000 ∧ inMbxWindow off then s.regCmd m off (fun t => t.writeStaging m off v)
  else if inShm off ∧ inMbxWindow off then s.regCmd m off (fun t => t.writeShm m off v)
  else next

/-- Writes of the GLB, FLT and TIM registers that have a behaviour of their own. -/
def State.ownGlbTim (s : State) (m : Master) (off : Nat) (v : Word) (next : Outcome) : Outcome :=
  if off = rGlbLock then s.regCmd m rGlbLock (fun t => t.lockWrite (m == .load) v.toNat)
  else if off = rGlbReset then s.regCmd m rGlbReset (fun t => t.glbReset m (bits v.toNat 8 8) (bits v.toNat 0 2))
  else if off = rGlbCellsel then
    s.regCmd m off (fun t => { t with dom := { t.dom with cellSel := selPut t.dom.cellSel m (v.toNat % 256) } })
  else if off = rFltSel then
    s.regCmd m off (fun t => { t with flt := { t.flt with sel := selPut t.flt.sel m (v.toNat % 2048) } })
  else if off = rTimKey then execTimKeyWrite m v s
  else if off = rTimIncrHi then execTimIncrHiWrite m v s
  else if off = rTimStepNs then execTimStepNsWrite m v s
  else if off / 0x10000 = 7 then s.regCmd m off (fun t => (t.timTouched m off).plainWrite m off v.toNat)
  else next

/-- Writes of the other registers that have a behaviour of their own. -/
def State.ownOther (s : State) (m : Master) (off : Nat) (v : Word) (next : Outcome) : Outcome :=
  orElse (elemOf 0xD0020 4 4 off) (fun n => execBalSpareWrite m n v s) <|
  orElse (elemOf 0x140020 4 5 off) (fun n =>
    let owner := BitVec.ofNat 8 (bits v.toNat 16 8)
    let res := BitVec.ofNat 8 (bits v.toNat 0 8)
    if bits v.toNat 24 2 = 1 then execClmClaim m n owner res s
    else if bits v.toNat 24 2 = 2 then execClmRelease m n owner res s
    else s.clmIgnored m n) <|
  if off = rDmaEvmSw then execDmaEvmSw m v s
  else if off = rRasFpPeak then execRasFpPeakClr m v s
  else if off = rEscSlipPeak then execEscSlipPeakClr m v s
  else if off = rPadTjPeak then execPadTjPeakClr m v s
  else if off = rRlePool then execRlePoolClr m v s
  else if off = rDosProbeSel then execDosProbeArm m v s
  else if off = rBalCfg then execBalCfgWrite m v s
  else if off = rBalCut then execBalCutClear m v s
  else next

/-- REGISTER_WRITE (R10–R13, R371–R374): an aligned write of 32 bits. -/
def execRegisterWrite (m : Master) (off : Nat) (v : Word) (s : State) : Outcome :=
  if 0x1000000 ≤ off then .fault .outsideBar0
  else if off % 4 ≠ 0 ∨ upperHalf off then .next (s.oddAccess m off 4 true)
  else
    s.ownCmdMbx m off v <| s.ownGlbTim m off v <| s.ownOther m off v <|
      s.regCmd m off (fun t => t.plainWrite m off v.toNat)

/-! ### BAD_ACCESS -/

/-- The master may write the word at an offset of a mailbox window: the sender the staging payload (R347), the owner the slots of its shared
mailbox (R355). -/
def State.mayFill (s : State) (m : Master) (off : Nat) : Bool :=
  s.reach m off == .ok &&
    (if off < 0x2D000 then masterCode m == s.chSender ((off - 0x21000) / 0x400) && decide (0x208 ≤ (off - 0x21000) % 0x400)
     else s.shmOwner ((off - 0x2D000) / 0x400) == ownerNo (masterCode m))

/-- A word of a mailbox window is written. -/
def State.fillWord (s : State) (m : Master) (off : Nat) (v : Word) : State :=
  if off < 0x2D000 then s.writeStaging m off v else s.writeShm m off v

/-- A write of 8 to 64 bytes in a mailbox window (R372): the words that the master may write, and one ACCESS where it may not write some. -/
def State.wideWrite (s : State) (m : Master) (off size : Nat) (bs : List Byte) : State :=
  let t := s.touch
  let l := (List.range (size / 4)).map (fun i => off + 4 * i)
  let u := (l.filter (fun o => t.mayFill m o)).foldl (fun u o => u.fillWord m o (BitVec.ofNat 32 (getU bs (o - off) 4))) t
  if l.all (fun o => t.mayFill m o) then u else u.access off

/-- BAD_ACCESS (R372–R374). Beyond the 16 MiB of BAR0 there is nothing to access (R371). A write of a form that R372 accepts is carried out. -/
def execBadAccess (m : Master) (off : Nat) (size : Nat) (acc : Access) (s : State) : Outcome :=
  if 0x1000000 ≤ off then .fault .outsideBar0
  else
    match acc with
    | .read => .next (s.oddAccess m off size false)
    | .write bs =>
      if !accessForm off size ∨ upperHalf off then .next (s.oddAccess m off size true)
      else if size = 4 then execRegisterWrite m off (BitVec.ofNat 32 (getU bs 0 4)) s
      else if !s.masterUp m then .next s
      else .next (s.wideWrite m off size bs)

end Sys2Proof.Machine
end

