-- ==== Sys2Proof/Machine/Dispatch.lean ====
section
/-! DEFINITION. The one dispatch of commands to their meanings, an arm per row of spec/opcode_table.json. -/

namespace Sys2Proof.Machine

/-- The effect of a command on everything but the queue. -/
def exec (i : Instr) (s : State) : Host.Outcome State Fault Refusal :=
  match i with
  | .nop pk => Sys2Proof.Machine.execNop pk s
  | .ident pk => Sys2Proof.Machine.execIdent pk s
  | .modeArm pk => Sys2Proof.Machine.execModeArm pk s
  | .hold pk => Sys2Proof.Machine.execHold pk s
  | .clearHold pk => Sys2Proof.Machine.execClearHold pk s
  | .standby pk => Sys2Proof.Machine.execStandby pk s
  | .status pk => Sys2Proof.Machine.execStatus pk s
  | .claim pk => Sys2Proof.Machine.execClaim pk s
  | .jobOpen pk => Sys2Proof.Machine.execJobOpen pk s
  | .stripeAdmit pk => Sys2Proof.Machine.execStripeAdmit pk s
  | .stripeArm pk => Sys2Proof.Machine.execStripeArm pk s
  | .stripeCancel pk => Sys2Proof.Machine.execStripeCancel pk s
  | .jobClose pk => Sys2Proof.Machine.execJobClose pk s
  | .holeRead pk => Sys2Proof.Machine.execHoleRead pk s
  | .upload pk host => Sys2Proof.Machine.execUpload pk host s
  | .release pk => Sys2Proof.Machine.execRelease pk s
  | .verify pk => Sys2Proof.Machine.execVerify pk s
  | .cellQuery pk => Sys2Proof.Machine.execCellQuery pk s
  | .calLoad pk => Sys2Proof.Machine.execCalLoad pk s
  | .genRetire pk => Sys2Proof.Machine.execGenRetire pk s
  | .heatLoad pk => Sys2Proof.Machine.execHeatLoad pk s
  | .facetLoad pk => Sys2Proof.Machine.execFacetLoad pk s
  | .genQuery pk => Sys2Proof.Machine.execGenQuery pk s
  | .checkRun pk => Sys2Proof.Machine.execCheckRun pk s
  | .checkRead pk => Sys2Proof.Machine.execCheckRead pk s
  | .calBuild pk => Sys2Proof.Machine.execCalBuild pk s
  | .axisConfig pk => Sys2Proof.Machine.execAxisConfig pk s
  | .axisMove pk => Sys2Proof.Machine.execAxisMove pk s
  | .axisStop pk => Sys2Proof.Machine.execAxisStop pk s
  | .axisResume pk => Sys2Proof.Machine.execAxisResume pk s
  | .axisHome pk => Sys2Proof.Machine.execAxisHome pk s
  | .axisStatus pk => Sys2Proof.Machine.execAxisStatus pk s
  | .railStatus pk => Sys2Proof.Machine.execRailStatus pk s
  | .snapshotRead pk => Sys2Proof.Machine.execSnapshotRead pk s
  | .heaterSet pk => Sys2Proof.Machine.execHeaterSet pk s
  | .heaterStatus pk => Sys2Proof.Machine.execHeaterStatus pk s
  | .timeRead pk => Sys2Proof.Machine.execTimeRead pk s
  | .timeStep pk => Sys2Proof.Machine.execTimeStep pk s
  | .timeIncr pk => Sys2Proof.Machine.execTimeIncr pk s
  | .ptpStatus pk => Sys2Proof.Machine.execPtpStatus pk s
  | .fxStatus pk => Sys2Proof.Machine.execFxStatus pk s
  | .fxLoad pk host => Sys2Proof.Machine.execFxLoad pk host s
  | .fxStripe pk => Sys2Proof.Machine.execFxStripe pk s
  | .fxAbort pk => Sys2Proof.Machine.execFxAbort pk s
  | .fxHoles pk => Sys2Proof.Machine.execFxHoles pk s
  | .fxTime pk => Sys2Proof.Machine.execFxTime pk s
  | .fxRails pk => Sys2Proof.Machine.execFxRails pk s
  | .fxMove pk => Sys2Proof.Machine.execFxMove pk s
  | .fxHalt pk => Sys2Proof.Machine.execFxHalt pk s
  | .fxHeat pk => Sys2Proof.Machine.execFxHeat pk s
  | .fxFaults pk => Sys2Proof.Machine.execFxFaults pk s
  | .fxFaultAck pk => Sys2Proof.Machine.execFxFaultAck pk s
  | .reservedOpcode pk => Sys2Proof.Machine.execReservedOpcode pk s
  | .faultRead pk => Sys2Proof.Machine.execFaultRead pk s
  | .faultAck pk => Sys2Proof.Machine.execFaultAck pk s
  | .inject pk => Sys2Proof.Machine.execInject pk s
  | .severitySet pk => Sys2Proof.Machine.execSeveritySet pk s
  | .compress run => Sys2Proof.Machine.execCompress run s
  | .eyeScan pk => Sys2Proof.Machine.execEyeScan pk s
  | .memStatus pk => Sys2Proof.Machine.execMemStatus pk s
  | .packetFetch rd => Sys2Proof.Machine.execPacketFetch rd s
  | .replyWrite q ok => Sys2Proof.Machine.execReplyWrite q ok s
  | .cmdSqTailWrite m q v => Sys2Proof.Machine.execCmdSqTailWrite m q v s
  | .cmdCqHeadWrite m q v => Sys2Proof.Machine.execCmdCqHeadWrite m q v s
  | .cmdQctlEnWrite m q v => Sys2Proof.Machine.execCmdQctlEnWrite m q v s
  | .registerWrite m off v => Sys2Proof.Machine.execRegisterWrite m off v s
  | .badAccess m off size acc => Sys2Proof.Machine.execBadAccess m off size acc s
  | .clmClaim m n owner res => Sys2Proof.Machine.execClmClaim m n owner res s
  | .clmRelease m n owner res => Sys2Proof.Machine.execClmRelease m n owner res s
  | .glbLockWrite m v => Sys2Proof.Machine.execGlbLockWrite m v s
  | .warmReset m key => Sys2Proof.Machine.execWarmReset m key s
  | .coldReset m key => Sys2Proof.Machine.execColdReset m key s
  | .timNowSecLoRead m => Sys2Proof.Machine.execTimNowSecLoRead m s
  | .timIncrHiWrite m v => Sys2Proof.Machine.execTimIncrHiWrite m v s
  | .timStepNsWrite m v => Sys2Proof.Machine.execTimStepNsWrite m v s
  | .stepApply => Sys2Proof.Machine.execStepApply s
  | .timKeyWrite m v => Sys2Proof.Machine.execTimKeyWrite m v s
  | .keyExpiry => Sys2Proof.Machine.execKeyExpiry s
  | .dmaGo m n => Sys2Proof.Machine.execDmaGo m n s
  | .dmaAbort m n => Sys2Proof.Machine.execDmaAbort m n s
  | .dmaResume m n => Sys2Proof.Machine.execDmaResume m n s
  | .dmaEvmSw m v => Sys2Proof.Machine.execDmaEvmSw m v s
  | .rasFpPeakClr m v => Sys2Proof.Machine.execRasFpPeakClr m v s
  | .escSlipPeakClr m v => Sys2Proof.Machine.execEscSlipPeakClr m v s
  | .padTjPeakClr m v => Sys2Proof.Machine.execPadTjPeakClr m v s
  | .rlePoolClr m v => Sys2Proof.Machine.execRlePoolClr m v s
  | .dosProbeArm m v => Sys2Proof.Machine.execDosProbeArm m v s
  | .balCfgWrite m v => Sys2Proof.Machine.execBalCfgWrite m v s
  | .balSpareWrite m n v => Sys2Proof.Machine.execBalSpareWrite m n v s
  | .balCutClear m v => Sys2Proof.Machine.execBalCutClear m v s
  | .mbxPost m ch v => Sys2Proof.Machine.execMbxPost m ch v s
  | .mbxDone m ch v => Sys2Proof.Machine.execMbxDone m ch v s
  | .mbxRing m r v => Sys2Proof.Machine.execMbxRing m r v s
  | .mbxAliveWrite m v => Sys2Proof.Machine.execMbxAliveWrite m v s
  | .mbxLockWrite m v => Sys2Proof.Machine.execMbxLockWrite m v s
  | .replyWindowExpiry ch slot => Sys2Proof.Machine.execReplyWindowExpiry ch slot s
  | .moveWdog core => Sys2Proof.Machine.execMoveWdog core s
  | .mbxShmLockRead m k => Sys2Proof.Machine.execMbxShmLockRead m k s
  | .mbxShmLockRelease m k v => Sys2Proof.Machine.execMbxShmLockRelease m k v s
  | .mbxShmGo m k v => Sys2Proof.Machine.execMbxShmGo m k v s
  | .shmReply k => Sys2Proof.Machine.execShmReply k s
  | .functionReset f kind => Sys2Proof.Machine.execFunctionReset f kind s
  | .alwaysOnPowerUp flash => Sys2Proof.Machine.execAlwaysOnPowerUp flash s
  | .wake src => Sys2Proof.Machine.execWake src s
  | .aocScheduleEntry toStandby => Sys2Proof.Machine.execAocScheduleEntry toStandby s
  | .mainUp => Sys2Proof.Machine.execMainUp s
  | .perstNRelease => Sys2Proof.Machine.execPerstNRelease s
  | .configLoad flash => Sys2Proof.Machine.execConfigLoad flash s
  | .ddr5BringUp found => Sys2Proof.Machine.execDdr5BringUp found s
  | .zeroFillDone => Sys2Proof.Machine.execZeroFillDone s
  | .seqSyncRise => Sys2Proof.Machine.execSeqSyncRise s
  | .railStart n => Sys2Proof.Machine.execRailStart n s
  | .pgRise n => Sys2Proof.Machine.execPgRise n s
  | .debounceDone n => Sys2Proof.Machine.execDebounceDone n s
  | .pgtoExpiry n => Sys2Proof.Machine.execPgtoExpiry n s
  | .pgFall rails => Sys2Proof.Machine.execPgFall rails s
  | .powerDownStart => Sys2Proof.Machine.execPowerDownStart s
  | .adcScan volts => Sys2Proof.Machine.execAdcScan volts s
  | .distoExpiry n => Sys2Proof.Machine.execDistoExpiry n s
  | .standbyEntry => Sys2Proof.Machine.execStandbyEntry s
  | .tOpenReached => Sys2Proof.Machine.execTOpenReached s
  | .runSyncFall => Sys2Proof.Machine.execRunSyncFall s
  | .armDone => Sys2Proof.Machine.execArmDone s
  | .armedEdge => Sys2Proof.Machine.execArmedEdge s
  | .commitStepOpen => Sys2Proof.Machine.execCommitStepOpen s
  | .commitEdge => Sys2Proof.Machine.execCommitEdge s
  | .unarmedStepEnd => Sys2Proof.Machine.execUnarmedStepEnd s
  | .windowExpiry => Sys2Proof.Machine.execWindowExpiry s
  | .guardEnd => Sys2Proof.Machine.execGuardEnd s
  | .runSyncLongLow => Sys2Proof.Machine.execRunSyncLongLow s
  | .heartbeatSend => Sys2Proof.Machine.execHeartbeatSend s
  | .heartbeatReceive port srcMac frame => Sys2Proof.Machine.execHeartbeatReceive port srcMac frame s
  | .hbLoss k => Sys2Proof.Machine.execHbLoss k s
  | .dupExpiry => Sys2Proof.Machine.execDupExpiry s
  | .quietPeriodEnd => Sys2Proof.Machine.execQuietPeriodEnd s
  | .autoRecovery => Sys2Proof.Machine.execAutoRecovery s
  | .plinkFrame stamp syms => Sys2Proof.Machine.execPlinkFrame stamp syms s
  | .plinkLockChange up => Sys2Proof.Machine.execPlinkLockChange up s
  | .encoderSample t delta illegal => Sys2Proof.Machine.execEncoderSample t delta illegal s
  | .sampleSlotMissing => Sys2Proof.Machine.execSampleSlotMissing s
  | .decision => Sys2Proof.Machine.execDecision s
  | .shotFire => Sys2Proof.Machine.execShotFire s
  | .stall => Sys2Proof.Machine.execStall s
  | .backChannelSend => Sys2Proof.Machine.execBackChannelSend s
  | .sos0Edge t => Sys2Proof.Machine.execSos0Edge t s
  | .sos1Edge t => Sys2Proof.Machine.execSos1Edge t s
  | .sosWindowExpiry => Sys2Proof.Machine.execSosWindowExpiry s
  | .hitComputeDone => Sys2Proof.Machine.execHitComputeDone s
  | .frameLateCheck left => Sys2Proof.Machine.execFrameLateCheck left s
  | .groupStrobeRise g => Sys2Proof.Machine.execGroupStrobeRise g s
  | .groupStrobeFall g => Sys2Proof.Machine.execGroupStrobeFall g s
  | .strobeWatchdog g => Sys2Proof.Machine.execStrobeWatchdog g s
  | .idleFrameSend => Sys2Proof.Machine.execIdleFrameSend s
  | .shotStatus n blk => Sys2Proof.Machine.execShotStatus n blk s
  | .health n blk => Sys2Proof.Machine.execHealth n blk s
  | .statusMissing => Sys2Proof.Machine.execStatusMissing s
  | .backchLockLoss n => Sys2Proof.Machine.execBackchLockLoss n s
  | .binFetch errs => Sys2Proof.Machine.execBinFetch errs s
  | .lineRender => Sys2Proof.Machine.execLineRender s
  | .lineCommit verifyOk => Sys2Proof.Machine.execLineCommit verifyOk s
  | .readyByWaitEnd pk => Sys2Proof.Machine.execReadyByWaitEnd pk s
  | .waitUsExpiry pk => Sys2Proof.Machine.execWaitUsExpiry pk s
  | .genFillDone n => Sys2Proof.Machine.execGenFillDone n s
  | .checkPatternShot => Sys2Proof.Machine.execCheckPatternShot s
  | .readingDone volts => Sys2Proof.Machine.execReadingDone volts s
  | .checkRunEnd => Sys2Proof.Machine.execCheckRunEnd s
  | .dmaBurst n host errs => Sys2Proof.Machine.execDmaBurst n host errs s
  | .descriptorDone n => Sys2Proof.Machine.execDescriptorDone n s
  | .dmaHalt n wr cause addr => Sys2Proof.Machine.execDmaHalt n wr cause addr s
  | .eventPulse src => Sys2Proof.Machine.execEventPulse src s
  | .rle1Item verifyOk => Sys2Proof.Machine.execRle1Item verifyOk s
  | .snapshotWaitExpiry => Sys2Proof.Machine.execSnapshotWaitExpiry s
  | .compressDone => Sys2Proof.Machine.execCompressDone s
  | .faultRaise src => Sys2Proof.Machine.execFaultRaise src s
  | .wireFault src => Sys2Proof.Machine.execWireFault src s
  | .levelConditionEnd src => Sys2Proof.Machine.execLevelConditionEnd src s
  | .injectionExpiry src => Sys2Proof.Machine.execInjectionExpiry src s
  | .aliveToggle => Sys2Proof.Machine.execAliveToggle s
  | .lockWaitExpiry g => Sys2Proof.Machine.execLockWaitExpiry g s
  | .lossOfReference g => Sys2Proof.Machine.execLossOfReference g s
  | .coastEnd g => Sys2Proof.Machine.execCoastEnd g s
  | .shotClockLimit => Sys2Proof.Machine.execShotClockLimit s
  | .clkCoastLimit g => Sys2Proof.Machine.execClkCoastLimit g s
  | .linkCoast => Sys2Proof.Machine.execLinkCoast s
  | .sscStop => Sys2Proof.Machine.execSscStop s
  | .syncInRise e => Sys2Proof.Machine.execSyncInRise e s
  | .ppsEdge => Sys2Proof.Machine.execPpsEdge s
  | .timekeeperTick => Sys2Proof.Machine.execTimekeeperTick s
  | .crystalEdge => Sys2Proof.Machine.execCrystalEdge s
  | .trimMeasure trim => Sys2Proof.Machine.execTrimMeasure trim s
  | .ptpMessageReceive p e msg => Sys2Proof.Machine.execPtpMessageReceive p e msg s
  | .ptpMessageSend p e kind => Sys2Proof.Machine.execPtpMessageSend p e kind s
  | .announceTimeout p => Sys2Proof.Machine.execAnnounceTimeout p s
  | .ptpMsgWaitExpiry p kind => Sys2Proof.Machine.execPtpMsgWaitExpiry p kind s
  | .refreshDue c rank ages => Sys2Proof.Machine.execRefreshDue c rank ages s
  | .scrubRead errs overwritten => Sys2Proof.Machine.execScrubRead errs overwritten s
  | .dimmTempRead c temp => Sys2Proof.Machine.execDimmTempRead c temp s
  | .alertN c => Sys2Proof.Machine.execAlertN c s
  | .microstep a => Sys2Proof.Machine.execMicrostep a s
  | .coarseStepEdge a forward ticks => Sys2Proof.Machine.execCoarseStepEdge a forward ticks s
  | .loadfbPulse a => Sys2Proof.Machine.execLoadfbPulse a s
  | .limitActive a positive active => Sys2Proof.Machine.execLimitActive a positive active s
  | .homeEdge a active => Sys2Proof.Machine.execHomeEdge a active s
  | .holddlyExpiry a => Sys2Proof.Machine.execHolddlyExpiry a s
  | .heaterControlPeriod z => Sys2Proof.Machine.execHeaterControlPeriod z s
  | .pwmPeriod z => Sys2Proof.Machine.execPwmPeriod z s
  | .jtagInstruction ev => Sys2Proof.Machine.execJtagInstruction ev s
  | .alwaysOnPowerLoss => Sys2Proof.Machine.execAlwaysOnPowerLoss s
  | .stepClosingRise => Sys2Proof.Machine.execStepClosingRise s
  | .hostClearServiceEntry => Sys2Proof.Machine.execHostClearServiceEntry s
  | .eyeScanDone res => Sys2Proof.Machine.execEyeScanDone res s
  | .laneRateChangeDone => Sys2Proof.Machine.execLaneRateChangeDone s
  | .tpLinkChange p up => Sys2Proof.Machine.execTpLinkChange p up s
  | .functionD3hotChange f d3 => Sys2Proof.Machine.execFunctionD3hotChange f d3 s
  | .mbxDbmaskWrite m n v => Sys2Proof.Machine.execMbxDbmaskWrite m n v s
  | .warmResetWaitExpiry => Sys2Proof.Machine.execWarmResetWaitExpiry s

end Sys2Proof.Machine
end

