-- ==== Sys2Proof/Safety.lean ====
section
/-! DEFINITION. What holds in every state the block can be in: the sparse stores are in canonical form, and the tables of the part hold no
more than their capacities. Claims about every state are stated over it. -/

namespace Sys2Proof.Machine

/-- The configuration that an open RUN_SYNC step keeps for a restore is in canonical form. -/
def State.savedOk (s : State) : Bool :=
  match s.run.cur with
  | some c => storeWf resetValue c.saved
  | none => true

/-- Every sparse store is in canonical form: registers, registers in force, job store, host memory, saved registers. -/
def State.storesOk (s : State) : Bool :=
  storeWf resetValue s.regs && storeWf resetValue s.applied && Memory.wf s.mem && Memory.wf s.hostMem && s.savedOk

/-- The tables hold no more than the part has room for: 2 open jobs (R61), 8 admitted stripes (R62), 1,024 hole records (R71), 256
fault log entries (R334). -/
def State.boundsOk (s : State) : Bool :=
  decide (s.lay.jobs.length ≤ 2) && decide (s.lay.stripes.length ≤ 8) && decide (s.lay.holes.length ≤ 1024) &&
    decide (s.flt.log.length ≤ 256)

/-- The invariant of the model. -/
def State.Inv (s : State) : Prop := s.storesOk = true ∧ s.boundsOk = true

/-- The packet stands to be decided as the opcode of `o` and passes R57: it is started and undecided, nothing decided in fetch order waits
before it, its function and the mode are the opcode's, and no parameter is bad. -/
def State.mayDecide (s : State) (pk : Packet) (o : OpSpec) : Bool :=
  s.ready pk && pkOpcode pk == o.op && !s.serialBlocked pk && o.funcs.contains pk.fn && o.modes.contains s.mode &&
    (badField pk o.fields).isNone

/-- The packet's reply is wanted, and none waits for it yet. -/
def State.awaits (s : State) (pk : Packet) : Bool := s.wanted pk && !s.cmd.held.any (fun h => h.pk == pk)

/-- A reply to the packet waits to be written, with this status, DETAIL and RESULT. -/
def State.answers (s : State) (pk : Packet) (status detail result : Nat) : Prop :=
  ∃ h ∈ s.cmd.held, h.pk = pk ∧ h.status = status ∧ h.detail = detail ∧ h.result = result

/-- The registers of DMA channel 1 that result data going to RBUF write (R219). -/
def replyRegs : List Nat := [rDmaDctl 1, rDmaDstLo 1, rDmaDstHi 1, rDmaStat 1]

/-- From `s` to `t` only the packets' bookkeeping, host memory and the registers of channel 1 changed, and host memory only in the
packet's reply buffer. -/
def State.onlyReplied (s t : State) (pk : Packet) : Prop :=
  t = { s with cmd := t.cmd, hostMem := t.hostMem, regs := t.regs } ∧ (∀ off, off ∉ replyRegs → t.rd off = s.rd off) ∧
  ∀ a, (a < pkRbuf pk ∨ pkRbuf pk + pkRoom pk ≤ a) → storeGet byteDefault t.hostMem a = storeGet byteDefault s.hostMem a

/-- No error of the packet's reply buffer stands on this clock: no halt of channel 1 on an address there waits behind the command (R226). -/
def State.rbufSound (s : State) (pk : Packet) : Bool := (s.chanFault (pkRbuf pk) (pkRoom pk)).isNone

/-- `s` with what hardware has set on the present clock as `t` has it: what a set W1C flag or a count leaves beside its register (R12). -/
def State.marked (s t : State) : State := { s with clk := { s.clk with sets := t.clk.sets } }

/-- From `s` to `t` only the packets' bookkeeping changed. -/
def State.onlyStatus (s t : State) : Prop := t = { s with cmd := t.cmd }

/-- The master can make accesses, and its access of the register reaches it. -/
def State.reaches (s : State) (m : Master) (off : Nat) : Bool := s.masterUp m && s.reach m off == .ok


/-- Tests 1 to 4 of R62 pass for an admission of job `j`, once its parameters stand: the temperature, the job and its pass, residency,
cleanness, the port, blocks and CHECKs, structure, map, rate, edges, window. -/
def State.admits (s : State) (pk : Packet) (j : Job) : Bool :=
  let base := pkU pk 0x30 8
  let len := pkU pk 0x38 8
  let p := stripePart base (s.jsRead base len)
  let er := s.endRec p base len
  let maps := match p.map with | some m => [m] | none => []
  let mapHole := match p.map with
    | some m => s.notCovered (mapRef m.2).addr (2 * (mapRef m.2).nx * (mapRef m.2).ny)
    | none => none
  !s.ddr.badTemp.any id && s.jobOf (pkU pk 0x20 4) == some j && decide (pkU pk 0x28 1 < j.n) &&
  (s.notCovered base len).isNone && (s.unclean base len).isNone &&
  !(p.bins ++ maps ++ [(p.endAt, er)]).any (fun q => s.portWaits 4 [(q.1, q.2.length)]) &&
  ((p.bins ++ maps ++ [(p.endAt, er)]).findSome? (fun q => (s.readRecs (p.bins ++ maps ++ [(p.endAt, er)])).badBlock q.1 q.2.length)).isNone &&
  (checkFails (p.bins ++ maps ++ (if recType er = 12 then [(p.endAt, er)] else []))).isNone &&
  (stripeStructure j base len p er).isNone && mapHole.isNone &&
  (s.rateRefused j (pkU pk 0x2C 4)).isNone && (edgeRefused j (pkU pk 0x2C 4) p.bins).isNone &&
  (decide (j.m ≤ 8) || (windowRefused (8 * j.m) 0 (p.bins.map (fun b => getU b.2 0x2C 4))).isNone)

/-- The slot that an admission of job `j` uses, if its generation stands ready there (R62, test 5; R154). -/
def State.genStands (s : State) (pk : Packet) (j : Job) : Bool :=
  let kind := if j.scan then 2 else 0
  match s.slotOf kind (pkU pk 0x2A 2) with
  | some n => s.slotState n != 1 && (kind != 0 || 2 ^ s.fld (rBmhGen n) 27 3 == j.m)
  | none => false

/-- The handle that the next admission gives (R65): never 0. -/
def State.nextHandle (s : State) : Nat := if s.lay.handles % 2 ^ 32 = 0xFFFFFFFF then 1 else s.lay.handles % 2 ^ 32 + 1

/-- The packet stands behind none of the steps and arms of stripe `x`. -/
def State.otherSteps (s : State) (pk : Packet) (x : Stripe) : Bool :=
  !s.run.queue.any (fun c => c.pk == pk) && !(x.armPk == some pk) &&
    (match s.run.cur with | some o => (match o.cmd with | some c => !(c.pk == pk) | none => true) | none => true)

/-- A raise of the source makes a new record: its domain is up, and the source has no uncleared record and is not held by its pair. -/
def State.mayRaise (s : State) (src : Nat) : Bool := s.collects src && (s.recOf src).state == 0 && !s.pairHeld src

/-- The registers of the DMA and of its event matrix (block 0x10). -/
def inDma (off : Nat) : Bool := decide (0x100000 ≤ off) && decide (off < 0x110000)

/-- A raise of `src` whose own rule blanks the stripe pass of `f` and `x` from shot or interval `sb` finds it so: the load is done, the pass stands and
reaches beyond `sb`, and the source has no uncleared record and is not held by its pair. -/
def State.mayBlank (s : State) (src : Nat) (f : Firing) (x : Stripe) (sb : Nat) : Prop :=
  s.mode ∈ [2, 3] ∧ s.dom.cfgDone = true ∧ s.esc.firing = some f ∧ s.stripeOf f.handle = some x ∧ sb < s.ends x ∧ s.mayRaise src = true

/-- From `s` to `t` the source has been raised and the pass of `f` aborted: its stripe has left the table, and nothing more locks. -/
def State.blanked (s t : State) (src : Nat) (f : Firing) : Prop :=
  (t.recOf src).state = 1 ∧ t.stripeOf f.handle = none ∧ (∀ g, t.esc.firing = some g → g.ended = true) ∧ t.mem = s.mem ∧ t.lay.jobs = s.lay.jobs

/-- Shot `f.pend` of a pass may lock at `ts` (R172, R177): its slip is within SLIPMAX, and its x residual within XLIM. -/
def State.lockFits (s : State) (x : Stripe) (shot : Nat) (ts : Int) : Bool :=
  let p := (s.geom x).1
  let den := 84 * s.escTs
  let err := s.fitAt s.fitYs ts - den * shotY x p shot
  let dx := if s.apFld rEscCfg 0 2 = 0 then (residual (den * (16 * x.x0) - s.fitAt s.fitXs ts) den).1 else 0
  decide (max 0 err ≤ (s.slipMax p * den : Nat)) && decide (dx.natAbs ≤ s.xLim)

/-- The raise comes now: it was not made in its turn already, and no lower source of its class is raised behind it on the clock (R333). -/
def State.inTurn (s : State) (x : Nat × Bool) : Bool := !s.flt.early.contains x && !s.waits (s.comesBefore x)

/-- A raise of the source would only be recorded: it may be raised, its severity is 0 or 1 and not escalated, its raise takes no snapshot
and blanks nothing, and no axis has a homing run to report as failed. -/
def State.raisesQuietly (s : State) (src : Nat) : Bool :=
  s.mayRaise src && decide (s.sevNow src ≤ 1) && !snapsItself src && (ownReason src).isNone && !s.escalated (Raise.of src) &&
    (List.range 8).all (fun a => !(s.axis a).failed)

end Sys2Proof.Machine
end

