-- ==== Sys2Proof/Certificates/Slice0/Obligations.lean ====
section
/-! DEFINITION. The statements for the provers, each one `def Obligations.<Name> : Prop`; OBLIGATIONS.json lists them with their tiers and
the rules they rest on. A statement whose title names a log entry rests on a choice of the model. -/

open Sys2Proof Sys2Proof.Machine

/-- A step with a command in front is that command's effect on the state with the rest of the queue. -/
def Obligations.StepRunsTheFrontCommand : Prop :=
  ∀ (c : Instr) (rest : List Instr) (s : State), step { s with pending := c :: rest } = exec c { s with pending := rest }

/-- The state after reset: what the spec says of always-on power-up (Tables 2-1, 2-10, 18-4; R1, R36, R302), read from Table 18-1. -/
def Obligations.ResetIsStandbyWithNothingRunning : Prop :=
  State.reset.mode = 0 ∧ State.reset.rd rGlbId = 0x4E5A0262 ∧ State.reset.fld rGlbRev 0 8 = 0xA0 ∧
  State.reset.dom.main = false ∧ State.reset.dom.mainUp = false ∧ State.reset.bal.blankAll = true ∧ State.reset.bal.high = [] ∧
  State.reset.run.pull = true ∧ State.reset.flt.alive = false ∧ State.reset.flt.recs = [] ∧ State.reset.pending = [] ∧
  (∀ a, storeGet byteDefault State.reset.mem a = 0#8) ∧ (∀ off, State.reset.rd off = (resetValue off).toNat) ∧
  State.reset.lay.jobs = [] ∧ State.reset.lay.stripes = [] ∧ State.reset.lay.holes = []

/-- The invariant holds after reset. -/
def Obligations.InvariantHoldsAtReset : Prop := State.reset.Inv

/-- Every step from a state with the invariant leads to one: every sparse store stays canonical, and no table outgrows the part. -/
def Obligations.EveryStepKeepsTheInvariant : Prop := ∀ s t : State, s.Inv → step s = .next t → t.Inv

/-- No command touches the queue of waiting commands. -/
def Obligations.NoCommandTouchesTheQueue : Prop := ∀ (c : Instr) (s t : State), s.Inv → exec c s = .next t → t.pending = s.pending

/-- Every command is carried out; only an access beyond BAR0 stops the model, with its fault (R371). -/
def Obligations.OnlyAccessesBeyondBar0Stop : Prop :=
  ∀ (c : Instr) (s : State),
    (∃ t, exec c s = .next t) ∨
    (exec c s = .fault .outsideBar0 ∧
      ((∃ m off v, c = .registerWrite m off v ∧ 0x1000000 ≤ off) ∨ (∃ m off n a, c = .badAccess m off n a ∧ 0x1000000 ≤ off)))

/-- NOP, IDENT, STATUS and the other queries (Table 3-4) reply OK and change nothing but the packet's bookkeeping and its reply buffer. That
an error of channel 1 on the data stands as a DMA_HALT behind the command on its clock, which the premise rules out, is the model's choice
(log entry 191).
Completion: under these conditions on the state and the operands alone, exec ANSWERS a next state, of its own effect, for nop, ident,
status, cellQuery, axisStatus, railStatus, heaterStatus, timeRead, fxStatus, fxTime, fxRails, memStatus. -/
def Obligations.QueriesReplyOkAndChangeNothingElse : Prop :=
  ∀ (pk : Packet) (s : State), s.awaits pk = true → s.rbufSound pk = true →
    let gives (i : Instr) (result : Nat) : Prop := ∃ t, exec i s = .next t ∧ t.answers pk 0 0 result ∧ s.onlyReplied t pk
    (s.mayDecide pk ⟨0x00, fnAll3, modesAny, []⟩ = true → gives (.nop pk) 0) ∧
    (s.mayDecide pk ⟨0x01, fnAll3, modesAny, []⟩ = true → gives (.ident pk) 0) ∧
    (s.mayDecide pk ⟨0x06, fnAll3, modesAny, []⟩ = true → gives (.status pk) ((s.mode + 256 * s.run.step.toNat) % 2 ^ 32)) ∧
    (s.mayDecide pk ⟨0x23, fnAll, modesAny, []⟩ = true → gives (.cellQuery pk) (min 160 (s.room pk / 8))) ∧
    (s.mayDecide pk ⟨0x55, fnAll, modesAny, fByte 8⟩ = true → gives (.axisStatus pk) 0) ∧
    (s.mayDecide pk ⟨0x60, fnAll, modesAny, []⟩ = true → gives (.railStatus pk) 0) ∧
    (s.mayDecide pk ⟨0x63, fnAll, modesAny, fByte 6⟩ = true → gives (.heaterStatus pk) 0) ∧
    (s.mayDecide pk ⟨0x70, fnAll3, modesAny, []⟩ = true → gives (.timeRead pk) 0) ∧
    (s.mayDecide pk ⟨0xA1, fnAll, modesAny, []⟩ = true → gives (.memStatus pk) 0) ∧
    (s.mayDecide pk (fxSpec 0x80 []) = true → gives (.fxStatus pk) ((s.mode + 256 * s.run.step.toNat) % 2 ^ 32)) ∧
    (s.mayDecide pk (fxSpec 0x85 []) = true → gives (.fxTime pk) 0) ∧
    (s.mayDecide pk (fxSpec 0x86 []) = true → gives (.fxRails pk) 0)

/-- TIME_READ, GEN_QUERY, FAULT_READ, FX_FAULTS, SNAPSHOT_READ and PTP_STATUS reply OK with their data or their counts (R56, R316, R334); a
snapshot read is marked read. That an empty entry replies OK (log entry 65), that log sequences compare modulo 65,536 (log entry 69), and
where an error of channel 1 stands (log entry 191) is the model's choice.
Completion: under these conditions on the state and the operands alone, exec ANSWERS a next state, of its own effect, for genQuery,
snapshotRead, timeRead, ptpStatus, fxFaults, faultRead. -/
def Obligations.QueriesReturnTheirData : Prop :=
  (∀ (pk : Packet) (s : State), s.awaits pk = true → s.rbufSound pk = true → 16 ≤ pkRoom pk → Memory.wf s.hostMem = true → s.dom.main = true →
     s.mayDecide pk ⟨0x70, fnAll3, modesAny, []⟩ = true →
     ∃ t, exec (.timeRead pk) s = .next t ∧
       ∀ i b, (timeBytes s.tim.sec s.tim.ns (s.tim.sub / 2 ^ 24))[i]? = some b → storeGet byteDefault t.hostMem (pkRbuf pk + i) = b) ∧
  (∀ (pk : Packet) (s : State), s.awaits pk = true → s.rbufSound pk = true → Memory.wf s.hostMem = true →
     let gives (i : Instr) (unit : Nat) (bs : List Byte) : Prop := ∃ t, exec i s = .next t ∧ s.onlyReplied t pk ∧
       t.answers pk 0 0 (min (bs.length / unit) (pkRoom pk / unit)) ∧
       ∀ k b, k < pkRoom pk / unit * unit → bs[k]? = some b → storeGet byteDefault t.hostMem (pkRbuf pk + k) = b
     let slot (n : Nat) : List Byte := leBytes 2 (s.genAt n) ++ leBytes 1 (s.slotState n) ++ leBytes 1 (s.fld (rBmhGen n) 27 3) ++
       leBytes 1 (s.slotPins n) ++ [0#8, 0#8, 0#8]
     let behind := signed 16 (pkU pk 0x20 2 + 65536 - s.oldestSeq)
     let kept := if behind < 0 then s.flt.log else s.flt.log.drop behind.toNat
     let l := if pkU pk 0x22 2 = 0 then kept else kept.take (pkU pk 0x22 2)
     let entries := (l.zipIdx.map (fun p => logBytes (decide (behind < 0) && p.2 == 0) p.1)).flatten
     (s.mayDecide pk ⟨0x34, fnAll, modesAny, fByte 3⟩ = true →
       gives (.genQuery pk) 8 (slot (2 * pkU pk 0x20 1) ++ slot (2 * pkU pk 0x20 1 + 1))) ∧
     (s.mayDecide pk ⟨0x90, fnAll, modesAny, fFaultRead⟩ = true → gives (.faultRead pk) 32 entries) ∧
     (s.mayDecide pk (fxSpec 0x8A fFaultRead) = true → gives (.fxFaults pk) 32 entries)) ∧
  (∀ (pk : Packet) (s : State), s.Inv → s.awaits pk = true → s.rbufSound pk = true →
     let outside (t : State) : Prop := ∀ a, (a < pkRbuf pk ∨ pkRbuf pk + pkRoom pk ≤ a) →
       storeGet byteDefault t.hostMem a = storeGet byteDefault s.hostMem a
     (∀ x, s.mayDecide pk ⟨0x61, fnAll, modesAny, fByte 16⟩ = true → s.snap.entries[pkU pk 0x20 1]? = some (some x) →
       ∃ t, exec (.snapshotRead pk) s = .next t ∧ t.answers pk 0 0 0 ∧ t.snap.entries = s.snap.entries.set (pkU pk 0x20 1) (some { x with read := true }) ∧
         (∀ i b, i < pkRoom pk → (snapshotBytes x)[i]? = some b → storeGet byteDefault t.hostMem (pkRbuf pk + i) = b) ∧
         t = { s with cmd := t.cmd, hostMem := t.hostMem, regs := t.regs, snap := { s.snap with entries := t.snap.entries } } ∧
         outside t ∧ ∀ o, o ≠ rPwrSnap → o ∉ replyRegs → t.rd o = s.rd o) ∧
     (s.mayDecide pk ⟨0x61, fnAll, modesAny, fByte 16⟩ = true → s.snap.entries[pkU pk 0x20 1]? = some none →
       ∃ t, exec (.snapshotRead pk) s = .next t ∧ t.answers pk 0 0 0 ∧ t.snap = s.snap ∧
         t = { s with cmd := t.cmd, hostMem := t.hostMem, regs := t.regs, free := t.free } ∧
         outside t ∧ ∀ o, o ∉ replyRegs → t.rd o = s.rd o) ∧
     (s.mayDecide pk ⟨0x73, fnAll, modesAny, fByte 2⟩ = true →
       ∃ t, exec (.ptpStatus pk) s = .next t ∧ t.answers pk 0 0 0 ∧ s.onlyReplied t pk))

/-- R57, steps 4 to 6, shown on MODE_ARM, CLAIM and INJECT: a packet from another function is refused 0x03, in another mode 0x04, and a bad
parameter 0x02 with its offset; nothing else happens. That MODE_ARM in HOLD is refused by its mode, 0x04, and not 0x15, is the model's choice
(log entry 132). An opcode that Table 3-4 does not list is answered 0x01, and has no other effect (R57, step 3). -/
def Obligations.PacketChecksRefuseInOrder : Prop :=
  (∀ (pk : Packet) (s : State), s.awaits pk = true → s.ready pk = true → s.serialBlocked pk = false →
     let refused (i : Instr) (st d : Nat) : Prop := ∃ t, exec i s = .next t ∧ t.answers pk st d 0 ∧ s.onlyStatus t
     (pkOpcode pk = 0x02 → pk.fn ≠ .h0 → refused (.modeArm pk) 0x03 0) ∧
     (pkOpcode pk = 0x02 → pk.fn = .h0 → s.mode = 0 ∨ s.mode = 5 → refused (.modeArm pk) 0x04 0) ∧
     (pkOpcode pk = 0x02 → pk.fn = .h0 → s.mode ∈ modesRun → ∀ o, badField pk fModeArm = some o → refused (.modeArm pk) 0x02 (o % 2 ^ 32)) ∧
     (pkOpcode pk = 0x07 → pk.fn ∉ fn01 → refused (.claim pk) 0x03 0) ∧
     (pkOpcode pk = 0x07 → pk.fn ∈ fn01 → s.mode ≠ 1 → refused (.claim pk) 0x04 0) ∧
     (pkOpcode pk = 0x92 → pk.fn ∉ [Master.h1, .h2] → refused (.inject pk) 0x03 0) ∧
     (pkOpcode pk = 0x92 → pk.fn ∈ [Master.h1, .h2] → s.mode ≠ 1 → refused (.inject pk) 0x04 0) ∧
     (pkOpcode pk = 0x92 → pk.fn ∈ [Master.h1, .h2] → s.mode = 1 → isSource (pkU pk 0x20 2) = false → refused (.inject pk) 0x02 0x20) ∧
     (pkOpcode pk = 0x92 → pk.fn ∈ [Master.h1, .h2] → s.mode = 1 → isSource (pkU pk 0x20 2) = true →
       injValueOk (pkU pk 0x20 2) (pkU pk 0x24 4) = false → refused (.inject pk) 0x02 0x24)) ∧
  (∀ (pk : Packet) (s : State), s.awaits pk = true → s.ready pk = true → knownOps.contains (pkOpcode pk) = false →
     ∃ t, exec (.reservedOpcode pk) s = .next t ∧ t.answers pk 0x01 0 0 ∧ s.onlyStatus t)

/-- A fetch (R50, R53, R57) takes the packet at the head of the queue whose turn it is: the head passes its slots, the packet is started, and
the turn goes to the next queue.
Completion: under these conditions on the state and the operands alone, exec ANSWERS a next state, of its own effect, for packetFetch. -/
def Obligations.PacketFetchStartsThePacket : Prop :=
  ∀ (s : State) (q : Nat) (bs : List Byte), s.Inv → s.pcieUp = true → s.masterUp .m0 = true → s.turn = some q → q < 16 →
    let len := getU bs 6 2
    32 ≤ len → len ≤ 1024 → len % 4 = 0 → len ≤ bs.length → getU bs 1 1 % 2 = 0 →
    ceilDiv len 32 ≤ (s.qTail q + (s.queue q).sqSize - s.qHead q) % (s.queue q).sqSize →
    headerBad (bs.take len) q = none →
    ∃ t, exec (.packetFetch (.bytes bs)) s = .next t ∧
      t.cmd.started = s.cmd.started ++ [⟨⟨s.cmd.nextId, .queue q, fnMaster (s.fld (rCmdQctl q) 24 2), bs.take len⟩, false, false, s.now40⟩] ∧
      t.cmd.next = (q + 1) % 16 ∧ t.cmd.nextId = s.cmd.nextId + 1 ∧
      t.qHead q = (s.qHead q + ceilDiv len 32) % (s.queue q).sqSize % 2 ^ 12 ∧
      t = { s with regs := t.regs, cmd := t.cmd }

/-- A reply that is written (R51) goes to the queue's completion slot, leaves the part's packets, and moves the completion index, which
wraps with a change of PHASE; no byte elsewhere changes.
Completion: under these conditions on the state and the operands alone, exec ANSWERS a next state, of its own effect, for replyWrite. -/
def Obligations.ReplyWriteFillsTheCompletionSlot : Prop :=
  ∀ (s : State) (q : Fin 16) (h : Held), s.Inv → s.pcieUp = true → s.qEn q = true → s.qHalted q = false → s.cqFull q = false →
    s.heldOf q = some h → s.dom.resetting = 0 → haltsQueue h = false → q.val < s.cmd.queues.length →
    let x := s.queue q
    ∃ t, exec (.replyWrite q true) s = .next t ∧ t.regs = s.regs ∧
      t.cmd.held = s.cmd.held.filter (fun k => !(k.pk == h.pk)) ∧ t.cmd.started = s.cmd.started.filter (fun e => !(e.pk == h.pk)) ∧
      (t.queue q).cqw = (if x.cqw + 1 = x.cqSize then 0 else x.cqw + 1) ∧
      (t.queue q).phase = (if x.cqw + 1 = x.cqSize then !x.phase else x.phase) ∧
      (∀ i b, (replyBytes h (s.qHead q) x.phase)[i]? = some b → storeGet byteDefault t.hostMem (x.cqBase + 16 * x.cqw + i) = b) ∧
      (∀ a, (a < x.cqBase + 16 * x.cqw ∨ x.cqBase + 16 * x.cqw + 16 ≤ a) →
        storeGet byteDefault t.hostMem a = storeGet byteDefault s.hostMem a)

/-- Queue registers (R49, R53, R54, R350): a doorbell inside its queue is taken and one beyond it halts the queue with error 4; clearing EN
discards the replies still to come; a function reset disables its queues and steps its epoch, and nothing of jobs or memory changes.
Completion: under these conditions on the state and the operands alone, exec ANSWERS a next state, of its own effect, for cmdSqTailWrite,
cmdCqHeadWrite, cmdQctlEnWrite, functionReset. -/
def Obligations.QueuesTakeDoorbellsAndDisable : Prop :=
  (∀ (s : State) (m : Master) (q : Fin 16) (v : Word), s.Inv → s.reaches m (rCmdSqTail q) = true → s.reaches m (rCmdCqHead q) = true →
     s.queueOwner m q = true → s.qEn q = true →
     let w := v.toNat % 4096
     (w < (s.queue q).sqSize → ∃ t, exec (.cmdSqTailWrite m q v) s = .next t ∧ t.rd (rCmdSqTail q) = w ∧ t = { s.touch with regs := t.regs } ∧
       ∀ o, o ≠ rCmdSqTail q → t.rd o = s.rd o) ∧
     ((s.queue q).sqSize ≤ w → s.qHalted q = false → ∃ t, exec (.cmdSqTailWrite m q v) s = .next t ∧ t.qHalted q = true ∧
       t.fld (rCmdQstat q) 24 4 = 4 ∧ t = { s.touch with regs := t.regs } ∧ ∀ o, o ≠ rCmdQstat q → t.rd o = s.rd o) ∧
     (w < (s.queue q).cqSize → ∃ t, exec (.cmdCqHeadWrite m q v) s = .next t ∧ t.rd (rCmdCqHead q) = w ∧ t = { s.touch with regs := t.regs } ∧
       ∀ o, o ≠ rCmdCqHead q → t.rd o = s.rd o) ∧
     ((s.queue q).cqSize ≤ w → s.qHalted q = false → ∃ t, exec (.cmdCqHeadWrite m q v) s = .next t ∧ t.qHalted q = true ∧
       t.fld (rCmdQstat q) 24 4 = 4 ∧ t = { s.touch with regs := t.regs } ∧ ∀ o, o ≠ rCmdQstat q → t.rd o = s.rd o)) ∧
  (∀ (s : State) (m : Master) (q : Fin 16) (v : Word), s.Inv → s.reaches m (rCmdQctl q) = true → s.queueOwner m q = true →
     s.qEn q = true → s.locked (rCmdQctl q) = false → s.dom.resetting = 0 → bitAt v.toNat 31 = false →
     ∃ t, exec (.cmdQctlEnWrite m q v) s = .next t ∧ t.qEn q = false ∧ t.rd (rCmdQstat q) = 0 ∧ t.rd (rCmdSqTail q) = 0 ∧
       t.rd (rCmdCqHead q) = 0 ∧ (∀ h ∈ t.cmd.held, fromQueue q h.pk = false) ∧
       (∀ e ∈ t.cmd.started, fromQueue q e.pk = true → e.discard = true) ∧
       t.lay = s.lay ∧ t.mem = s.mem ∧ t.hostMem = s.hostMem) ∧
  (∀ (s : State) (f : Fin 4) (k : FnReset), s.Inv → s.dom.main = true → s.dom.resetting = 0 →
     ∃ t, exec (.functionReset f k) s = .next t ∧ t.lay = s.lay ∧ t.mem = s.mem ∧ t.mode = s.mode ∧
       t.rd (rMbxEpoch (7 + f.val)) = (s.rd (rMbxEpoch (7 + f.val)) + 1) % 256 ∧
       ∀ q : Fin 16, s.fld (rCmdQctl q) 24 2 = f.val → t.qEn q = false)

/-- Claims (R37, R38, R41): CLM_CLAIM and the CLAIM packet grant a free resource; a held one conflicts and keeps its owner; the holder frees
it, and a pinned claim stays.
Completion: under these conditions on the state and the operands alone, exec ANSWERS a next state, of its own effect, for claim, clmClaim,
clmRelease. -/
def Obligations.ClaimsGrantAndRelease : Prop :=
  (∀ (s : State) (m : Master) (n : Fin 5) (owner res : Byte), s.Inv → s.reaches m (rClmReq n) = true → masterCode m = n.val → res.toNat < 20 →
     s.touch.doneAhead res.toNat (claimEntry n.val owner.toNat) = false →
     (s.clmHeld res.toNat = false → s.touch.claimRival n.val res.toNat = none → ∃ t, exec (.clmClaim m n owner res) s = .next t ∧ t.clmHeld res.toNat = true ∧
       t.clmOwner res.toNat = owner.toNat ∧ t.clmMaster res.toNat = n.val ∧ t.clmPinned res.toNat = false ∧
       t.fld (rClmResult n) 0 2 = 0 ∧ t.flag (rClmResult n) 31 = true ∧ t = { s.touch with regs := t.regs }) ∧
     (s.clmHeld res.toNat = true → s.touch.freedNow res.toNat = false → ∃ t, exec (.clmClaim m n owner res) s = .next t ∧
       t.rd (rClmEntry res.toNat) = s.rd (rClmEntry res.toNat) ∧ t.fld (rClmResult n) 0 2 = 1 ∧ t = { s.touch.marked t with regs := t.regs }) ∧
     (s.clmHeld res.toNat = true → s.touch.freedNow res.toNat = true → ∃ t, exec (.clmClaim m n owner res) s = .next t ∧
       t.rd (rClmEntry res.toNat) = claimEntry n.val owner.toNat ∧ t.fld (rClmResult n) 0 2 = 0 ∧
       t = { s.touch with regs := t.regs, dom := t.dom }) ∧
     (s.clmPinned res.toNat = false → s.clmHeld res.toNat = true → s.clmMaster res.toNat = n.val → s.clmOwner res.toNat = owner.toNat →
       ∃ t, exec (.clmRelease m n owner res) s = .next t ∧ t.clmHeld res.toNat = false ∧ t.fld (rClmResult n) 0 2 = 0 ∧
         t = { s.touch with regs := t.regs }) ∧
     (s.clmPinned res.toNat = true → ∃ t, exec (.clmRelease m n owner res) s = .next t ∧
       t.rd (rClmEntry res.toNat) = s.rd (rClmEntry res.toNat) ∧ t.fld (rClmResult n) 0 2 = 3 ∧
       t = { s.touch.marked t with regs := t.regs })) ∧
  (∀ (pk : Packet) (s : State), s.Inv → s.awaits pk = true → s.mayDecide pk ⟨0x07, fn01, [1], fClaim⟩ = true → pkU pk 0x20 1 = 1 →
     pkU pk 0x22 1 < 20 → s.clmHeld (pkU pk 0x22 1) = false → (s.take pk).claimRival 2 (pkU pk 0x22 1) = none →
     ∃ t, exec (.claim pk) s = .next t ∧ t.answers pk 0 0 0 ∧ t.clmHeld (pkU pk 0x22 1) = true ∧
       t.clmOwner (pkU pk 0x22 1) = pkU pk 0x21 1 ∧ t.clmMaster (pkU pk 0x22 1) = 2 ∧ t.lay = s.lay ∧ t.mem = s.mem)

/-- Mailbox channels (R347 to R349, R352, R353): a post queues the message with its payload, DONE frees the oldest, a reply window that ends
marks its message, and a core whose watchdog expires is held.
Completion: under these conditions on the state and the operands alone, exec ANSWERS a next state, of its own effect, for mbxPost,
mbxDone, replyWindowExpiry, moveWdog. -/
def Obligations.MailboxesQueueAndFreeMessages : Prop :=
  (∀ (s : State) (m : Master) (ch : Fin 48) (v : Word), s.Inv → s.reaches m (rMbxPost ch) = true → masterCode m = s.chSender ch →
     s.chEn ch = true → s.codeUp (s.chReceiver ch) = true → s.chCount ch < 8 →
     (s.chan ch).slots.length = 8 → ch.val < s.mbx.chans.length →
     ∃ t x, exec (.mbxPost m ch v) s = .next t ∧ t.chCount ch = s.chCount ch + 1 ∧
       (t.chan ch).slots[(s.chHead ch + s.chCount ch) % 8]? = some x ∧ x.sender = (if masterCode m = 11 then 0x40 + bits v.toNat 16 6 else masterCode m) ∧
       x.seq = (s.chan ch).seq ∧ x.data = (s.chan ch).staging ∧ x.unread = true ∧ x.timeout = false ∧ t.lay = s.lay ∧ t.mem = s.mem) ∧
  (∀ (s : State) (m : Master) (ch : Fin 48) (v : Word), s.Inv → s.reaches m (rMbxDone ch) = true → masterCode m = s.chReceiver ch →
     bitAt v.toNat 0 = true → 0 < s.chCount ch →
     ∃ t, exec (.mbxDone m ch v) s = .next t ∧ t.chCount ch = s.chCount ch - 1 ∧ t.chHead ch = (s.chHead ch + 1) % 8 ∧
       t = { s with regs := t.regs, mbx := t.mbx } ∧ ∀ o, o ≠ rMbxChstat ch → t.rd o = s.rd o) ∧
  (∀ (s : State), s.Inv →
     (∀ (ch : Fin 48) (slot : Fin 8) (x : MbxSlot), (s.chan ch).slots[slot.val]? = some x → x.unread = true → x.timeout = false →
       ch.val < s.mbx.chans.length → s.doneTies ch slot.val = false →
       ∃ t y, exec (.replyWindowExpiry ch slot) s = .next t ∧ (t.chan ch).slots[slot.val]? = some y ∧ y.timeout = true ∧
         t.flag (rMbxChstat ch) 29 = true ∧ t = { s.marked t with regs := t.regs, mbx := t.mbx }) ∧
     (∀ core : Fin 3, s.dom.main = true → s.mbx.coreHeld[core.val]? = some false → s.aliveTies core = false →
       ∃ t, exec (.moveWdog core) s = .next t ∧ t = (s.holdCore core).raise srcMoveWdog ∧
         (s.holdCore core).mbx.coreHeld[core.val]? = some true))

/-- The other mailbox writes (R349, R346, R351, R356): a ring by a channel's sender sets its doorbell bit, MBX_LOCK locks, a core's ALIVE
write is noted, the mask takes the value its owner writes, and D3hot is entered.
Completion: under these conditions on the state and the operands alone, exec ANSWERS a next state, of its own effect, for mbxRing,
mbxAliveWrite, mbxLockWrite, functionD3hotChange, mbxDbmaskWrite. -/
def Obligations.MailboxWritesTakeEffect : Prop :=
  ∀ (s : State) (m : Master) (v : Word), s.Inv →
    (∀ r : Fin 11, s.reaches m (rMbxRing r) = true → v.toNat &&& (0xFFFFFFFF - s.touch.ringable m r) = 0 →
      ∃ t, exec (.mbxRing m r v) s = .next t ∧ t.rd (rMbxDb r) = s.rd (rMbxDb r) ||| (v.toNat &&& s.touch.ringable m r) ∧
        t = { s.touch.marked t with regs := t.regs, out := t.out, dom := { s.dom with msix := t.dom.msix } }) ∧
    (s.reaches m rMbxLock = true → bitAt v.toNat 0 = true →
      ∃ t, exec (.mbxLockWrite m v) s = .next t ∧ t.flag rMbxLock 0 = true ∧ t.flag rGlbLock 2 = true ∧ t = { s.touch with regs := t.regs }) ∧
    (∀ c, coreOf m = some c → s.reaches m rMbxAlive = true → bitAt v.toNat c = true → c < s.mbx.aliveAt.length →
      ∃ t, exec (.mbxAliveWrite m v) s = .next t ∧ t.mbx.aliveAt[c]? = some s.tim.elapsed ∧ t.regs = s.regs ∧ t = { s with mbx := t.mbx }) ∧
    (∀ i : Fin 11, s.reaches m (rMbxDbmask i) = true → masterCode m = i.val →
      ∃ t, exec (.mbxDbmaskWrite m i v) s = .next t ∧ t.rd (rMbxDbmask i) = v.toNat ∧
        t = { s.touch with regs := t.regs, out := t.out, dom := { s.dom with msix := t.dom.msix } }) ∧
    (∀ f : Fin 4, f.val < s.dom.d3.length →
      ∃ t, exec (.functionD3hotChange f true) s = .next t ∧ t.dom.d3[f.val]? = some true ∧ t = { s with dom := t.dom })

/-- The shared mailboxes (R354, R355): a free lock is taken by the read that finds it free, no lower owner reading it on the clock; the owner's
write of 0 frees it, GO starts the packet in the window, and the reply goes back into the window with the doorbell bit 28 + k of its owner.
Completion: under these conditions on the state and the operands alone, exec ANSWERS a next state, of its own effect, for mbxShmLockRead,
mbxShmLockRelease, mbxShmGo, shmReply. -/
def Obligations.SharedMailboxesLockRunAndReply : Prop :=
  ∀ (s : State) (m : Master) (k : Fin 4), s.Inv → k.val < s.mbx.shms.length →
    (s.reaches m (rMbxShmLock k) = true → s.touch.shmOwner k = 0 →
      s.touch.shmRival k (ownerNo (masterCode m)) = ownerNo (masterCode m) →
      ∃ t x, exec (.mbxShmLockRead m k) s = .next t ∧ t.mbx.shms[k.val]? = some x ∧ x.owner = ownerNo (masterCode m) ∧ x.releasedAt = none ∧
        t.out = s.out ++ [.readValue m (rMbxShmLock k) 0#32] ∧ t = { s with mbx := t.mbx, out := t.out }) ∧
    (s.reaches m (rMbxShmLock k) = true → s.touch.shmOwner k = ownerNo (masterCode m) →
      ∃ t x, exec (.mbxShmLockRelease m k 0#32) s = .next t ∧ t.mbx.shms[k.val]? = some x ∧
        x.releasedAt = some (s.mbx.accesses + 1, s.tim.elapsed) ∧ t = { s with mbx := t.mbx }) ∧
    (s.reaches m (rMbxShmGo k) = true → s.touch.shmOwner k = ownerNo (masterCode m) → s.flag (rMbxShmStat k) 31 = false →
      lengthBad (getU (s.shm k).slots 6 2) = false → getU (s.shm k).slots 6 2 ≤ 512 →
      headerBad ((s.shm k).slots.take (getU (s.shm k).slots 6 2)) 0xFF = none →
      ∃ t, exec (.mbxShmGo m k 1#32) s = .next t ∧ t.flag (rMbxShmStat k) 31 = true ∧
        t.cmd.started = s.cmd.started ++ [⟨⟨s.cmd.nextId, .shared k, m, (s.shm k).slots.take (getU (s.shm k).slots 6 2)⟩, false, false, s.now40⟩] ∧
        t.lay = s.lay ∧ t.mem = s.mem) ∧
    (∀ h, s.cmd.held.find? (fun h => h.pk.org == .shared k) = some h → s.dom.resetting = 0 →
      ∃ t x, exec (.shmReply k) s = .next t ∧ t.mbx.shms[k.val]? = some x ∧ x.slots.take 16 = replyBytes h 0 false ∧ x.run = none ∧
        t.flag (rMbxShmStat k) 31 = false ∧ t.flag (rMbxShmStat k) 30 = true ∧
        (masterCode h.pk.fn ≤ 10 → t.flag (rMbxDb (masterCode h.pk.fn)) (28 + k.val) = true) ∧ t.lay = s.lay ∧ t.mem = s.mem)

/-- JOB_OPEN and JOB_CLOSE (R61, R81): a third job is refused, naming the older; a part that passes every check becomes an open job; an open job
without stripes leaves the part, and one that an admitted stripe names stays.
Completion: under these conditions on the state and the operands alone, exec ANSWERS a next state, of its own effect, for jobOpen,
jobClose. -/
def Obligations.JobsOpenAndClose : Prop :=
  (∀ (pk : Packet) (s : State), s.awaits pk = true → s.mayDecide pk ⟨0x10, [.h0], modesRun, s.fJobOpen pk⟩ = true →
     let hdr := pkU pk 0x28 8
     let len := pkU pk 0x30 8
     let bs := s.jsRead hdr len
     let rs := splitRecs hdr bs.length bs
     let past := s.jsRead (hdr + len) 32
     let j := jobFrom (pkU pk 0x20 4) rs
     (∀ a b l, s.lay.jobs = a :: b :: l → ∃ t, exec (.jobOpen pk) s = .next t ∧ t.answers pk 0x10 (5 * 2 ^ 24) (a.id % 2 ^ 32) ∧ s.onlyStatus t) ∧
     (s.lay.jobs.length < 2 → s.ddr.badTemp.any id = false → s.notCovered hdr len = none → s.unclean hdr len = none →
       s.portWaits 4 [(hdr, min len 312)] = false → s.portWaits 0 [(hdr + 312, len - 312)] = false →
       s.errBlocks hdr len = [] → s.badBlock hdr len = none → checkFails rs = none → (recType (bs ++ past) = 1 → (getU (bs ++ past) 8 1 == 1) = s.scnPort) →
       jobLayout hdr bs past rs = none →
       cellCause (getU bs 0x0C 4) [] (rs.drop 3) = none → (∀ c ∈ j.cells, ∀ o ∈ s.lay.jobs, ∀ d ∈ o.cells, d.ctx ≠ c.ctx) →
       ∃ t, exec (.jobOpen pk) s = .next t ∧ t.answers pk 0 0 (j.cells.length % 2 ^ 32) ∧
         t = { (s.portServed 4).portServed 0 with cmd := t.cmd, lay := { s.lay with jobs := s.lay.jobs ++ [j] } })) ∧
  (∀ (pk : Packet) (s : State), s.awaits pk = true → s.mayDecide pk ⟨0x14, [.h0], modesRunHold, [anyField 0x20 4]⟩ = true →
     let job := pkU pk 0x20 4
     ((s.jobOf job).isSome = true → s.lay.stripes.find? (fun x => x.job == job) = none →
       ∃ t, exec (.jobClose pk) s = .next t ∧ t.answers pk 0 0 0 ∧ t.jobOf job = none ∧
         t = { s with cmd := t.cmd, lay := { s.lay with jobs := s.lay.jobs.filter (fun j => !(j.id == job)) } }) ∧
     (∀ x, (s.jobOf job).isSome = true → s.lay.stripes.find? (fun x => x.job == job) = some x →
       ∃ t, exec (.jobClose pk) s = .next t ∧ t.answers pk 0x11 (9 * 2 ^ 24) (x.handle % 2 ^ 32) ∧ s.onlyStatus t) ∧
     ((s.jobOf job).isNone = true → ∃ t, exec (.jobClose pk) s = .next t ∧ t.answers pk 0x11 (7 * 2 ^ 24) 0 ∧ s.onlyStatus t))

/-- UPLOAD, FX_LOAD, RELEASE and VERIFY (R59, R60): bytes whose CRC-32C matches are stored and become one resident region; a release removes the
regions it overlaps and no byte; VERIFY answers the CRC-32C of its range.
Completion: under these conditions on the state and the operands alone, exec ANSWERS a next state, of its own effect, for upload, release,
verify, fxLoad. -/
def Obligations.JobStoreUploadsReleasesVerifies : Prop :=
  (∀ (pk : Packet) (s : State) (bs : List Byte), s.Inv → s.awaits pk = true → s.memReady = true →
     let a := pkU pk 0x28 8
     let n := pkU pk 0x30 8
     let does (i : Instr) : Prop := s.portWaits 2 [(a, n)] = false →
       (s.destRefused a n = none → bs.length = n → crc32c bs = pkU pk 0x38 4 →
         ∃ t r, exec i s = .next t ∧ t.answers pk 0 0 0 ∧ (∀ k b, bs[k]? = some b → storeGet byteDefault t.mem (a + k) = b) ∧
           (∀ k, (k < a ∨ a + n ≤ k) → storeGet byteDefault t.mem k = storeGet byteDefault s.mem k) ∧
           t.lay = { s.lay with regions := s.lay.regions.filter (fun r => !overlap r.base r.len a n) ++ [r] } ∧ r.base = a ∧ r.len = n ∧
           (r.cause = 0 ↔ ∀ p, walk a bs = some p → p.2 = 0) ∧ (∀ o, inDma o = false → t.rd o = s.rd o) ∧
           t.hostMem = s.hostMem) ∧
       (s.destRefused a n = none → bs.length = n → crc32c bs ≠ pkU pk 0x38 4 →
         ∃ t, exec i s = .next t ∧ t.answers pk 0x11 (2 * 2 ^ 24) 0 ∧
           t.lay = { s.lay with regions := s.lay.regions.filter (fun r => !overlap r.base r.len a n) } ∧
           (∀ k, (k < a ∨ a + n ≤ k) → storeGet byteDefault t.mem k = storeGet byteDefault s.mem k) ∧
           ∀ o, inDma o = false → t.rd o = s.rd o)
     (s.mayDecide pk ⟨0x20, fn01, modesRun, s.fUpload pk⟩ = true → does (.upload pk (.bytes bs))) ∧
     (s.mayDecide pk (fxSpec 0x81 (s.fUpload pk)) = true → does (.fxLoad pk (.bytes bs)))) ∧
  (∀ (pk : Packet) (s : State), s.awaits pk = true →
     let a := pkU pk 0x20 8
     let n := pkU pk 0x28 8
     (s.mayDecide pk ⟨0x21, fn01, modesRunHold, s.fJsLen pk 0x20 0x28 8⟩ = true → overlap a n s.partArea 67108864 = false →
       s.pinnedEntry a n = none → ∃ t, exec (.release pk) s = .next t ∧ t.answers pk 0 0 0 ∧
         t = { s with cmd := t.cmd, lay := { s.lay with regions := s.lay.regions.filter (fun r => !overlap r.base r.len a n) } }) ∧
     (∀ i, s.mayDecide pk ⟨0x21, fn01, modesRunHold, s.fJsLen pk 0x20 0x28 8⟩ = true → overlap a n s.partArea 67108864 = false →
       s.pinnedEntry a n = some i →
       ∃ t, exec (.release pk) s = .next t ∧ t.answers pk 0x11 (4 * 2 ^ 24 + i % 2 ^ 24) 0 ∧ s.onlyStatus t) ∧
     (s.mayDecide pk ⟨0x22, fn01, modesRun, s.fJsLen pk 0x20 0x28 8 ++ [anyField 0x30 4]⟩ = true → s.errBlocks a n = [] → s.badBlock a n = none →
       s.portWaits 5 [(a, n)] = false →
       ∃ t, exec (.verify pk) s = .next t ∧ t.answers pk 0 0 (crc32c (s.jsRead a n) % 2 ^ 32) ∧ (s.portServed 5).onlyStatus t))

/-- Admission (R62, R65, R75, R154): a stripe that passes every test enters the table under the next handle, at once or when its generation
is ready; at the end of its wait it is refused GEN_NOT_READY, TOO_LATE.
Completion: under these conditions on the state and the operands alone, exec ANSWERS a next state, of its own effect, for stripeAdmit,
fxStripe, readyByWaitEnd, waitUsExpiry. -/
def Obligations.StripesAreAdmitted : Prop :=
  (∀ (pk : Packet) (s : State) (j : Job), s.awaits pk = true → s.admits pk j = true → s.genStands pk j = true →
     s.ddr.errs = [] → s.rbufSound pk = true → s.lay.stripes.length < 8 → s.stripeOf s.nextHandle = none →
     let entered (t : State) (fx : Bool) : Prop := ∃ x, t.lay.stripes = s.lay.stripes ++ [x] ∧ x.handle = s.nextHandle ∧ x.job = j.id ∧
       x.stripe = pkU pk 0x24 4 ∧ x.pass = pkU pk 0x28 1 ∧ x.gen = pkU pk 0x2A 2 ∧ x.rate = pkU pk 0x2C 4 ∧ x.data = pkU pk 0x30 8 ∧
       x.len = pkU pk 0x38 8 ∧ x.phase = .admitted ∧ x.fx = fx ∧ x.holes = 0 ∧ t.lay.handles = s.nextHandle ∧ t.mem = s.mem ∧
       ∀ o, o ∉ replyRegs → t.rd o = s.rd o
     (s.mayDecide pk ⟨0x11, [.h0], modesRun, s.fStripeAdmit pk false⟩ = true →
       ∃ t, exec (.stripeAdmit pk) s = .next t ∧ entered t false ∧ t.answers pk 0 (s.nextHandle % 2 ^ 32) 1000 ∧ t.run = s.run) ∧
     (s.mayDecide pk (fxSpec 0x82 (s.fStripeAdmit pk true)) = true → s.mode = 2 →
       ∃ t, exec (.fxStripe pk) s = .next t ∧ entered t true ∧ t.lay.fxHandle = s.nextHandle ∧ t.run = { s.run with queue := s.run.queue ++
         [⟨pk, s.nextHandle, 0, s.now40 + 1000000 * 2 ^ 40, 2000, 50000⟩] } ∧ t.hostMem = s.hostMem) ∧
     (s.mayDecide pk (fxSpec 0x82 (s.fStripeAdmit pk true)) = true → s.mode ≠ 2 →
       ∃ t, exec (.fxStripe pk) s = .next t ∧ entered t true ∧ t.answers pk 0x04 0 0 ∧ t.run = s.run ∧ t.hostMem = s.hostMem)) ∧
  (∀ (pk : Packet) (s : State) (w : Waiting) (n : Nat), s.waitOf pk = some w → s.awaits pk = true → s.rbufSound pk = true → s.waitSlot w.stripe = some n →
     (s.slotState n ≠ 1 → (s.jobOf w.stripe.job).isSome = true → s.lay.stripes.length < 8 → s.stripeOf s.nextHandle = none → w.stripe.fx = false →
       let entered (i : Instr) : Prop := ∃ t x, exec i s = .next t ∧ t.lay.stripes = s.lay.stripes ++ [x] ∧ x.handle = s.nextHandle ∧
         x.stripe = w.stripe.stripe ∧ x.job = w.stripe.job ∧ t.waitOf pk = none ∧ t.answers pk 0 (s.nextHandle % 2 ^ 32) 1000 ∧ t.mem = s.mem ∧
         ∀ o, o ∉ replyRegs → t.rd o = s.rd o
       entered (.readyByWaitEnd pk) ∧ entered (.waitUsExpiry pk)) ∧
     (s.slotState n = 1 → exec (.readyByWaitEnd pk) s = .next s ∧
       (s.fillTies n = false → ∃ t, exec (.waitUsExpiry pk) s = .next t ∧ t.answers pk 0x14 (2 * 2 ^ 24 + w.stripe.gen % 2 ^ 24) (s.readyIn n % 2 ^ 32) ∧
         t.waitOf pk = none ∧ t = { s with cmd := t.cmd, lay := { s.lay with waiting := t.lay.waiting } })))

/-- STRIPE_CANCEL, FX_ABORT, HOLE_READ and FX_HOLES (R68, R72, R75): an unstarted stripe leaves the table with its steps; hole records are counted,
and leave the log only when consumed.
Completion: under these conditions on the state and the operands alone, exec ANSWERS a next state, of its own effect, for stripeCancel,
holeRead, fxAbort, fxHoles. -/
def Obligations.CancelsAndHoleReads : Prop :=
  (∀ (pk : Packet) (s : State), s.awaits pk = true →
     let cancels (i : Instr) (h : Nat) : Prop :=
       (s.stripeOf h = none → (∀ k at_, s.esc.cancels = some (k, at_) → k ≠ h ∨ s.onCoreClock at_ = false) →
         ∃ t, exec i s = .next t ∧ t.answers pk 0 0 0 ∧ s.onlyStatus t) ∧
       (∀ x, s.stripeOf h = some x → x.phase = .admitted ∨ x.phase = .armed → s.otherSteps pk x = true →
         ∃ t, exec i s = .next t ∧ t.answers pk 0 0 1 ∧ t.lay = { s.lay with stripes := s.lay.stripes.filter (fun y => !(y.handle == h)) } ∧
           t.run = { s.run with queue := s.run.queue.filter (fun c => !(c.handle == h)) } ∧ t.mem = s.mem ∧ t.out = s.out ∧
           ∀ o, o ≠ rRasFpUsed → o ≠ rLayStat → o ∉ replyRegs → t.rd o = s.rd o)
     (s.mayDecide pk ⟨0x13, [.h0], modesRunHold, [anyField 0x20 4]⟩ = true → cancels (.stripeCancel pk) (pkU pk 0x20 4)) ∧
     (s.mayDecide pk (fxSpec 0x83 []) = true → cancels (.fxAbort pk) s.lay.fxHandle)) ∧
  (∀ (pk : Packet) (s : State), s.awaits pk = true → s.rbufSound pk = true → Memory.wf s.hostMem = true →
     let from_ := pkU pk 0x20 4
     let at_ := s.lay.holes.filter (fun h => decide ((h.logSeq + 2 ^ 32 - from_) % 2 ^ 32 < 2 ^ 31))
     let n := min at_.length (if pkU pk 0x24 2 = 0 then pkRoom pk / 48 else min (pkU pk 0x24 2) (pkRoom pk / 48))
     let left := s.lay.holes.filter (fun h => !((at_.take n).contains h))
     let reads (i : Instr) (consumes : Bool) : Prop := ∃ t, exec i s = .next t ∧ t.answers pk 0 0 (n % 2 ^ 32) ∧
       (∀ k b, ((at_.take n).map holeBytes).flatten[k]? = some b → storeGet byteDefault t.hostMem (pkRbuf pk + k) = b) ∧
       (∀ a, (a < pkRbuf pk ∨ pkRbuf pk + pkRoom pk ≤ a) → storeGet byteDefault t.hostMem a = storeGet byteDefault s.hostMem a) ∧
       t = { s with cmd := t.cmd, hostMem := t.hostMem, regs := t.regs,
                    lay := { s.lay with holes := if consumes then left else s.lay.holes } } ∧
       ∀ o, o ∉ replyRegs → t.rd o = s.rd o
     (s.mayDecide pk ⟨0x15, fn01, modesAny, fHoleRead false⟩ = true → reads (.holeRead pk) (pkU pk 0x26 1 == 1)) ∧
     (s.mayDecide pk (fxSpec 0x84 (fHoleRead true)) = true → reads (.fxHoles pk) true))

/-- Table generations (R137, R150, R151, R153, R181): a load fills a FREE slot with the table named; a fill that is done makes it READY and
completes its load; a READY one that nothing pins is retired.
Completion: under these conditions on the state and the operands alone, exec ANSWERS a next state, of its own effect, for calLoad,
genRetire, heatLoad, facetLoad, genFillDone. -/
def Obligations.GenerationsLoadFillAndRetire : Prop :=
  (∀ (pk : Packet) (s : State) (n : Nat), s.Inv → s.gen.slots.length = 6 → n < 6 →
     let a := pkU pk 0x20 8
     let g := pkU pk 0x28 2
     let fills (i : Instr) (kind len port rd mlog : Nat) (head : List Byte) (us : Nat) : Prop :=
       s.slotOf kind g = none → s.freeOf kind = some n → s.notCovered a len = none → s.portWaits port [(a, rd)] = false →
         s.errBlocks a rd = [] → s.badBlock a rd = none → s.dma.swaps.contains kind = false →
         ∃ t, exec i s = .next t ∧ t.slotState n = 1 ∧ t.genAt n = g ∧ t.fld (rBmhGen n) 27 3 = mlog ∧
           (∃ x, t.gen.slots[n]? = some x ∧ x.table = .empty ∧ x.fill = some ⟨pk, some ⟨head, []⟩, s.tim.elapsed + t16us us⟩) ∧
           t = { s.portServed port with cmd := t.cmd, regs := t.regs, gen := t.gen, dma := t.dma } ∧
           ∀ o, o ≠ rBmhGen n → inDma o = false → t.rd o = s.rd o
     (s.mayDecide pk ⟨0x32, fn01, modesRun, [s.fJs 0x20 64, fGen 0x28]⟩ = true → kernelBad (s.jsRead a 64) = none →
       fills (.heatLoad pk) 1 64 2 64 0 [] 10) ∧
     (s.mayDecide pk ⟨0x33, fn01, modesRun, [s.fJs 0x20 (s.facetLen a), fGen 0x28]⟩ = true → facetBad (s.jsRead a (s.facetLen a)) = none →
       fills (.facetLoad pk) 2 (s.facetLen a) 2 (s.facetLen a) 0 [] 10) ∧
     (s.mayDecide pk ⟨0x30, fn01, modesRun, [s.fJs 0x20 0x180040, fGen 0x28, ⟨0x2A, 1, fun v => decide (v < 2)⟩]⟩ = true →
       calHeaderBad (s.jsRead a 0x40) = none →
       fills (.calLoad pk) 0 0x180040 4 0x40 (getU (s.jsRead a 0x40) 2 1) (s.jsRead a 0x40) (if pkU pk 0x2A 1 = 1 then 1000 else 500))) ∧
  (∀ (s : State), s.Inv → s.gen.slots.length = 6 →
     (∀ (n : Fin 6) (x : Slot) (f : Fill), s.gen.slots[n.val]? = some x → x.fill = some f → s.slotState n = 1 → s.awaits f.pk = true →
       let ready (tbl : Table) : Prop := ∃ t y, exec (.genFillDone n) s = .next t ∧ t.slotState n = 2 ∧ t.genAt n = s.genAt n ∧
         t.gen.slots[n.val]? = some y ∧ y.table = tbl ∧ y.fill = none ∧ t.answers f.pk 0 0 0 ∧
         t = { s with cmd := t.cmd, regs := t.regs, gen := t.gen, dma := t.dma, flt := { s.flt with oneClock := t.flt.oneClock, shared := t.flt.shared } } ∧
         ∀ o, o ≠ rBmhGen n → inDma o = false → t.rd o = s.rd o
       (f.load = none → s.dma.load ≠ some n.val → ready x.table) ∧
       (f.load.isSome = true → s.dma.load = some n.val → s.dma.loads = [] → s.dmaState 2 = 1 → s.burstOf 2 = none →
         (∀ tbl, s.fillCheck n x f = .ok tbl → ready tbl) ∧
         (∀ o, s.fillCheck n x f = .error o → s.waitOf f.pk = none → ∃ t, exec (.genFillDone n) s = .next t ∧ t.slotState n = 0 ∧
           t.answers f.pk 2 (o % 2 ^ 32) 0 ∧ t.mem = s.mem ∧ t.lay.jobs = s.lay.jobs))) ∧
     (∀ (pk : Packet) (n : Nat), s.awaits pk = true →
       s.mayDecide pk ⟨0x31, fn01, modesRunHold, [⟨0x20, 1, fun v => decide (v < 3)⟩, anyField 0x22 2]⟩ = true →
       s.slotOf (pkU pk 0x20 1) (pkU pk 0x22 2) = some n → s.slotState n = 2 →
       (pkU pk 0x20 1 = 1 ∧ s.dose.retire = []) ∨ (pkU pk 0x20 1 ≠ 1 ∧ s.pins (pkU pk 0x20 1 == 2) (s.genAt n) = 0) → s.passKernel n = false →
       ∃ t, exec (.genRetire pk) s = .next t ∧ t.slotState n = 0 ∧ t.answers pk 0 0 0 ∧
         t = { s with cmd := t.cmd, regs := t.regs, gen := t.gen } ∧ ∀ o, o ≠ rBmhGen n → t.rd o = s.rd o))

/-- CHECK_RUN (R142 to R144, R148): a run begins, or waits behind another; pattern shots count and are sent; damaged readings repeat once; a run
that is done is kept and completes.
Completion: under these conditions on the state and the operands alone, exec ANSWERS a next state, of its own effect, for checkRun,
checkPatternShot, readingDone, checkRunEnd. -/
def Obligations.CheckRunsBeginShootAndEnd : Prop :=
  (∀ (pk : Packet) (s : State), s.Inv → s.awaits pk = true →
     s.mayDecide pk ⟨0x40, fn01, [4], [⟨0x20, 2, fun v => decide (1 ≤ v % 16) && decide (v % 16 ≤ 3) && decide (v < 256)⟩,
      ⟨0x22, 2, fun v => decide (1 ≤ v) && decide (v ≤ 4096)⟩, anyField 0x24 4]⟩ = true →
     s.gen.checkFrom ≤ pk.id →
     (s.gen.cur = none → s.buildReads = false → s.leavesCheck = false →
       ∃ t c, exec (.checkRun pk) s = .next t ∧ t.gen.cur = some c ∧ s.gen.queue ++ [pk] = c.pk :: t.gen.queue ∧
         c.kind = pkU c.pk 0x20 2 % 16 ∧ c.slice = pkU c.pk 0x20 2 / 16 % 16 ∧ c.reps = pkU c.pk 0x22 2 ∧ c.run = pkU c.pk 0x24 4 ∧
         c.reading = 0 ∧ c.shot = 0 ∧ c.done = false ∧ t.gen.kept = none ∧ t.gen.slots = s.gen.slots ∧ t.mem = s.mem ∧
         t.lay.jobs = s.lay.jobs ∧ t.rd rBmhRun = 0 ∧
         ∀ o, o ≠ rBmhRun → o ≠ rBmhRunId → ¬ (0xD0000 ≤ o ∧ o < 0xE0000) → t.rd o = s.rd o) ∧
     (s.gen.cur.isSome = true ∨ s.buildReads = true ∨ s.leavesCheck = true →
       ∃ t, exec (.checkRun pk) s = .next t ∧ t.gen = { s.gen with queue := s.gen.queue ++ [pk] } ∧ t = { s with cmd := t.cmd, gen := t.gen })) ∧
  (∀ (s : State) (c : CheckRun), s.Inv → s.gen.cur = some c →
     (s.mode = 4 → c.done = false → c.shot < c.reps → c.total ≠ 0 ∨ s.aliveLead = true →
       c.cut = true ∨ (s.linkUp = true ∧ s.bal.late.contains c.total = false) →
       ∃ t, exec .checkPatternShot s = .next t ∧
         t.gen = { s.gen with cur := some { c with shot := c.shot + 1, total := c.total + 1 }, gate := c.shot == 0 || s.gen.gate } ∧
         t.bal.span = true ∧ t.mem = s.mem ∧ t.lay = s.lay ∧
         (s.linkUp = true → ∃ flags, Out.frames ((List.range 64).map (fun l =>
           (s.laneOut l, laneFrame ⟨1, flags, c.total, c.run, 0, 0⟩ (dataBlocks (checkValues c)) l))) ∈ t.out)) ∧
     (∀ volts, c.done = false → c.reps ≤ c.shot → c.damaged = true → c.redone.contains c.now = false →
       ∃ t, exec (.readingDone volts) s = .next t ∧
         t.gen = { s.gen with cur := some { c with shot := 0, damaged := false, redone := c.redone ++ [c.now] }, gate := false } ∧
         (∀ d, d < 8 → t.rd (rPwrAdc (24 + d)) = adcCode (volts.getD d 0)) ∧ t = { s with regs := t.regs, gen := t.gen, out := t.out }) ∧
     (∀ volts, c.done = false → c.reps ≤ c.shot → c.damaged = false → c.reading = 0 → c.now = 0 → c.redo = [] → c.qd = [] →
       (∀ d, d < 8 → adcCode (volts.getD d 0) ≠ 4095) →
       ∃ t d, exec (.readingDone volts) s = .next t ∧ t.gen.cur = some d ∧ t.gen.gate = false ∧ d.reading = 1 ∧ d.now = 1 ∧ d.shot = 0 ∧
         d.qb = (List.range 8).map (fun k => adcCode (volts.getD k 0)) ∧ d.done = false ∧ t.mem = s.mem ∧ t.lay.jobs = s.lay.jobs ∧
         (s.bal.span = false → t = { s with regs := t.regs, gen := t.gen, out := t.out })) ∧
     (c.done = true → c.kind = 1 → s.awaits c.pk = true → s.rbufSound c.pk = true → s.gen.queue = [] → c.beams = [] →
       ∃ t k, exec .checkRunEnd s = .next t ∧ t.gen.cur = none ∧ t.gen.kept = some k ∧ k.complete = true ∧ k.run = c.run ∧ k.qb = c.qb ∧ k.qd = c.qd ∧
         t.answers c.pk 0 0 0 ∧ t.mem = s.mem ∧ t.lay.jobs = s.lay.jobs ∧ t.flt = s.flt ∧
         (s.bal.span = true → s.esc.firing = none → s.bal.high = [] → s.bal.risen = [] → t.bal.span = false ∧ t.bal.blankAll = true)))

/-- CHECK_READ and CAL_BUILD of the run kept (R148, R149): CHECK_READ stores header and records as one resident region, in place of every region
they overlap; CAL_BUILD of a complete FULL run without stuck-on segments fills a FREE calibration slot, and of a QUICK run from its base
generation, or is refused GEN_NOT_READY where that one does not stand.
Completion: under these conditions on the state and the operands alone, exec ANSWERS a next state, of its own effect, for checkRead,
calBuild. -/
def Obligations.CheckResultsAreReadAndBuilt : Prop :=
  ∀ (pk : Packet) (s : State) (c : CheckRun), s.Inv → s.awaits pk = true → s.gen.kept = some c → c.run = pkU pk 0x20 4 →
    (s.mayDecide pk ⟨0x41, fnAll, modesAny, [anyField 0x20 4, ⟨0x28, 8, fun a => a % 64 == 0 && decide (a < s.jsSize) && decide (a + 2097216 ≤ s.jsSize)⟩]⟩
        = true → s.destRefused (pkU pk 0x28 8) 2097216 = none → s.portWaits 2 [(pkU pk 0x28 8, 2097216)] = false →
      s.chanFault (pkU pk 0x28 8) 2097216 = none →
      ∃ t r, exec (.checkRead pk) s = .next t ∧ t.answers pk 0 0 0 ∧ (∀ o, o ∉ replyRegs → t.rd o = s.rd o) ∧ t.gen = s.gen ∧
        t.lay = { s.lay with regions := s.lay.regions.filter (fun r => !overlap r.base r.len (pkU pk 0x28 8) 2097216) ++ [r] } ∧
        r.base = pkU pk 0x28 8 ∧ r.len = 2097216 ∧
        (∀ k b, (checkHeader c ++ checkRecords c s.free)[k]? = some b → storeGet byteDefault t.mem (pkU pk 0x28 8 + k) = b) ∧
        ∀ k, (k < pkU pk 0x28 8 ∨ pkU pk 0x28 8 + 2097216 ≤ k) → storeGet byteDefault t.mem k = storeGet byteDefault s.mem k) ∧
    (∀ n es, s.mayDecide pk ⟨0x42, fn01, [1, 2, 4], [anyField 0x20 4, fGen 0x24]⟩ = true → c.complete = true → c.stuck = 0 →
      (c.kind = 2 ∧ es = List.replicate 262144 ⟨0, 0, 0, 1, true, false, false, 0⟩) ∨ (c.kind = 3 ∧ s.buildBase c s.thrMlog = some es) →
      s.gen.slots.length = 6 → s.slotOf 0 (pkU pk 0x24 2) = none → s.freeOf 0 = some n →
      ∃ t, exec (.calBuild pk) s = .next t ∧ t.slotState n = 1 ∧ t.genAt n = pkU pk 0x24 2 ∧ t.fld (rBmhGen n) 27 3 = s.thrMlog ∧
        (∃ x, t.gen.slots[n]? = some x ∧ x.table = .cal (buildEntries c es (2 ^ s.thrMlog)) c.reps c.qref c.vHi c.vLo) ∧
        t = { s with cmd := t.cmd, regs := t.regs, gen := t.gen } ∧ ∀ o, o ≠ rBmhGen n → t.rd o = s.rd o) ∧
    (∀ n, s.mayDecide pk ⟨0x42, fn01, [1, 2, 4], [anyField 0x20 4, fGen 0x24]⟩ = true → c.complete = true → c.stuck = 0 → c.kind = 3 →
      s.buildBase c s.thrMlog = none → s.slotOf 0 (pkU pk 0x24 2) = none → s.freeOf 0 = some n →
      ∃ t, exec (.calBuild pk) s = .next t ∧ t.answers pk 0x14 (1 * 2 ^ 24 + c.base % 2 ^ 24) 0 ∧ s.onlyStatus t)

/-- MODE_ARM and STRIPE_ARM (R26, R42, R67): a step command fetched at least 100 µs ahead is queued with its t_open and windows, 0 standing for the
defaults; a nearer one is refused at T_OPEN, and a transition outside Table 2-2 with BAD_TRANSITION. That the transition is tested at the decision, and
before the lead, is the model's choice (log entries 31 and 131).
Completion: under these conditions on the state and the operands alone, exec ANSWERS a next state, of its own effect, for modeArm,
stripeArm. -/
def Obligations.StepCommandsWaitForTheirTime : Prop :=
  ∀ (pk : Packet) (s : State), s.awaits pk = true →
    let tOpen := time40 (slice pk.bytes 0x30 16)
    let wa := if pkU pk 0x24 4 = 0 then 2000 else pkU pk 0x24 4
    let wc := if pkU pk 0x28 4 = 0 then 50000 else pkU pk 0x28 4
    let target := pkU pk 0x20 1
    let h := pkU pk 0x20 4
    let queues (i : Instr) (c : StepCmd) : Prop := ∃ t, exec i s = .next t ∧ t.cmd.held = s.cmd.held ∧
      t = { s with cmd := t.cmd, run := { s.run with queue := s.run.queue ++ [c] } }
    let refused (i : Instr) (st d : Nat) : Prop := ∃ t, exec i s = .next t ∧ t.answers pk st d 0 ∧ s.onlyStatus t
    (s.mayDecide pk ⟨0x02, [.h0], modesRun, fModeArm⟩ = true →
      (s.transitionOk target = false → refused (.modeArm pk) 0x15 0) ∧
      (s.transitionOk target = true → tOpen < s.fetchedAt pk + 100000 * 2 ^ 40 → refused (.modeArm pk) 0x02 0x30) ∧
      (s.transitionOk target = true → s.fetchedAt pk + 100000 * 2 ^ 40 ≤ tOpen → queues (.modeArm pk) ⟨pk, 0, target, tOpen, wa, wc⟩)) ∧
    (s.mayDecide pk ⟨0x12, [.h0], [2, 3], fStripeArm⟩ = true →
      (tOpen < s.fetchedAt pk + 100000 * 2 ^ 40 → refused (.stripeArm pk) 0x02 0x30) ∧
      (s.fetchedAt pk + 100000 * 2 ^ 40 ≤ tOpen → queues (.stripeArm pk) ⟨pk, if h = 0 then 2 ^ 32 else h, 0, tOpen, wa, wc⟩))

/-- Steps (R42 to R44, R155): the earliest command opens its step at t_open; a fall with none due opens an unarmed one; a validated step releases
the line; and the commit step waits for a stripe pass or a CHECK run.
Completion: under these conditions on the state and the operands alone, exec ANSWERS a next state, of its own effect, for tOpenReached,
runSyncFall, armDone, armedEdge, commitStepOpen. -/
def Obligations.StepsOpenArmAndCommit : Prop :=
  (∀ (s : State), s.mode ≠ 0 → s.mode ≠ 5 →
     (∀ c, earliest s.run.queue = some c → s.run.cur = none → s.stepFails c = none →
       ∃ t, exec .tOpenReached s = .next t ∧ t = { s with lay := t.lay, run := { s.run with
         cur := some ⟨some c, s.now40, 0, .validating, [], 0, false⟩, pull := true, line := false, queue := s.run.queue.filter (fun d => !(d == c)) } } ∧
         (c.handle = 0 → t.lay = s.lay) ∧ (c.handle ≠ 0 → ∃ x, t.stripeOf c.handle = some x ∧ x.phase = .armed)) ∧
     (s.dom.main = true → s.dom.resetting ≠ 2 → s.run.queue = [] → s.run.cur = none → exec .runSyncFall s = .next { s with run := { s.run with
         cur := some ⟨none, s.now40, 0, .unarmed, [], 0, false⟩, pull := true, line := false } }) ∧
     (∀ c, s.run.cur = some c → exec .runSyncFall s = .next { s with run := { s.run with line := false } }) ∧
     (∀ c, s.run.cur = some c → c.phase = .validating → s.spreadHolds c = false →
       exec .armDone s = .next { s with run := { s.run with cur := some { c with phase := .released, armed := true }, pull := false } }) ∧
     (∀ c, s.run.cur = some c → c.phase = .released → exec .armedEdge s = .next { s with run := { s.run with
         cur := some { c with phase := .commitWait, armedAt := s.now40 }, step := s.run.step + 1#32, line := true } })) ∧
  (∀ (s : State) (c : OpenStep), s.run.cur = some c → c.phase = .commitWait →
     (s.esc.firing = none → s.gen.cur = none → exec .commitStepOpen s = .next { s with run := { s.run with
       cur := some { c with phase := .applied, saved := s.applied }, pull := false, line := false } }) ∧
     (s.esc.firing ≠ none ∨ s.gen.cur ≠ none → exec .commitStepOpen s = .next { s with run := { s.run with pull := true, line := false } }))

/-- The COMMIT edge (R28, R44), where no entry to HOLD stands behind it on its clock: the step counter advances and the step closes; a mode change is in force and its MODE_ARM replies OK with
the counter, or a stripe starts, its STRIPE_ARM replying later.
Completion: under these conditions on the state and the operands alone, exec ANSWERS a next state, of its own effect, for commitEdge. -/
def Obligations.CommitEdgeChangesModeOrStartsTheStripe : Prop :=
  ∀ (s : State) (c : OpenStep) (k : StepCmd), s.Inv → s.run.cur = some c → c.phase = .applied → c.cmd = some k → s.mode ∈ modesRun → s.holdBehind s = false →
    (∀ d ∈ s.run.queue, s.now40 < d.tOpen) →
    (k.handle = 0 → k.target ∈ modesRun → s.awaits k.pk = true → k.pk ∉ s.gen.queue →
      ∃ t, exec .commitEdge s = .next t ∧ t.mode = k.target ∧ t.run.step = s.run.step + 1#32 ∧ t.run.cur = none ∧ t.run.queue = s.run.queue ∧
        t.answers k.pk 0 0 (s.run.step + 1#32).toNat ∧ t.lay = s.lay ∧ t.mem = s.mem) ∧
    (∀ x, k.handle ≠ 0 → s.stripeOf k.handle = some x →
      (∀ j, s.jobOf x.job = some j → j.scan = true → 1 ≤ j.chans ∧ j.chans ≤ 32 ∧ j.chans % 2 ^ min 4 (s.fld rScnCfg 0 3) = 0) →
      ∃ t y f, exec .commitEdge s = .next t ∧ t.mode = s.mode ∧ t.run.step = s.run.step + 1#32 ∧ t.run.cur = none ∧ t.run.queue = s.run.queue ∧
        t.stripeOf k.handle = some y ∧ y.phase = .started ∧ y.armPk = some k.pk ∧ t.esc.firing = some f ∧ f.handle = k.handle ∧ f.tc = none ∧
        f.pend = 0 ∧ t.mem = s.mem)

/-- Steps that fail (R43, R45): an unarmed step ends by releasing the line; an expired window, whose edge does not come on its very clock, pulls it for the guard and restores what was in
force; at the guard's end the command completes, after a failed arm check with BAD_PARAM at 0x20 (the model's choice, log entry 111); the next rise closes the step and advances the counter.
Completion: under these conditions on the state and the operands alone, exec ANSWERS a next state, of its own effect, for unarmedStepEnd,
windowExpiry, guardEnd, stepClosingRise. -/
def Obligations.FailedStepsGuardAndClose : Prop :=
  ∀ (s : State) (c : OpenStep), s.run.cur = some c → s.edgeTies = false →
    (c.phase = .unarmed → exec .unarmedStepEnd s =
      .next { s with run := { s.run with cur := some { c with phase := .unarmedReleased }, pull := false } }) ∧
    (c.phase = .released → c.cmd = none ∨ (∃ k, c.cmd = some k ∧ s.stripeOf k.handle = none) →
      exec .windowExpiry s = .next { s with run := { s.run with
        cur := some { c with phase := .guard, detail := s.laggards false }, pull := true, line := false } }) ∧
    (c.phase = .applied → ∃ t, exec .windowExpiry s = .next t ∧ t.applied = c.saved ∧ t.regs = s.regs ∧
      t.run = { s.run with cur := some { c with phase := .guard, detail := s.laggards true }, pull := true, line := false }) ∧
    (∀ k, c.phase = .guard → c.cmd = some k → s.awaits k.pk = true →
      ∃ t, exec .guardEnd s = .next t ∧ t.run = { s.run with cur := some { c with phase := .guardDone }, pull := false } ∧
        (c.detail = 2 ^ 64 → t.answers k.pk 2 0x20 0) ∧
        (c.detail < 2 ^ 64 → t.answers k.pk 0x13 (c.detail % 2 ^ 32) (c.detail / 2 ^ 32)) ∧ t = { s with cmd := t.cmd, run := t.run }) ∧
    (c.phase = .guardDone ∨ c.phase = .unarmedReleased → (∀ d ∈ s.run.queue, s.now40 < d.tOpen) →
      exec .stepClosingRise s = .next { s with run := { s.run with
        cur := none, step := s.run.step + 1#32, closedAt := s.tim.elapsed, line := true } })

/-- Entry to HOLD by a HOLD packet, a long RUN_SYNC low, a raise of severity 3 or above once the load is done, and the ALLSTOP heartbeat of a
roster member (R26, R46, R69, R199, R328): the mode is HOLD with its cause, ALLSTOP is set, BLANK_ALL asserted with no strobe high, and nothing
waits or runs any more; jobs and the job store stay. (The HOLD that follows a load, of cause 5, R339 and R379, is in LoadsAndResetsTakeEffect.)
Completion: under these conditions on the state and the operands alone, exec ANSWERS a next state, of its own effect, for hold,
runSyncLongLow, heartbeatReceive, faultRaise. -/
def Obligations.HoldStopsEverything : Prop :=
  ∀ (s : State), s.Inv → s.mode ∈ modesRun →
    let held (i : Instr) (cause src : Nat) : Prop := ∃ t, exec i s = .next t ∧ t.mode = 5 ∧ t.fld rFltHold 28 4 = cause ∧
      t.fld rFltHold 0 11 = src ∧ t.flt.allstop = true ∧ t.bal.blankAll = true ∧ t.bal.high = [] ∧ t.bal.span = false ∧ t.esc.firing = none ∧
      t.lay.stripes = [] ∧ t.lay.waiting = [] ∧ t.run.cur = none ∧ t.run.queue = [] ∧ t.run.pull = true ∧ t.gen.cur = none ∧ t.gen.queue = [] ∧
      t.lay.jobs = s.lay.jobs ∧ t.lay.regions = s.lay.regions ∧ t.mem = s.mem
    (∀ pk, s.mayDecide pk ⟨0x03, fnAll, modesAny, [anyField 0x20 4]⟩ = true → held (.hold pk) 2 0) ∧
    (exposing s.mode = true → s.run.cur = none → s.ties (· == .stepClosingRise) = false → held .runSyncLongLow 3 0) ∧
    (∀ (p : Fin 2) (mac : Nat) (f : List Byte), s.portUp p = true → f.length ≤ 1500 → getU f 0 2 = 0x4E5A → getU f 0x28 4 = crc32c (slice f 0 0x28) →
      getU f 2 1 = 1 → s.net.ports.any (fun x => x.mac == mac) = false →
      s.net.recent.any (fun r => r.1 == getU f 3 1 && r.2.1 == getU f 0xC 4 && decide (s.tim.elapsed - r.2.2 < t16ms)) = false →
      getU f 3 1 ≠ s.sysIdx → s.net.roster.contains (getU f 3 1) = true → bitAt (getU f 5 1) 0 = true →
      held (.heartbeatReceive p mac ⟨0x88B5, f⟩) 4 0) ∧
    (∀ src, s.inTurn (src, false) = true → s.dom.cfgDone = true → s.collects src = true → (s.recOf src).state = 0 → (s.recOf src).stands = false → s.pairHeld src = false → s.injected src = false →
      3 ≤ s.sevNow src → s.sevNow src ≤ 4 → held (.faultRaise src) 1 src)

/-- Leaving HOLD (R339, R340): the quiet period clears ALLSTOP; a CLEAR_HOLD packet waits, and brings SERVICE once no condition stands; the
automatic recovery brings it within its limit, and at its limit latches. The entries come where no new entry to HOLD stands behind them on the
clock.
Completion: under these conditions on the state and the operands alone, exec ANSWERS a next state, of its own effect, for clearHold,
quietPeriodEnd, autoRecovery, hostClearServiceEntry. -/
def Obligations.HoldEndsInService : Prop :=
  ∀ (s : State), s.Inv → s.mode = 5 →
    let service (i : Instr) : Prop := ∃ t, exec i s = .next t ∧ t.mode = 1 ∧ t.rd rFltHold = 0 ∧ t.run.pull = false ∧ t.flt.allstop = false ∧
      t.flt.clearing = [] ∧ t.mbx.coreHeld = [false, false, false] ∧ t.lay = s.lay ∧ t.mem = s.mem
    (s.condStands = false → s.flt.latched = false → s.onClock s.flt.lastSev2 = false → exec .quietPeriodEnd s = .next { s with flt := { s.flt with allstop := false } }) ∧
    (∀ pk, s.mayDecide pk ⟨0x04, fn01, [5], []⟩ = true → ∃ t, exec (.clearHold pk) s = .next t ∧ t.cmd.held = s.cmd.held ∧
      t = { s with cmd := t.cmd, flt := { s.flt with allstop := false, latched := false, recTimes := [], clearing := s.flt.clearing ++ [pk] } }) ∧
    (s.flt.clearing ≠ [] → s.mayRecover = true → s.condStands = false →
      s.holdBehind ({ s with flt := { s.flt with clearing := [] } }.setFld rFltRecov 16 16 (satAdd 0xFFFF (s.fld rFltRecov 16 16) 1)).enterService = false →
      service .hostClearServiceEntry) ∧
    (s.mayRecover = true → s.flt.allstop = false → s.flt.latched = false → s.flag rFltRecovCfg 31 = true → s.fld rFltHold 28 4 ≠ 2 →
      s.flt.clearing = [] →
      (s.recentRecoveries.length < max 1 (s.fld rFltRecovCfg 16 8) →
        s.holdBehind ({ s with flt := { s.flt with recTimes := s.recentRecoveries ++ [s.tim.elapsed] } }.setFld rFltRecov 0 16
          (satAdd 0xFFFF (s.fld rFltRecov 0 16) 1)).enterService = false → service .autoRecovery) ∧
      (max 1 (s.fld rFltRecovCfg 16 8) ≤ s.recentRecoveries.length → exec .autoRecovery s = .next { s with flt := { s.flt with
        latched := true, allstop := true, recTimes := s.recentRecoveries } }))

/-- Raises (R326, R327, R330, R334): a quiet raise records its source and appends one log entry; a WIRE raise is of severity 2 or above and leaves
the jobs and the job store.
Completion: under these conditions on the state and the operands alone, exec ANSWERS a next state, of its own effect, for faultRaise,
wireFault. -/
def Obligations.RaisesAreRecordedAndLogged : Prop :=
  (∀ (s : State) (src : Nat), s.Inv → s.inTurn (src, false) = true → s.collects src = true → (s.recOf src).state = 0 → (s.recOf src).stands = false → s.pairHeld src = false →
     s.injected src = false → s.raisesQuietly src = true → src < 0x240 ∨ 0x250 ≤ src →
     ∃ t e, exec (.faultRaise src) s = .next t ∧ (t.recOf src).state = 1 ∧ (t.recOf src).eff = s.sevNow src ∧
       (t.recOf src).raises = satAdd 0xFFFF (s.recOf src).raises 1 ∧ (t.recOf src).logSeq = s.flt.nextSeq ∧
       e.seq = s.flt.nextSeq ∧ e.src = src ∧ e.sev = s.sevNow src ∧ e.mode = s.mode ∧
       t.flt.log = (if 256 ≤ s.flt.log.length then s.flt.log.drop 1 else s.flt.log) ++ [e] ∧ t.flt.nextSeq = (s.flt.nextSeq + 1) % 65536 ∧
       (∀ o, o ≠ src → t.recOf o = s.recOf o) ∧ t = { s with flt := t.flt, regs := t.regs, out := t.out } ∧
       ∀ o, o ≠ rFltAvEvt → t.rd o = s.rd o) ∧
  (∀ (s : State) (src : Nat), s.Inv → s.inTurn (src, true) = true → s.collects src = true → (s.recOf src).wire = false →
     let first := isMerging src = false ∨ (s.recOf src).state = 0 ∨ (src = srcDeadBeam ∧ s.deadSeen = false)
     ∃ t, exec (.wireFault src) s = .next t ∧ (t.recOf src).wire = true ∧ (t.recOf src).stands = true ∧
       (t.recOf src).raises = satAdd 0xFFFF (s.recOf src).raises 1 ∧ t.mem = s.mem ∧ t.lay.jobs = s.lay.jobs ∧
       (first → (t.recOf src).state = 1 ∧ 2 ≤ (t.recOf src).eff ∧
          ((∀ a, a < 8 → s.atRest a = true) → t.flt.nextSeq = (s.flt.nextSeq + 1) % 65536)) ∧
       (¬ first → (t.recOf src).state = (s.recOf src).state ∧ (t.recOf src).eff = (s.recOf src).eff ∧ t.flt.nextSeq = s.flt.nextSeq ∧
         t.regs = s.regs ∧ t.out = s.out))

/-- Records, severities, injections and ALIVE (R329, R330, R337, R341): acknowledgement clears what has no condition; a severity is configured;
an injection starts and ends; ALIVE toggles while it may.
Completion: under these conditions on the state and the operands alone, exec ANSWERS a next state, of its own effect, for fxFaultAck,
faultAck, inject, severitySet, levelConditionEnd, injectionExpiry, aliveToggle. -/
def Obligations.RecordsSeveritiesAndAliveFollowTheirCommands : Prop :=
  (∀ (s : State), s.Inv →
     (∀ pk, s.awaits pk = true →
       let v := pkU pk 0x20 2
       let acks (i : Instr) : Prop := ∃ t, exec i s = .next t ∧
         t.answers pk 0 0 ((s.flt.recs.filter (fun r => r.state == 1 && (v == 0xFFFF || r.src == v) && !s.onClock r.at_)).length % 2 ^ 32) ∧
         (∀ src, (s.recOf src).state = 1 → v = 0xFFFF ∨ v = src → s.onClock (s.recOf src).at_ = false →
           (t.recOf src).state = if (s.recOf src).stands then 2 else 0) ∧
         (∀ src, (s.recOf src).state ≠ 1 ∨ (v ≠ 0xFFFF ∧ v ≠ src) ∨ s.onClock (s.recOf src).at_ = true → t.recOf src = s.recOf src) ∧
         t = { s with cmd := t.cmd, flt := { s.flt with recs := t.flt.recs } }
       (s.mayDecide pk ⟨0x91, fn01, modesAny, fFaultAck⟩ = true → acks (.faultAck pk)) ∧
       (s.mayDecide pk (fxSpec 0x8B fFaultAck) = true → acks (.fxFaultAck pk))) ∧
     (∀ src, bit (s.recOf src).cond + bit (s.recOf src).inj + bit (s.recOf src).wire = 1 →
       ((s.recOf src).wire = true → s.pairInjected src = false) →
       ∃ t, exec (.levelConditionEnd src) s = .next t ∧ (t.recOf src).stands = false ∧
       (t.recOf src).state = (if (s.recOf src).state = 2 then 0 else (s.recOf src).state) ∧ (∀ o, o ≠ src → t.recOf o = s.recOf o) ∧
       t = { s with flt := t.flt, out := t.out })) ∧
  (∀ (s : State),
     (∀ pk, s.awaits pk = true → s.mayDecide pk ⟨0x93, [.h1], [1],
         [⟨0x20, 2, isSource⟩, ⟨0x22, 1, fun v => decide (v ≤ 4) && decide (minSev (pkU pk 0x20 2) ≤ v)⟩]⟩ = true →
       ∃ t, exec (.severitySet pk) s = .next t ∧ t.answers pk 0 0 0 ∧ t.sevOf (pkU pk 0x20 2) = pkU pk 0x22 1 ∧
         (∀ o, o ≠ pkU pk 0x20 2 → t.sevOf o = s.sevOf o) ∧ t = { s with cmd := t.cmd, flt := { s.flt with sevs := t.flt.sevs, oldSevs := t.flt.oldSevs } }) ∧
     (∀ pk v, s.awaits pk = true → s.mayDecide pk ⟨0x92, [.h1, .h2], [1],
         [⟨0x20, 2, isSource⟩, ⟨0x24, 4, injValueOk (pkU pk 0x20 2)⟩, anyField 0x28 4]⟩ = true → s.injected (pkU pk 0x20 2) = false →
       pkU pk 0x28 4 ≠ 0 → s.valueTrips (pkU pk 0x20 2) (pkU pk 0x24 4) = some v →
       let j : Injection := ⟨pkU pk 0x20 2, pkU pk 0x24 4, s.tim.elapsed + t16us (pkU pk 0x28 4), v, false⟩
       (s.injTripsNow j = false → (∀ k ∈ s.flt.inj, s.injTripsNow k = false) →
         ∃ t, exec (.inject pk) s = .next t ∧ t.answers pk 0 0 0 ∧ t = { s with cmd := t.cmd, flt := { s.flt with
           inj := (putInj s.flt.inj j).map (fun k => { k with seen := false }), oneClock := t.flt.oneClock, shared := t.flt.shared } }) ∧
       (s.injTripsNow j = true → s.flt.inj = [] → s.raisesQuietly (pkU pk 0x20 2) = true → (s.recOf (pkU pk 0x20 2)).stands = false →
         ∃ t, exec (.inject pk) s = .next t ∧ t.answers pk 0 0 0 ∧ t.flt.inj = [{ j with seen := true }] ∧
           (t.recOf (pkU pk 0x20 2)).state = 1 ∧ (∀ o, o ≠ pkU pk 0x20 2 → t.recOf o = s.recOf o))) ∧
     (∀ src j, s.flt.inj.find? (fun j => j.src == src) = some j → bitAt j.value 31 = false →
       let left := s.flt.inj.filter (fun x => !(x.src == src))
       ((s.recOf src).inj = false → exec (.injectionExpiry src) s = .next { s with flt := { s.flt with inj := left } }) ∧
       ((s.recOf src).inj = true → (s.recOf src).cond = false → (s.recOf src).wire = false →
         ∃ t, exec (.injectionExpiry src) s = .next t ∧ (t.recOf src).stands = false ∧ t.flt.inj = left ∧
           (t.recOf src).state = (if (s.recOf src).state = 2 then 0 else (s.recOf src).state) ∧ t = { s with flt := t.flt, out := t.out }))) ∧
  (∀ (s : State),
     (s.aliveAllowed = true → ∃ t, exec .aliveToggle s = .next t ∧ t.flt.alive = !s.flt.alive ∧ t.flt.edges = s.flt.edges + 1 ∧
       t.out = (if s.scanDrives then s.out else s.out ++ [.alive (!s.flt.alive)]) ∧ t = { s with flt := t.flt, out := t.out }) ∧
     (s.aliveAllowed = false → exec .aliveToggle s = .next s))

/-- Samples (R160, R163, R164, R166, R174): a good frame or encoder sample is stamped and waits for its decision; a decision takes the samples into
the fit; a missing slot gets a substitute within the limit.
Completion: under these conditions on the state and the operands alone, exec ANSWERS a next state, of its own effect, for plinkFrame,
plinkLockChange, encoderSample, sampleSlotMissing, decision. -/
def Obligations.SamplesAreStampedAndFitted : Prop :=
  (∀ (s : State), s.Inv → s.dom.main = true →
     (∀ stamp syms, s.flag rEscStat 10 = true → s.apFld rEscCfg 0 2 = 0 →
       (plinkCrcOk syms = true → (∀ r, s.esc.refSeq = some r → getU syms 1 1 = (r + 1) % 256) → getU syms 14 1 = 1 →
         exec (.plinkFrame stamp syms) s = .next { s with esc := { s.esc with
           refSeq := some (getU syms 1 1), ackSeq := getU syms 1 1, slotAt := stamp, decides := s.esc.decides ++ [stamp + 5242880]
           arrived := s.esc.arrived ++ [(⟨s.escY (signed 48 (getU syms 2 6)), s.escX (signed 48 (getU syms 8 6)), 0⟩, stamp - s.ap rEscLat)] } }) ∧
       (plinkCrcOk syms = false → ∃ t, exec (.plinkFrame stamp syms) s = .next t ∧ t = { s.marked t with regs := t.regs } ∧
         t.rd (rEscCnt 2) = satAdd 0xFFFFFFFF (s.rd (rEscCnt 2)) 1 ∧ ∀ o, o ≠ rEscCnt 2 → t.rd o = s.rd o)) ∧
     (∀ up, ∃ t, exec (.plinkLockChange up) s = .next t ∧ t.flag rEscStat 10 = up ∧ t = { s with regs := t.regs, esc := t.esc } ∧
       (∀ o, o ≠ rEscStat → t.rd o = s.rd o) ∧ t.esc.refSeq = if up ∧ s.flag rEscStat 10 = false then none else s.esc.refSeq) ∧
     (∀ t0 (delta : Int), s.apFld rEscCfg 0 2 = 1 ∨ (s.apFld rEscCfg 0 2 = 2 ∧ s.ownedBy 0 0x32 = true ∧ s.ownedBy 1 0x32 = true) →
       let c := s.esc.encCount + delta
       exec (.encoderSample t0 delta false) s = .next { s with esc := { s.esc with
         encCount := c, slotAt := t0, decides := s.esc.decides ++ [t0 + 5242880]
         arrived := s.esc.arrived ++
           [(⟨s.escY (roundHalfEven (c * s.ap rEscEncScale) 65536), 0, sigma (bitAt (s.ap rEscCfg) 7) * c⟩, t0)] } })) ∧
  (∀ (s : State), s.Inv → s.esc.firing = none →
     (∀ now rest, s.esc.decides = now :: rest → s.esc.samples.length ≤ 8 →
       ∃ t, exec .decision s = .next t ∧ t.esc.decides = rest ∧ t.esc.arrived = [] ∧
         t.esc.samples = ((s.esc.arrived.map (·.1)).reverse ++ s.esc.samples).take 8 ∧ t.esc.entered = s.esc.entered + s.esc.arrived.length ∧
         t.flag rEscStat 9 = t.fitValid ∧ t = { s with regs := t.regs, esc := t.esc } ∧ ∀ o, o ≠ rEscStat → t.rd o = s.rd o) ∧
     (s.dom.main = true → s.apFld rEscCfg 0 2 ≠ 3 → s.esc.arrived = [] → s.sampleTies = false →
       (s.esc.entered < 8 → exec .sampleSlotMissing s = .next s) ∧
       (8 ≤ s.esc.entered → s.esc.subs < s.apFld rEscTrk 28 4 →
         ∃ t, exec .sampleSlotMissing s = .next t ∧ t.esc.subs = s.esc.subs + 1 ∧ t.esc.entered = s.esc.entered + 1 ∧
           t.esc.slotAt = s.esc.slotAt + s.escTs ∧ t.esc.tLast = s.esc.tLast + s.escTs ∧ t = { s.marked t with regs := t.regs, esc := t.esc } ∧
           t.rd (rEscCnt 1) = satAdd 0xFFFFFFFF (s.rd (rEscCnt 1)) 1 ∧ ∀ o, o ≠ rEscCnt 1 → o ≠ rEscStat → t.rd o = s.rd o)))

/-- A shot of a committed stripe locks (R169): at its predicted time, not before its floor and not before 900 ns after the decision, once that
lies within 1 µs, on the grid of fine steps (R161; that it takes the step at or after the time is the model's choice, log entry 147), where its
slip and residual fit. The fires to come then hold it, and the next shot is
pending.
Completion: under these conditions on the state and the operands alone, exec ANSWERS a next state, of its own effect, for decision. -/
def Obligations.ShotsLockAtTheirTime : Prop :=
  ∀ (s : State) (now : T16) (rest : List T16) (f : Firing) (x : Stripe) (tp : Int) (tc : T16), s.Inv → s.mode = 2 → s.esc.decides = now :: rest →
    s.esc.arrived = [] → s.esc.firing = some f → s.stripeOf f.handle = some x → f.ended = false → f.tc = some tc → f.pend < x.lines →
    s.fitValid = true → s.predict (shotY x (s.geom x).1 f.pend) = some tp →
    let floor : Int := if f.pend = 0 then tc + 2 * pMin x.rate else f.lastLock + pMin x.rate
    let ts := fineStep (max tp (max floor (now + 58982400)))
    (ts - now ≤ 65536000 → s.lockFits x f.pend ts = true →
      ∃ t, exec .decision s = .next t ∧ t.esc.firing = some { f with pend := f.pend + 1, locks := f.locks ++ [⟨f.pend, ts.toNat⟩], lastLock := ts.toNat } ∧
        t.esc.decides = rest ∧ t.mode = 2 ∧ t.mem = s.mem ∧ t.lay.jobs = s.lay.jobs ∧ t.lay.holes = s.lay.holes ∧
        (f.pend = 0 → t.bal.span = true ∧ t.bal.blankAll = false)) ∧
    (65536000 < ts - now → ∃ t, exec .decision s = .next t ∧ t.esc = { s.esc with decides := rest } ∧ t = { s with regs := t.regs, esc := t.esc } ∧
      ∀ o, o ≠ rEscStat → t.rd o = s.rd o)

/-- SOS edges and windows without a stripe (R179, R180): an edge outside tracking or in its window is tracked and moves the facet counter; one
before the window is ignored and counted; a missed window, on whose clock no edge comes, substitutes the predicted time, and beyond the allowed
misses tracking is lost and SOS_LOST raised. That tracking needs seven intervals (log entry 49) and how the facets are counted without a
generation (log entry 50) are the model's choices.
Completion: under these conditions on the state and the operands alone, exec ANSWERS a next state, of its own effect, for sos0Edge,
sos1Edge, sosWindowExpiry. -/
def Obligations.SosEdgesAreTracked : Prop :=
  ∀ (s : State), s.Inv → s.dom.main = true → s.ownedBy 0 0x31 = true → s.esc.firing = none →
    let tb := tBar s.scan.intervals
    let early := s.scan.tPrev + tb - sosHalf (s.ap rEscScfg) tb
    let noEdge : Prop := s.ties (fun c => match c with | .sos0Edge _ => true | _ => false) = false
    let tracked (t : State) (at_ : Nat) : Prop := t.scan.tPrev = at_ ∧ t.scan.misses = 0 ∧ t.scan.edges = true ∧
      t.scan.intervals = (let l := if s.scan.edges then s.scan.intervals ++ [at_ - s.scan.tPrev] else s.scan.intervals
                          l.drop (l.length - 8)) ∧ t.lay = s.lay ∧ t.mem = s.mem
    (∀ at_, s.sosValid = false → ∃ t, exec (.sos0Edge at_) s = .next t ∧ tracked t at_ ∧ t = { s.marked t with regs := t.regs, scan := t.scan } ∧
      t.rd (rScnCnt 3) = satAdd 0xFFFFFFFF (s.rd (rScnCnt 3)) 1 ∧
      t.sosValid = (decide (7 ≤ t.scan.intervals.length) && decide (s.apFld rEscCfg 2 2 < 2) &&
        (!s.s1mode || s.scan.index || s.scan.seenIndex))) ∧
    (∀ at_, s.sosValid = true → at_ < early → ∃ t, exec (.sos0Edge at_) s = .next t ∧ t = { s.marked t with regs := t.regs } ∧
      t.rd (rEscCnt 5) = satAdd 0xFFFFFFFF (s.rd (rEscCnt 5)) 1 ∧ ∀ o, o ≠ rEscCnt 5 → t.rd o = s.rd o) ∧
    (∀ at_, s.sosValid = true → early ≤ at_ → s.scan.index = false → s.withheld srcSosMiss = false → ∃ t, exec (.sos0Edge at_) s = .next t ∧ tracked t at_ ∧
      t.scan.facet = (s.scan.facet + 1) % s.facetCount ∧ t = { s with regs := t.regs, scan := t.scan, out := t.out, free := t.free }) ∧
    (∀ at_, s.s1mode = true → s.ownedBy 1 0x31 = true →
      ∃ t, exec (.sos1Edge at_) s = .next t ∧ t.scan = { s.scan with index := true } ∧ t = { s with regs := t.regs, scan := t.scan } ∧
        t.sosValid = (s.sosValid || decide (7 ≤ s.scan.intervals.length)) ∧ ∀ o, o ≠ rEscStat → t.rd o = s.rd o) ∧
    (s.sosValid = true → s.scan.index = false → s.scan.misses + 1 ≤ s.apFld rEscScfg 24 8 → noEdge →
      ∃ t, exec .sosWindowExpiry s = .next t ∧ t.scan.tPrev = s.scan.tPrev + tb ∧ t.scan.misses = s.scan.misses + 1 ∧ t.scan.edges = false ∧
        t.scan.intervals = s.scan.intervals ∧ t.scan.facet = (s.scan.facet + 1) % s.facetCount ∧ t = { s.marked t with regs := t.regs, scan := t.scan } ∧
        t.rd (rEscCnt 4) = satAdd 0xFFFFFFFF (s.rd (rEscCnt 4)) 1) ∧
    (s.sosValid = true → s.apFld rEscScfg 24 8 < s.scan.misses + 1 → s.mayRaise srcSosLost = true → noEdge →
      ∃ t, exec .sosWindowExpiry s = .next t ∧ t.sosValid = false ∧ t.scan.misses = 0 ∧ t.scan.intervals = [] ∧ t.scan.edges = false ∧
        (t.recOf srcSosLost).state = 1 ∧ t.mem = s.mem ∧ t.lay.jobs = s.lay.jobs)

/-- Fires, frames and strobes in mid-pass (R139, R169, R186, R188, R190, R193, R194): the lowest locked shot fires; a computation that is done
sends its frames; groups rise and fall in turn; IDLE frames go out of a span.
Completion: under these conditions on the state and the operands alone, exec ANSWERS a next state, of its own effect, for shotFire,
hitComputeDone, groupStrobeRise, groupStrobeFall, idleFrameSend, laneRateChangeDone. -/
def Obligations.ShotsAndStrobesFire : Prop :=
  (∀ (s : State) (f : Firing) (x : Stripe), s.Inv → s.mode = 2 → s.esc.firing = some f → s.stripeOf f.handle = some x →
     (∀ l rest, f.locks = l :: rest → f.ended = false → 0 < l.shot → l.shot + 2 < x.lines → s.bal.late.contains l.shot = false →
       s.foot.store.any (fun k => k.line == l.shot + 2) = true → s.dose.shots ≠ [] → s.flag rBalCut (l.shot % 16) = false →
       s.bal.times.any (fun k => k.shot == l.shot) = false →
       let rise : Int := l.t + 640 * signed 8 (s.apFld (rBalGskew (l.shot % 16)) 0 8)
       ∃ t, exec .shotFire s = .next t ∧ t.esc.firing = some { f with locks := rest, fired := l.shot + 1, lastFire := l.t } ∧
         t.out = s.out ++ [.strobe (l.shot % 16) true (some rise)] ∧ t.bal.high = s.bal.high ++ [⟨l.shot % 16, l.shot, rise⟩] ∧
         t.bal.times = s.bal.times ++ [⟨l.shot, l.t, stagger x.rate⟩] ∧ t.bal.status.length = s.bal.status.length + 1 ∧
         t.dose.shots = s.dose.shots ++ [l.shot + 2] ∧ t.rd rEscShot = l.shot % 2 ^ 32 ∧
         t.rd (rEscCnt 7) = satAdd 0xFFFFFFFF (s.rd (rEscCnt 7)) 1 ∧ (∀ o, o ≠ rEscShot → o ≠ rEscCnt 7 → t.rd o = s.rd o) ∧
         t = { s.marked t with regs := t.regs, esc := t.esc, bal := t.bal, dose := t.dose, lay := t.lay, out := t.out } ∧
         t.lay = { s.lay with stripes := t.lay.stripes }) ∧
     (∀ shot, s.dose.shots = [shot] → shot ≠ 1 →
       ∃ t, exec .hitComputeDone s = .next t ∧ t.dose.shots = [] ∧ t = { s.marked t with regs := t.regs, bal := t.bal, dose := t.dose, out := t.out } ∧
         (s.linkUp = true → t.bal = { s.bal with framed := shot + 1 } ∧ t.out = s.out ++ [
           .frames ((List.range 64).map (fun lane => (s.laneOut lane, laneFrame
             ⟨0, bit (shot == 0) + 2 * bit (shot + 1 == x.lines), shot, x.stripe, x.pass, x.gen⟩ (dataBlocks (s.dose.values.headD [])) lane))),
           .idleBlocks ((List.range 64).map s.laneOut) idleBlock]) ∧
         (s.linkUp = false → t.bal = s.bal ∧ t.out = s.out))) ∧
  (∀ (s : State) (g : Fin 16), s.Inv →
     (∀ p x, s.bal.high.any (fun h => h.g == g.val) = false →
       s.bal.risen.find? (fun p => decide (popCount 16 p.2 < 16) && slotGroup p.1 (popCount 16 p.2) == g.val) = some p →
       s.bal.times.find? (fun x => x.shot == p.1) = some x → s.flag rBalCut g.val = false →
       let rise : Int := x.t + ((g.val + 16 - x.shot % 16) % 16 * x.step : Nat) + 640 * signed 8 (s.apFld (rBalGskew g.val) 0 8)
       ∃ t, exec (.groupStrobeRise g) s = .next t ∧ t.out = s.out ++ [.strobe g.val true (some rise)] ∧
         t.bal = { s.bal with risen := addMask s.bal.risen p.1 (2 ^ g.val), high := s.bal.high ++ [⟨g.val, p.1, rise⟩] } ∧
         t = { s with bal := t.bal, out := t.out }) ∧
     (∀ h, s.bal.high.find? (fun h => h.g == g.val) = some h → s.wdogTies g.val = false →
       ∃ t, exec (.groupStrobeFall g) s = .next t ∧
         .strobe g.val false (some (h.rise + 640 * clampN (bits (s.ap rBalStb) 0 17) 820 102400)) ∈ t.out ∧
         (∀ k ∈ t.bal.high, k.g ≠ g.val) ∧ t.mem = s.mem ∧ t.lay.jobs = s.lay.jobs ∧ t.lay.regions = s.lay.regions) ∧
     (s.linkUp = true → s.bal.span = false → s.mode ∈ [1, 2, 4, 5] →
       ∃ t, exec .idleFrameSend s = .next t ∧ t.out = s.out ++ [
           .frames ((List.range 64).map (fun lane => (s.laneOut lane, laneFrame FrameHead.idle (fun _ => []) lane))),
           .idleBlocks ((List.range 64).map s.laneOut) idleBlock] ∧ t.rd (rBalCnt 7) = satAdd 0xFFFFFFFF (s.rd (rBalCnt 7)) 1 ∧
         (∀ o, o ≠ rBalCnt 7 → t.rd o = s.rd o) ∧ t = { s.marked t with regs := t.regs, out := t.out }) ∧
     (s.bal.span = true → exec .idleFrameSend s = .next s) ∧
     exec .laneRateChangeDone s = .next { s with bal := { s.bal with rateBusy := false } })

/-- Sources that blank the remainder of the stripe pass (R175, R176, R198, R202, R276, R277): a stall, a coasting link or shot clock, a missing
status, a lost back-channel lane within a span, and a strobe watchdog raise their source and abort the pass.
Completion: under these conditions on the state and the operands alone, exec ANSWERS a next state, of its own effect, for stall,
strobeWatchdog, statusMissing, backchLockLoss, shotClockLimit, linkCoast. -/
def Obligations.BlankingSourcesAbortThePass : Prop :=
  ∀ (s : State) (f : Firing) (x : Stripe), s.Inv →
    let aborts (i : Instr) (src : Nat) : Prop := ∃ t, exec i s = .next t ∧ s.blanked t src f
    (s.mode = 2 → s.escSpan = true → s.mayBlank srcStall f x s.lowestUnfired → aborts .stall srcStall) ∧
    (s.clkState 3 = 3 → s.bal.span = true → s.mayBlank srcLinkCoast f x s.lowestUnfired → aborts .linkCoast srcLinkCoast) ∧
    (s.clkState 5 = 3 → s.coastEnds 5 = false → s.gen.cur = none → s.mayBlank srcShotClock f x s.lowestUnlocked → aborts .shotClockLimit srcShotClock) ∧
    (∀ a r, s.bal.status = a :: r → s.statusTies a = false → s.bal.span = true → s.mayBlank srcBackchLoss f x s.unconfirmed → aborts .statusMissing srcBackchLoss) ∧
    (∀ n, s.bal.span = true → s.mayBlank srcBackchLoss f x s.unconfirmed →
      ∃ t, exec (.backchLockLoss n) s = .next t ∧ s.blanked t srcBackchLoss f ∧ t.flag rBalStat (24 + n.val) = false) ∧
    (∀ (g : Fin 16) stays h, s.bal.high.find? (fun h => h.g == g.val) = some h →
      s.mayBlank (srcStrobeStuck g.val) f x (min h.shot s.bal.full) →
      ∃ t, exec (.strobeWatchdog ⟨g, stays⟩) s = .next t ∧ s.blanked t (srcStrobeStuck g.val) f ∧ t.flag rBalCut g.val = true ∧ t.bal.high = [] ∧
        t.bal.blankAll = true)

/-- The back channel (R162, R191, R201, R202): a frame that has not left in time raises FRAME_LATE, or makes the pattern shot late; one that has
left changes nothing; a clean status that none awaits is counted, an awaited one is taken from those awaited; a healthy HEALTH block shows in
BAL_PLATE; each part-to-stage frame is sent. That a lane which brings a block shows RXLOCK is the model's choice (log entry 165).
Completion: under these conditions on the state and the operands alone, exec ANSWERS a next state, of its own effect, for backChannelSend,
frameLateCheck, shotStatus, health. -/
def Obligations.BackChannelReportsAreTaken : Prop :=
  ∀ (s : State) (n : Fin 4) (blk : BitVec 64), s.Inv → s.dom.main = true →
    let w := blk.toNat
    let awaited := s.bal.status.find? (fun a => a.shot % 2 ^ 24 == bits w 8 24 && a.lanes.contains n.val)
    (s.scnPort = false → bits w 0 8 = 0xE1 → awaited = none → bits w 32 28 = 0 → s.bal.run = none →
      ∃ t, exec (.shotStatus n blk) s = .next t ∧ t.flag rBalStat (24 + n.val) = true ∧ t.rd (rBalCnt 3) = satAdd 0xFFFFFFFF (s.rd (rBalCnt 3)) 1 ∧
        t = { s.marked t with regs := t.regs } ∧ ∀ o, o ≠ rBalStat → o ≠ rBalCnt 3 → t.rd o = s.rd o) ∧
    (∀ a, s.scnPort = false → bits w 0 8 = 0xE1 → awaited = some a → bits w 32 28 = 0 →
      ∃ t, exec (.shotStatus n blk) s = .next t ∧ t.bal.status = s.bal.status.filterMap (fun b =>
          if b == a then (if (a.lanes.filter (fun k => !(k == n.val))).isEmpty then none
                          else some { a with lanes := a.lanes.filter (fun k => !(k == n.val)) }) else some b) ∧
        t.flt = s.flt ∧ t.esc = s.esc ∧ t.mem = s.mem ∧ t.lay.jobs = s.lay.jobs) ∧
    (s.scnPort = false → bits w 0 8 = 0xE2 → bits w 40 8 = 0 → bits w 8 16 = 0xFFFF →
      ∃ t, exec (.health n blk) s = .next t ∧ t.rd (rBalPlate n.val) = 0xFFFF * 2 ^ 16 + bits w 32 8 * 2 ^ 8 ∧
        t.flag rBalStat (16 + n.val) = bitAt w 24 ∧ t = { s with regs := t.regs, flt := t.flt, out := t.out } ∧
        ∀ o, o ≠ rBalPlate n.val → o ≠ rBalStat → t.rd o = s.rd o) ∧
    (∀ f l rest, s.esc.firing = some f → f.locks = l :: rest → l.shot < s.bal.framed → exec (.frameLateCheck true) s = .next s) ∧
    (∀ f x l rest, s.esc.firing = some f → f.locks = l :: rest → s.stripeOf f.handle = some x → s.bal.late.contains l.shot = false →
      s.mayRaise srcFrameLate = true →
      ∃ t, exec (.frameLateCheck false) s = .next t ∧ (t.recOf srcFrameLate).state = 1 ∧ t.mem = s.mem ∧ t.lay.jobs = s.lay.jobs) ∧
    (∀ c, s.esc.firing = none → s.gen.cur = some c → c.done = false → s.bal.late.contains c.total = false →
      exec (.frameLateCheck false) s = .next { s with bal := { s.bal with late := s.bal.late ++ [c.total] } }) ∧
    (∃ t fr, exec .backChannelSend s = .next t ∧ t = { s with out := s.out ++ [.backChannel fr] } ∧ fr.length = 10)

/-- Expanding and rendering (R98, R107, R111, R115): the next bin, of at most four ahead of the line being rendered, once its read gets its
turn and it expands without a fault, is kept with its primitives and its tiles queued; the next line of a bin on
chip is rendered to its T values and staged; the oldest staged line enters the footprint store in its plane forms, or blank where its rule says.
Completion: under these conditions on the state and the operands alone, exec ANSWERS a next state, of its own effect, for binFetch,
lineRender, lineCommit. -/
def Obligations.LinesAreRenderedAndStored : Prop :=
  ∀ (s : State) (x : Stripe) (j : Job), s.Inv → s.dom.main = true → s.renderStripe = some x → s.jobOf x.job = some j → s.foot.handle = x.handle → s.renderStopped = false →
    (∀ a r, s.binToFetch ≤ s.foot.nextLine / 64 + 4 → s.binToFetch < x.nbin → s.dma.prime = false →
      (stripePart x.data (s.jsRead x.data x.len)).bins[s.binToFetch]? = some (a, r) →
      s.portWaits 0 [(a, r.length), (x.data + getU r 0x20 8, getU r 0x28 4)] = false →
      s.errBlocks a r.length = [] → s.badBlock a r.length = none → recCheckOk r = true →
      s.errBlocks (x.data + getU r 0x20 8) (getU r 0x28 4) = [] → s.badBlock (x.data + getU r 0x20 8) (getU r 0x28 4) = none →
      let body := expandBody j x.x0 x.y0 s.binToFetch (s.jsRead (x.data + getU r 0x20 8) (getU r 0x28 4))
      body.cause = 0 →
      ∃ t, exec (.binFetch []) s = .next t ∧ t.foot = { s.foot with nextBin := s.binToFetch + 1, bins := s.foot.bins ++
          [⟨s.binToFetch, body.prims, (List.range 64).map (binEdge r), getU r 0x2C 4, 0⟩] } ∧
        t.rle = { s.rle with tiles := s.rle.tiles ++ body.tiles.map (fun k => ⟨x.handle, s.binToFetch, k.1, k.2.1, k.2.2⟩) } ∧
        t = { s with foot := t.foot, rle := t.rle, ddr := t.ddr, regs := t.regs } ∧ ∀ o, o ≠ rLayStat → t.rd o = s.rd o) ∧
    (∀ b, j.scan = false → s.binOfLine s.foot.nextLine = some b → s.tilesDone b.idx = true → s.foot.staged.length < 4 → s.foot.nextLine < x.lines →
      b.err = 0 → edgeOver j.pitch (x.y0 + s.foot.nextLine * j.pitch) b s.foot.nextLine = false →
      accOver j x.x0 (x.y0 + s.foot.nextLine * j.pitch) (slices j.pitch (x.y0 + s.foot.nextLine * j.pitch) b.prims) = false →
      s.portWaits 1 (mapRanges x j.pitch j.width s.foot.nextLine) = false →
      (∀ r ∈ mapRanges x j.pitch j.width s.foot.nextLine, s.errBlocks r.1 r.2 = []) → s.mapBad x j.pitch j.width s.foot.nextLine = none →
      ∃ t l, exec .lineRender s = .next t ∧ t.foot.staged = s.foot.staged ++ [l] ∧ l.line = s.foot.nextLine ∧ l.blank = none ∧
        l.t = (List.range j.width).map (fun i => (tOf (pixelS j x.x0 (x.y0 + s.foot.nextLine * j.pitch)
          (slices j.pitch (x.y0 + s.foot.nextLine * j.pitch) b.prims) i) (s.mapFactor x j.pitch i s.foot.nextLine)).1) ∧
        t.foot.nextLine = s.foot.nextLine + 1 ∧ t.foot.store = s.foot.store ∧ t.mem = s.mem ∧ t.flt.recs = s.flt.recs ∧ t.flt.log = s.flt.log) ∧
    (∀ l rest, s.stripeOf x.handle = some x → s.foot.staged = l :: rest → l.line < s.shotsBegun + 2 → l.blank = none →
      let planes := (List.range (s.geom x).2.1).map (fun ph => planeForm (planeEntries (s.geom x).2.1 ph l.t))
      s.binBytes (l.line / 64) + sumN (planes.map Plane.size) ≤
        (match (stripePart x.data (s.jsRead x.data x.len)).bins[l.line / 64]? with | some (_, r) => getU r 0x2C 4 | none => 0) →
      ∃ t, exec (.lineCommit true) s = .next t ∧ t.foot.store = s.foot.store ++ [⟨l.line, planes⟩] ∧ t.foot.staged = rest ∧ t.mem = s.mem ∧
        t.flt.recs = s.flt.recs ∧ t.flt.log = s.flt.log) ∧
    (∀ l rest why, s.stripeOf x.handle = some x → s.foot.staged = l :: rest → l.line < s.shotsBegun + 2 → l.blank = some why →
      ∃ t, exec (.lineCommit true) s = .next t ∧ t.foot.store = s.foot.store ++ [⟨l.line, List.replicate (s.geom x).2.1 .blank⟩] ∧
        t.foot.staged = rest ∧ t.mem = s.mem ∧ t.flt.recs = s.flt.recs ∧ t.flt.log = s.flt.log)

/-- Reserved offsets and odd forms (R372, R373): through any master that is up, a reserved offset reads 0 and nothing changes; a write to it is
ignored, and raises ACCESS with the offset in DETAIL; an access that is misaligned or of another size is answered with an error or ignored,
and raises ACCESS. Shown where that raise is of severity 0 or 1, and so takes no action.
Completion: under these conditions on the state and the operands alone, exec ANSWERS a next state, of its own effect, for registerWrite,
badAccess. -/
def Obligations.ReservedOffsetsReadZeroAndRefuseWrites : Prop :=
  ∀ (s : State) (m : Master) (off : Nat) (v : Word) (bs : List Byte), s.Inv → s.masterUp m = true →
    let raises (t : State) : Prop := ∃ e, (t.recOf srcAccess).state = 1 ∧ t.flt.log.getLast? = some e ∧ e.src = srcAccess ∧ e.detail = off ∧
      t = { s.touch.marked t with flt := t.flt, regs := t.regs, out := t.out } ∧ ∀ o, o ≠ rFltAvEvt → t.rd o = s.rd o
    let refused (i : Instr) : Prop := s.raisesQuietly srcAccess = true → ∃ t, exec i s = .next t ∧ raises t
    let reads : Prop := exec (.badAccess m off 4 .read) s = .next { s.touch with out := s.out ++ [.readValue m off 0#32] }
    (off % 4 = 0 → off < 0x800000 → s.reach m off = .reserved →
      reads ∧ refused (.registerWrite m off v) ∧ refused (.badAccess m off 4 (.write bs))) ∧
    (off % 4 = 0 → (0xB40000 ≤ off ∧ off < 0xC00000) ∨ (0xC10000 ≤ off ∧ off < 0x1000000) → s.dom.main = true → s.dom.cfgDone = true →
      reads ∧ refused (.registerWrite m off v) ∧ refused (.badAccess m off 4 (.write bs))) ∧
    (∀ n, off < 0x1000000 → s.serves off = true → accessForm off n = false → s.raisesQuietly srcAccess = true →
      (∃ t, exec (.badAccess m off n (.write bs)) s = .next t ∧ raises t) ∧
      (∃ t, exec (.badAccess m off n .read) s = .next t ∧ raises t ∧ .readError m off ∈ t.out))

/-- Plain registers (R10 to R13, R158) in blocks 8 to 15 take a write by the types of their bits, and take effect at once in SERVICE and HOLD where
COMMIT edges read them; GLB_LOCK only gathers bits (R377).
Completion: under these conditions on the state and the operands alone, exec ANSWERS a next state, of its own effect, for registerWrite,
glbLockWrite. -/
def Obligations.RegistersTakeWritesByType : Prop :=
  (∀ (s : State) (m : Master) (off : Nat) (r : RegInfo) (v : Word), s.Inv → s.reaches m off = true → regAt off = some r → off % 4 = 0 →
     8 ≤ off / 0x10000 → off / 0x10000 ≤ 15 → s.locked off = false → r.clr &&& v.toNat = 0 ∨ s.setsNow off = [] →
     off ∉ [rRasFpPeak, rEscSlipPeak, rRlePool, rDosProbeSel, rBalCfg, rBalCut, rBalSpare 0, rBalSpare 1, rBalSpare 2, rBalSpare 3] →
     ∃ t, exec (.registerWrite m off v) s = .next t ∧ (∀ o, o ≠ off → o ≠ rEscStat → t.rd o = s.rd o) ∧
       (∀ i, i < 32 → bitAt (t.rd off) i =
         (if bitAt r.clr i && r.clr &&& v.toNat != 0 then false else if bitAt r.w1c i && bitAt v.toNat i then
            (s.setsNow off).any (fun x => bitAt x.bits i)
          else if bitAt (r.rw ||| r.rws ||| r.rwl) i then bitAt v.toNat i else bitAt (s.rd off) i)) ∧
       (appliedRegs.contains off = false ∨ (s.mode ≠ 1 ∧ s.mode ≠ 5) → t = { s.touch with regs := t.regs }) ∧
       (appliedRegs.contains off = true → s.mode = 1 ∨ s.mode = 5 → t.ap off = t.rd off ∧ (∀ o, o ≠ off → t.ap o = s.ap o) ∧
         t = { s.touch with regs := t.regs, applied := t.applied, esc := t.esc })) ∧
  (∀ (s : State) (m : Master) (v : Word), s.Inv → s.reaches m rGlbLock = true → s.flag rGlbLock 0 = false ∨ m = .load →
     ∃ t, exec (.glbLockWrite m v) s = .next t ∧ t.rd rGlbLock = s.rd rGlbLock ||| (v.toNat &&& rwlMask rGlbLock) ∧
       t = { s.touch with regs := t.regs } ∧ ∀ o, o ≠ rGlbLock → t.rd o = s.rd o)

/-- The peak and clear writes: RAS_FPPEAK, ESC_SLIP_PEAK and PAD_TJ_PEAK take the present value at CLR and RLE_POOL its reset value;
BAL_CFG, BAL_SPARE and BAL_CUT change as R186, R187, R204 and R198 say, the lanes sending idle blocks after a change and going idle when
disabled, and DOS_PROBE_SEL arms its probe. A spare that a lower number asks for on the clock is left out, as is a cut set on the clock. That a
tristated strobe is released when its BAL_CUT bit clears is the model's choice (log entry 152).
Completion: under these conditions on the state and the operands alone, exec ANSWERS a next state, of its own effect, for rasFpPeakClr,
escSlipPeakClr, padTjPeakClr, rlePoolClr, dosProbeArm, balCfgWrite, balSpareWrite, balCutClear. -/
def Obligations.PeakAndBeamWritesTakeEffect : Prop :=
  ∀ (s : State) (m : Master) (v : Word), s.Inv →
    let only (t : State) (off : Nat) : Prop := t = { s.touch with regs := t.regs } ∧ ∀ o, o ≠ off → t.rd o = s.rd o
    let clears (i : Instr) (off w val : Nat) : Prop := s.reaches m off = true →
      (bitAt v.toNat 31 = false → exec i s = .next s.touch) ∧
      (bitAt v.toNat 31 = true → ∃ t, exec i s = .next t ∧ t.fld off 0 w = val % 2 ^ w ∧ t.rd off / 2 ^ w = s.rd off / 2 ^ w ∧ only t off)
    clears (.rasFpPeakClr m v) rRasFpPeak 22 (s.rd rRasFpUsed) ∧
    clears (.escSlipPeakClr m v) rEscSlipPeak 24 (s.fld rEscSlip 0 24) ∧
    clears (.padTjPeakClr m v) rPadTjPeak 16 (s.fld rPadTj 0 16) ∧
    clears (.rlePoolClr m v) rRlePool 16 0 ∧
    (s.reaches m rDosProbeSel = true → bitAt v.toNat 31 = true →
      ∃ t, exec (.dosProbeArm m v) s = .next t ∧ t.flag rDosProbeVal 31 = false ∧ t = { s.touch with regs := t.regs } ∧
        ∀ o, o ≠ rDosProbeSel → o ≠ rDosProbeVal → t.rd o = s.rd o) ∧
    (s.reaches m rBalCfg = true → s.mode = 1 →
      ∃ t, exec (.balCfgWrite m v) s = .next t ∧ t.fld rBalCfg 0 2 = v.toNat % 4 ∧ t.flag rBalCfg 31 = bitAt v.toNat 31 ∧
        t.bal.rateBusy = (s.bal.rateBusy || v.toNat % 4 != s.fld rBalCfg 0 2) ∧
        (s.scnPort = false → s.dom.main = true → t.out = s.out ++
          (if bitAt v.toNat 31 then
             (if s.flag rBalCfg 31 && v.toNat % 4 == s.fld rBalCfg 0 2 then [] else [.idleBlocks (List.range 68) idleBlock])
           else if s.flag rBalCfg 31 then [.txOff] else [])) ∧
        t = { s.touch with regs := t.regs, bal := t.bal, out := t.out } ∧ ∀ o, o ≠ rBalCfg → t.rd o = s.rd o) ∧
    (∀ n : Fin 4, s.reaches m (rBalSpare n) = true →
      (bitAt v.toNat 31 = true → s.flag (rBalSpare n) 31 = false → s.laneSpared (bits v.toNat 0 6) = false → n.val ≠ 3 ∨ bits v.toNat 0 6 ≠ 0 →
        s.touch.spareRival n.val (bits v.toNat 0 6) = false →
        ∃ t, exec (.balSpareWrite m n v) s = .next t ∧ t.flag (rBalSpare n) 31 = true ∧ t.fld (rBalSpare n) 29 2 = 1 ∧
          t.fld (rBalSpare n) 0 6 = bits v.toNat 0 6 ∧ only t (rBalSpare n)) ∧
      (bitAt v.toNat 31 = false → s.mode = 1 → ∃ t, exec (.balSpareWrite m n v) s = .next t ∧ t.flag (rBalSpare n) 31 = false ∧
        only t (rBalSpare n))) ∧
    (s.reaches m rBalCut = true → s.mode = 1 → s.setsNow rBalCut = [] →
      ∃ t, exec (.balCutClear m v) s = .next t ∧ (∀ i, i < 16 → t.flag rBalCut i = (s.flag rBalCut i && !bitAt v.toNat i)) ∧
        t = { s.touch with regs := t.regs, bal := { s.bal with tri := s.bal.tri.filter (fun g => t.flag rBalCut g) } } ∧
        ∀ o, o ≠ rBalCut → t.rd o = s.rd o)

/-- The timekeepers (R161, R254 to R256, R260, R262): a read of TIM_NOW_SEC_LO captures the reader's own shadow, which its reads of the other words show;
a tick, with no injection to compare, adds INCR exactly, and four SHOT
periods to the escapement's timebase while that clock runs (a new reading of the die sensors, of any value, may come with it, log entry 86), a crystal edge adds 2,000,000,000/65,536 ns and TRIM to the coarse time; a new INCR waits for the next tick.
Completion: under these conditions on the state and the operands alone, exec ANSWERS a next state, of its own effect, for timeIncr,
badAccess, timNowSecLoRead, timIncrHiWrite, timekeeperTick, crystalEdge, trimMeasure. -/
def Obligations.TimekeepersCountExactly : Prop :=
  ∀ (s : State), s.Inv →
    let coarse (x : TimState) : Nat := (x.cSec * 1000000000 + x.cNs) * 65536 + x.cFrac
    let fine (x : TimState) : Nat := (x.sec * 1000000000 + x.ns) * 2 ^ 40 + x.sub
    (∀ m, s.reaches m rTimNowSecLo = true → ∃ t, exec (.timNowSecLoRead m) s = .next t ∧
      t.out = s.out ++ [.readValue m rTimNowSecLo (BitVec.ofNat 32 s.tim.sec)] ∧ t.shadow m = (s.tim.sec, s.tim.ns, s.tim.sub / 2 ^ 24) ∧
      (∀ k, masterCode k ≠ masterCode m → t.shadow k = s.shadow k) ∧ t = { s.touch with tim := t.tim, out := t.out } ∧
      t.tim = { s.tim with shadows := t.tim.shadows }) ∧
    (∀ m, (s.reaches m rTimNowSecHi = true → exec (.badAccess m rTimNowSecHi 4 .read) s =
        .next { s.touch with out := s.out ++ [.readValue m rTimNowSecHi (BitVec.ofNat 32 ((s.shadow m).1 / 2 ^ 32))] }) ∧
      (s.reaches m rTimNowNs = true → exec (.badAccess m rTimNowNs 4 .read) s =
        .next { s.touch with out := s.out ++ [.readValue m rTimNowNs (BitVec.ofNat 32 (s.shadow m).2.1)] }) ∧
      (s.reaches m rTimNowFrac = true → exec (.badAccess m rTimNowFrac 4 .read) s =
        .next { s.touch with out := s.out ++ [.readValue m rTimNowFrac (BitVec.ofNat 32 (s.shadow m).2.2)] })) ∧
    (s.dom.main = true → s.flt.inj = [] → s.tim.ns < 1000000000 → s.tim.sub < 2 ^ 40 → s.tim.sec + 1 < 2 ^ 64 → s.tim.incrNext.getD s.tim.incr ≤ incrMax →
      ∃ t, exec .timekeeperTick s = .next t ∧ fine t.tim = fine s.tim + s.tim.incrNext.getD s.tim.incr ∧ t.tim.ns < 1000000000 ∧
        t.tim.sub < 2 ^ 40 ∧ t.tim.incr = s.tim.incrNext.getD s.tim.incr ∧ t.tim.incrNext = none ∧
        t.esc.base = (if 2 ≤ s.clkState 5 then s.esc.base + 163840#64 else s.esc.base) ∧ (s.tim.ppsLow = 0 → t.out = s.out) ∧
        t = { s with tim := t.tim, esc := { s.esc with base := t.esc.base }, out := t.out, regs := t.regs, free := t.free } ∧
        ∀ o, o ≠ rPadTj → o ≠ rPadTjPeak → t.rd o = s.rd o) ∧
    (s.dom.main = false → s.tim.cNs < 1000000000 → s.tim.cFrac < 65536 → s.tim.cSec + 1 < 2 ^ 64 →
      ∃ t, exec .crystalEdge s = .next t ∧ (coarse t.tim : Int) = coarse s.tim + (2000000000 + signed 24 (s.rd rTimRtcTrim)) ∧
        t.tim.cNs < 1000000000 ∧ t.tim.cFrac < 65536 ∧ t.tim.sec = s.tim.sec ∧ t = { s with tim := t.tim }) ∧
    (∀ trim, s.dom.main = true → s.flag rTimStat 30 = true → ∃ t, exec (.trimMeasure trim) s = .next t ∧ t.rd rTimRtcTrim = trim.toNat ∧
      t = { s with regs := t.regs, tim := { s.tim with key := .idle } } ∧ ∀ o, o ≠ rTimRtcTrim → o ≠ rTimStat → t.rd o = s.rd o) ∧
    (∀ pk, s.awaits pk = true → s.mayDecide pk ⟨0x72, [.h1], modesRun,
        [⟨0x20, 6, fun v => decide (incrMin ≤ v) && decide (v ≤ incrMax)⟩, ⟨0x26, 1, fun v => v == 0⟩, ⟨0x27, 1, fun v => v == 0⟩]⟩ = true →
      ∃ t, exec (.timeIncr pk) s = .next t ∧ t.answers pk 0 0 0 ∧
        t.tim = { s.tim with incrNext := some (pkU pk 0x20 6), estimate := pkU pk 0x20 6, key := .idle } ∧
        t.rd rTimIncrLo = pkU pk 0x20 6 % 2 ^ 32 ∧ t.rd rTimIncrHi = pkU pk 0x20 6 / 2 ^ 32 ∧
        t = { s with cmd := t.cmd, tim := t.tim, regs := t.regs } ∧
        ∀ o, o ≠ rTimIncrLo → o ≠ rTimIncrHi → o ≠ rTimStat → t.rd o = s.rd o) ∧
    (∀ m v, s.reaches m rTimIncrHi = true →
      let w := v.toNat % 65536 * 2 ^ 32 + s.rd rTimIncrLo
      ∃ t, exec (.timIncrHiWrite m v) s = .next t ∧ t.tim.incrNext = some (max incrMin (min w incrMax)) ∧ t.tim.key = .idle ∧
        t = { s.touch with tim := t.tim, regs := t.regs } ∧
        ∀ o, o ≠ rTimIncrLo → o ≠ rTimIncrHi → o ≠ rTimStat → t.rd o = s.rd o)

/-- The key and the steps (R258 to R261): 0x5A then 0xA5 by one master arms the key, which expires; a write of TIM_STEP_NS, or TIME_STEP, commits
the offset that the step registers hold; at its tick the step is added exactly, or refused beyond TIM_JMAX, by the
nanoseconds committed (erratum A0-04), where the time is set.
Completion: under these conditions on the state and the operands alone, exec ANSWERS a next state, of its own effect, for timeStep,
timStepNsWrite, stepApply, timKeyWrite, keyExpiry. -/
def Obligations.StepsOfTimeAreKeyedAndApplied : Prop :=
  ∀ (s : State), s.Inv →
    (∀ m v, s.reaches m rTimKey = true →
      (v.toNat % 256 = 0x5A → ∃ t, exec (.timKeyWrite m v) s = .next t ∧ t.tim.key = .half m ∧ t.flag rTimStat 29 = false ∧
        t = { s.touch with tim := { s.tim with key := t.tim.key }, regs := t.regs } ∧ ∀ o, o ≠ rTimStat → t.rd o = s.rd o) ∧
      (v.toNat % 256 = 0xA5 → s.tim.key = .half m → ∃ t, exec (.timKeyWrite m v) s = .next t ∧ t.tim.key = .armed m s.tim.elapsed ∧
        t.flag rTimStat 29 = true ∧ t = { s.touch with tim := { s.tim with key := t.tim.key }, regs := t.regs } ∧
        ∀ o, o ≠ rTimStat → t.rd o = s.rd o)) ∧
    (∀ m n, s.tim.key = .armed m n → ∃ t, exec .keyExpiry s = .next t ∧ t.tim = { s.tim with key := .idle } ∧ t.flag rTimStat 29 = false ∧
      t = { s with tim := t.tim, regs := t.regs } ∧ ∀ o, o ≠ rTimStat → t.rd o = s.rd o) ∧
    (∀ m v, s.reaches m rTimStepNs = true → s.flag rTimStat 28 = false → s.tim.step = none →
      ∃ t r, exec (.timStepNsWrite m v) s = .next t ∧ t.tim = { s.tim with key := .idle, step := some r } ∧ r.master = m ∧ r.pk = none ∧ r.ns = signed 32 v.toNat ∧
        r.offset = signed 64 (s.rd rTimStepSecHi * 2 ^ 32 + s.rd rTimStepSecLo) * 1000000000 + signed 32 v.toNat ∧
        r.forced = (match s.tim.key with | .armed k _ => k == m | _ => false) ∧ t.rd rTimStepNs = v.toNat ∧
        t.flag rTimStat 28 = s.run.cur.isSome ∧ t = { s.touch with tim := t.tim, regs := t.regs } ∧
        ∀ o, o ≠ rTimStepNs → o ≠ rTimStat → t.rd o = s.rd o) ∧
    (∀ pk, s.awaits pk = true → s.mayDecide pk ⟨0x71, [.h1], [1], [anyField 0x20 8, anyField 0x28 4, ⟨0x2C, 1, fun v => decide (v < 2)⟩]⟩ = true →
      let o := pkS pk 0x20 8 * 1000000000 + pkS pk 0x28 4
      0 ≤ ((s.tim.sec * 1000000000 + s.tim.ns : Nat) : Int) + o →
      s.flag rTimStat 31 = false ∨ pkU pk 0x2C 1 = 1 ∨ o.natAbs ≤ min 999999999 (s.fld rTimJmax 0 30) → s.flag rTimStat 28 = false →
      s.tim.step = none →
      ∃ t r, exec (.timeStep pk) s = .next t ∧ t.tim.step = some r ∧ r.offset = o ∧ r.pk = some pk ∧ (pkU pk 0x2C 1 = 1 → r.forced = true) ∧
        t.cmd.held = s.cmd.held ∧ t.tim.sec = s.tim.sec ∧ t.tim.ns = s.tim.ns ∧ t = { s with cmd := t.cmd, tim := t.tim, regs := t.regs }) ∧
    (∀ r, s.tim.step = some r → s.run.cur = none →
      let total : Int := ((s.tim.sec * 1000000000 + s.tim.ns : Nat) : Int) + r.offset
      (0 ≤ total → s.flag rTimStat 31 = false ∨ r.forced = true ∨ r.ns.natAbs ≤ min 999999999 (s.fld rTimJmax 0 30) →
        total < 1000000000 * 2 ^ 64 →
        ∃ t, exec .stepApply s = .next t ∧ ((t.tim.sec * 1000000000 + t.tim.ns : Nat) : Int) = total ∧ t.tim.ns < 1000000000 ∧
          t.tim.sub = s.tim.sub ∧ t.tim.step = none ∧ t.mem = s.mem ∧ t.lay.jobs = s.lay.jobs ∧
          (∀ pk, r.pk = some pk → s.awaits pk = true → r.forced = false ∨ s.raisesQuietly srcTimeForced = true → t.answers pk 0 0 0) ∧
          (r.forced = false → t.fld rTimStat 26 2 = 1 ∧ t.flag rTimStat 31 = true ∧ t.flag rTimStat 28 = false ∧
            t = { s with cmd := t.cmd, tim := t.tim, regs := t.regs } ∧ ∀ o, o ≠ rTimStat → t.rd o = s.rd o)) ∧
      (0 ≤ total → s.flag rTimStat 31 = true → r.forced = false → min 999999999 (s.fld rTimJmax 0 30) < r.ns.natAbs →
        ∃ t, exec .stepApply s = .next t ∧ t.tim = { s.tim with step := none } ∧ t.fld rTimStat 26 2 = 2 ∧
          (∀ pk, r.pk = some pk → s.awaits pk = true → t.answers pk 0x40 0 0) ∧
          t = { s with cmd := t.cmd, tim := t.tim, regs := t.regs } ∧ ∀ o, o ≠ rTimStat → t.rd o = s.rd o))

/-- The clock generators (R272, R274, R276, R281): a generator locks at the end of its wait, coasts when its reference is lost, and recovers, back
to its wait where that had not passed;
spreading stops for a step into an exposing mode; a SYNC_IN rise is stamped and restarts the armed outputs; the PPS output pulses.
Completion: under these conditions on the state and the operands alone, exec ANSWERS a next state, of its own effect, for lockWaitExpiry,
lossOfReference, coastEnd, clkCoastLimit, sscStop, syncInRise, ppsEdge. -/
def Obligations.ClocksLockCoastAndRestart : Prop :=
  ∀ (s : State), s.Inv →
    (∀ g : Fin 6, s.clkState g = 1 → ∃ t, exec (.lockWaitExpiry g) s = .next t ∧ t.clkState g = 2 ∧ t = { s with regs := t.regs } ∧
      ∀ o, o ≠ rClkPll g → t.rd o = s.rd o) ∧
    (∀ g : Fin 6, s.clkState g = 1 ∨ s.clkState g = 2 → s.raisesQuietly (srcClkCoast g) = true →
      (s.recOf (srcClkCoast g)).cond = false → (s.recOf (srcClkCoast g)).inj = false →
      ∃ t, exec (.lossOfReference g) s = .next t ∧ t.clkState g = 3 ∧ t.flag rClkStat (16 + g) = true ∧ t.flag rClkStat (8 + g) = true ∧
        (t.recOf (srcClkCoast g)).state = 1 ∧ t = { s with regs := t.regs, clk := t.clk, flt := t.flt, out := t.out } ∧
        ∀ o, o ≠ rClkPll g → o ≠ rClkStat → o ≠ rFltAvEvt → t.rd o = s.rd o) ∧
    (∀ g : Fin 6, s.clkState g = 3 → ∃ t, exec (.coastEnd g) s = .next t ∧
      t.clkState g = (if s.clkWaits g then 1 else 2) ∧ t.flag rClkStat (16 + g) = false ∧
      (t.recOf (srcClkCoast g)).cond = false ∧ t = { s with regs := t.regs, clk := t.clk, flt := t.flt, out := t.out } ∧
      ∀ o, o ≠ rClkPll g → o ≠ rClkStat → t.rd o = s.rd o) ∧
    (∀ g : Fin 6, g.val < 2 → s.clkState g = 3 → s.coastEnds g.val = false → s.mayRaise srcCoastLimit = true →
      ∃ t, exec (.clkCoastLimit g) s = .next t ∧ (t.recOf srcCoastLimit).state = 1 ∧ t.mem = s.mem ∧ t.lay.jobs = s.lay.jobs) ∧
    (∀ c k, s.run.cur = some c → c.phase = .validating → c.cmd = some k → k.target ∈ [2, 3, 4] → s.flag rClkSsc 30 = true →
      ∃ t, exec .sscStop s = .next t ∧ t.flag rClkSsc 30 = false ∧ t.out = s.out ++ [.spread 0 0] ∧
        t = { s with regs := t.regs, out := t.out } ∧ ∀ o, o ≠ rClkSsc → t.rd o = s.rd o) ∧
    (∀ e : Fin 16, s.dom.main = true → ∃ t, exec (.syncInRise e) s = .next t ∧
      t.rd rTimSyncNs = 2 ^ 31 + (s.now40 + e.val * s.tim.incr / 16) / 2 ^ 40 % 1000000000 ∧
      (∀ n, n < 4 → (s.flag (rClkOut n) 22 = true ∨ s.flag (rClkOut n) 23 = true) → s.fld (rClkOut n) 28 3 ≠ 5 →
        t.flag (rClkOut n) 23 = false ∧ t.clk.restarts[n]? = (s.clk.restarts[n]?).map (· + 1)) ∧
      (∀ n, n < 4 → (s.flag (rClkOut n) 22 = false ∧ s.flag (rClkOut n) 23 = false) ∨ s.fld (rClkOut n) 28 3 = 5 →
        t.rd (rClkOut n) = s.rd (rClkOut n) ∧ t.clk.restarts[n]? = s.clk.restarts[n]?) ∧ t = { s with regs := t.regs, clk := t.clk }) ∧
    ((∃ n, n < 4 ∧ s.flag (rClkOut n) 31 = true ∧ s.fld (rClkOut n) 28 3 = 5) → s.dom.main = true →
      ∃ t, exec .ppsEdge s = .next t ∧ t.out = s.out ++ (if s.scanDrives then [] else (List.range 4).filter (fun n =>
          s.flag (rClkOut n) 31 && s.fld (rClkOut n) 28 3 == 5)).map (fun n => .pps n true) ∧
        t = { s with out := t.out, tim := { s.tim with ppsLow := t.tim.ppsLow } })

/-- Commands to a DMA channel (R219, R225, R226, R239): one from a master that its MASTER field does not name is refused; from its own GO starts
an idle channel, or pends, and is one with a pulse of its clock; ABORT makes it idle; RESUME runs a halted one, a bad set-up from its first
burst; a software event reaches the matrix; a failing burst halts the channel with its cause and address, and one of cause 1 makes its block
uncorrectable and raises MEM_UNCORR; the halt that ended a command's data of channel 1 (log entry 191) raises DMA_BUSERR.
Completion: under these conditions on the state and the operands alone, exec ANSWERS a next state, of its own effect, for dmaGo, dmaAbort,
dmaResume, dmaEvmSw, dmaHalt. -/
def Obligations.DmaChannelsStartStopAndHalt : Prop :=
  ∀ (s : State) (m : Master), s.Inv →
    (∀ n : Fin 12, s.reaches m (rDmaCtl n) = true → m = .load ∨ s.dmaNamed m n = true →
      let only (t : State) : Prop := t = { s.touch with regs := t.regs, dma := { s.dma with chans := t.dma.chans } } ∧
        (∀ k, k ≠ n.val → t.dmaChan k = s.dmaChan k) ∧ ∀ o, o ≠ rDmaStat n → o ≠ rDmaCrc n → t.rd o = s.rd o
      let empty (t : State) : Prop := (t.dmaChan n).read = 0 ∧ (t.dmaChan n).run = [] ∧ (t.dmaChan n).buf = [] ∧ (t.dmaChan n).wrote = 0
      let alone : Prop := ∀ x, (s.dmaChan n).began = some (x, true) → s.onCoreClock x = false
      (alone → s.dmaState n = 0 → s.badSetup n = false → n.val ≠ 3 → ∃ t, exec (.dmaGo m n) s = .next t ∧ t.dmaState n = 1 ∧
        t.rd (rDmaCrc n) = 0 ∧ t.fld (rDmaStat n) 0 16 = 0 ∧ empty t ∧ only t) ∧
      (alone → s.dmaState n ≠ 0 → ∃ t, exec (.dmaGo m n) s = .next t ∧ t.flag (rDmaStat n) 29 = true ∧ t.dmaState n = s.dmaState n ∧ only t) ∧
      (¬ alone → exec (.dmaGo m n) s = .next s.touch) ∧
      (∃ t, exec (.dmaAbort m n) s = .next t ∧ t.dmaState n = 0 ∧ t.flag (rDmaStat n) 29 = false ∧ empty t ∧
        only { t with ddr := s.ddr } ∧ t.ddr = { s.ddr with reqs := t.ddr.reqs }) ∧
      (s.dmaState n = 2 → (s.dmaChan n).reload = false → s.fld (rDmaStat n) 24 4 ≠ 6 →
        ∃ t, exec (.dmaResume m n) s = .next t ∧ t.dmaState n = 1 ∧ t.dma = s.dma ∧ only t) ∧
      (s.dmaState n = 2 → (s.dmaChan n).reload = false → s.fld (rDmaStat n) 24 4 = 6 → s.badSetup n = false → n.val ≠ 3 →
        ∃ t, exec (.dmaResume m n) s = .next t ∧ t.dmaState n = 1 ∧ empty t ∧ only t) ∧
      (s.dmaState n ≠ 2 → exec (.dmaResume m n) s = .next s.touch)) ∧
    (∀ n : Fin 12, s.reaches m (rDmaCtl n) = true → m ≠ .load → s.dmaNamed m n = false → s.raisesQuietly srcAccess = true →
      let refused (i : Instr) : Prop := ∃ t, exec i s = .next t ∧ (t.recOf srcAccess).state = 1 ∧
        t = { s.touch with flt := t.flt, regs := t.regs, out := t.out } ∧ t.dmaState n = s.dmaState n
      refused (.dmaGo m n) ∧ refused (.dmaAbort m n) ∧ refused (.dmaResume m n)) ∧
    (∀ v, s.reaches m rDmaEvmSw = true → bitAt v.toNat 0 = true →
      (∀ k, k < 17 → s.flag (rDmaEvmSel k) 31 = true → s.fld (rDmaEvmSel k) 0 6 = 63 →
        exec (.dmaEvmSw m v) s = .next { s.touch with dma := { s.dma with pulses := s.dma.pulses ++ [63] } }) ∧
      ((∀ k, k < 17 → s.flag (rDmaEvmSel k) 31 = false ∨ s.fld (rDmaEvmSel k) 0 6 ≠ 63) → exec (.dmaEvmSw m v) s = .next s.touch)) ∧
    (∀ (n : Fin 12) (wr : Bool) (cause : Fin 16) (addr : Nat), s.dmaState n = 1 → 1 ≤ cause.val → cause.val ≤ 5 → addr < 2 ^ 64 →
      (n.val = 1 → s.dma.fault = false) →
      s.raisesQuietly (srcDmaBusErr n) = true → (n.val = 2 → s.dma.load = none) →
      let halted (t : State) : Prop := t.dmaState n = 2 ∧ t.flag (rDmaStat n) 28 = wr ∧ t.fld (rDmaStat n) 24 4 = cause.val ∧
        t.rd (rDmaErraLo n) = addr % 2 ^ 32 ∧ t.rd (rDmaErraHi n) = addr / 2 ^ 32 ∧ (t.recOf (srcDmaBusErr n)).state = 1 ∧
        t = { s.marked t with regs := t.regs, flt := t.flt, out := t.out, dma := t.dma, ddr := t.ddr } ∧ t.dma.chans = s.dma.chans
      (cause.val ≠ 1 ∨ s.jsSize ≤ addr → ∃ t, exec (.dmaHalt n wr cause addr) s = .next t ∧ halted t ∧ t.ddr = { s.ddr with reqs := t.ddr.reqs }) ∧
      (cause.val = 1 → addr < s.jsSize → s.raisesQuietly (srcMem 1 (bits addr 9 2)) = true →
        ∃ t, exec (.dmaHalt n wr cause addr) s = .next t ∧ halted t ∧ addr / 64 * 64 ∈ t.ddr.bad ∧ (t.recOf (srcMem 1 (bits addr 9 2))).state = 1 ∧
          t.rd rMemErraLo = addr / 64 * 64 % 2 ^ 32 ∧ t.rd rMemErraHi = 2 ^ 31 + addr / 2 ^ 32 % 128)) ∧
    (∀ (wr : Bool) (cause : Fin 16) (addr : Nat), s.dma.fault = true → s.raisesQuietly (srcDmaBusErr 1) = true →
      ∃ t, exec (.dmaHalt 1 wr cause addr) s = .next t ∧ (t.recOf (srcDmaBusErr 1)).state = 1 ∧ t.dma.fault = false ∧
        t = { s with flt := t.flt, regs := t.regs, out := t.out, dma := { s.dma with fault := false, pulses := t.dma.pulses } })

/-- The work of a running channel (R221 to R224, R227), at its turn and, for a read, with the credit it takes (R223): a read burst in PASS mode takes the bytes at its source address and moves on; a write
burst stores the bytes it holds at its destination, and no other byte changes; a descriptor that is done counts, and the channel is idle or
loads its next descriptor through port 2; an event pulse starts the channel that alone selects it. A chained descriptor is tested as a first one, and its
NEXT needs no alignment, by the model's choice (log entry 90).
Completion: under these conditions on the state and the operands alone, exec ANSWERS a next state, of its own effect, for dmaBurst,
descriptorDone, eventPulse. -/
def Obligations.DmaChannelsMoveTheirBytes : Prop :=
  ∀ (s : State) (n : Fin 12), s.Inv → n.val ≠ 3 →
    let c := s.dmaChan n
    let src := (s.srcAddr n c.read).toNat
    let dst := (s.dstAddr n c.wrote).toNat
    let rlen := burstLen (s.srcAddr n) (s.srcFits n) c.read (s.dmaIn n)
    let wlen := burstLen (s.dstAddr n) (s.dstFits n) c.wrote (s.dmaOut n)
    let moves (t : State) : Prop := t.dma = { s.dma with chans := t.dma.chans, turn := n } ∧ (∀ k, k ≠ n.val → t.dmaChan k = s.dmaChan k) ∧
      t.ddr.bad = s.ddr.bad ∧ t.regs = s.regs
    (s.dmaState n = 1 → s.dmaTurn n = true → s.dma.chans.length = 12 → c.buf = [] → c.read < s.dmaIn n → 0 < rlen → rlen ≤ s.creditNow n →
      s.espMode n = 0 → s.flag (rDmaDctl n) 23 = false →
      (s.fld (rDmaDctl n) 30 2 = 0 → s.portWaits 2 [(src, rlen)] = false → s.errBlocks src rlen = [] → s.badBlock src rlen = none → ∀ host,
        ∃ t, exec (.dmaBurst n host []) s = .next t ∧ t.dmaChan n = { c with
            read := c.read + rlen, buf := s.memRead src rlen, credit := s.creditNow n - rlen, at_ := s.tim.elapsed } ∧
          t = { s with dma := t.dma, ddr := t.ddr } ∧ moves t) ∧
      (∀ bs, s.fld (rDmaDctl n) 30 2 = 1 → rlen ≤ bs.length →
        ∃ t, exec (.dmaBurst n (.bytes bs) []) s = .next t ∧ t.dmaChan n = { c with
            read := c.read + rlen, buf := bs.take rlen, credit := s.creditNow n - rlen, at_ := s.tim.elapsed } ∧
          t = { s with dma := t.dma, ddr := t.ddr } ∧ moves t)) ∧
    (∀ host, s.dmaState n = 1 → s.dmaTurn n = true → s.dma.chans.length = 12 → 0 < wlen → wlen ≤ c.buf.length →
      (s.fld (rDmaDctl n) 28 2 = 0 → s.portWaits 2 [(dst, wlen)] = false → s.errBlocks dst wlen = [] → s.writeBad n 0 dst wlen = none →
        ∃ t, exec (.dmaBurst n host []) s = .next t ∧ t.dmaChan n = { c with buf := c.buf.drop wlen, wrote := c.wrote + wlen } ∧
          (∀ i b, (c.buf.take wlen)[i]? = some b → storeGet byteDefault t.mem (dst + i) = b) ∧
          (∀ a, (a < dst ∨ dst + wlen ≤ a) → storeGet byteDefault t.mem a = storeGet byteDefault s.mem a) ∧
          t = { s with mem := t.mem, ddr := t.ddr, dma := { s.dma with chans := t.dma.chans, turn := n } } ∧
          ∀ k, k ≠ n.val → t.dmaChan k = s.dmaChan k) ∧
      (s.fld (rDmaDctl n) 28 2 = 1 →
        ∃ t, exec (.dmaBurst n host []) s = .next t ∧ t.dmaChan n = { c with buf := c.buf.drop wlen, wrote := c.wrote + wlen } ∧
          (∀ i b, (c.buf.take wlen)[i]? = some b → storeGet byteDefault t.hostMem (dst + i) = b) ∧
          (∀ a, (a < dst ∨ dst + wlen ≤ a) → storeGet byteDefault t.hostMem a = storeGet byteDefault s.hostMem a) ∧
          t = { s with hostMem := t.hostMem, dma := t.dma, ddr := t.ddr } ∧ moves t)) ∧
    let empty (t : State) : Prop := (t.dmaChan n).read = 0 ∧ (t.dmaChan n).run = [] ∧ (t.dmaChan n).buf = [] ∧ (t.dmaChan n).wrote = 0
    (s.dmaState n = 1 → s.dmaIn n ≤ c.read → s.dmaOut n ≤ c.wrote → s.flag (rDmaDctl n) 25 = false → s.flag (rDmaStat n) 29 = false →
      s.flag (rDmaDctl n) 24 = false → ∃ t, exec (.descriptorDone n) s = .next t ∧ t.dmaState n = 0 ∧
        t.fld (rDmaStat n) 0 16 = (s.fld (rDmaStat n) 0 16 + 1) % 65536 ∧ empty t ∧
        t = { s with regs := t.regs, dma := { s.dma with chans := t.dma.chans } } ∧ ∀ o, o ≠ rDmaStat n → t.rd o = s.rd o) ∧
    (∀ next : Nat, s.dmaState n = 1 → s.dmaIn n ≤ c.read → s.dmaOut n ≤ c.wrote → s.flag (rDmaDctl n) 25 = false →
      s.flag (rDmaDctl n) 24 = true → next = s.rd (rDmaNextLo n) + 2 ^ 32 * s.rd (rDmaNextHi n) → next + 64 ≤ s.jsSize →
      s.chainWaits n = false → s.errBlocks next 64 = [] → s.badBlock next 64 = none → s.raisesQuietly (srcDmaBusErr n) = true → (n.val = 2 → s.dma.load = none) →
      ∃ t, exec (.descriptorDone n) s = .next t ∧
        (∀ i, i < 16 → t.rd (rDmaDctl n + 4 * i) = getU (s.memRead next 64) (4 * i) 4 &&& State.chainNext.fieldMask (rDmaDctl n + 4 * i)) ∧
        t.dmaState n = (if t.badSetup n then 2 else 1) ∧ empty t ∧ t.mem = s.mem) ∧
    (∀ src : Fin 64, src.val ∈ s.dma.pulses → s.flag (rDmaEvmSel n) 31 = true → s.fld (rDmaEvmSel n) 0 6 = src.val →
      (∀ k, k < 17 → k ≠ n.val → s.flag (rDmaEvmSel k) 31 = false ∨ s.fld (rDmaEvmSel k) 0 6 ≠ src.val) → s.dmaState n = 0 →
      s.badSetup n = false → (∀ x, c.began = some (x, false) → s.onCoreClock x = false) →
      ∃ t, exec (.eventPulse src) s = .next t ∧ t.dmaState n = 1 ∧ t.dma.pulses = s.dma.pulses.erase src.val ∧
        t = { s with regs := t.regs, dma := t.dma } ∧ ∀ o, o ≠ rDmaStat n → o ≠ rDmaCrc n → t.rd o = s.rd o)

/-- The serpentine of the espalier (R232): a run of an odd pass leaves reversed, element by element, one of an even pass as it was read, and a
run above the buffer's 4,096 bytes is a bad setup. -/
def Obligations.SerpentineRunsReverse : Prop :=
  ∀ (n0 es ilv : Nat) (split : Bool) (i1 : Nat) (run : List Byte), run.length = n0 * es →
    (i1 % 2 = 1 → ∀ i0 k, i0 < n0 → k < es → (espRun 3 n0 es ilv split i1 run)[i0 * es + k]? = run[(n0 - 1 - i0) * es + k]?) ∧
    (i1 % 2 = 0 → espRun 3 n0 es ilv split i1 run = run) ∧ (espRun 3 n0 es ilv split i1 run).length = run.length ∧
    ∀ (s : State) (n : Nat), s.espMode n = 3 → (s.badSetup n = true ↔ 4096 < s.dmaN0 n * s.dmaEs n)

/-- The engines (R208, R213, R214, R217): COMPRESS frees its destination and queues; engine 1 serves snapshots, then tiles, then COMPRESS in
chunks of 32 KiB, and stops once its code is beyond LEN; a code shorter than its input is stored, verified, at the destination as one region, and
one that is not replies NO_GAIN. That the self-verify of engine 0 is an operand of COMPRESS is the model's choice (log entry 94).
Completion: under these conditions on the state and the operands alone, exec ANSWERS a next state, of its own effect, for compress,
rle1Item, snapshotWaitExpiry, compressDone. -/
def Obligations.EnginesEncodeAndVerify : Prop :=
  ∀ (s : State), s.Inv → s.dom.main = true →
    (∀ pk agrees, s.awaits pk = true → s.mayDecide pk ⟨0x94, fn01, modesRun, [anyField 0x20 8, anyField 0x28 8, anyField 0x30 4]⟩ = true →
      let src := pkU pk 0x20 8
      let dst := pkU pk 0x28 8
      let len := pkU pk 0x30 4
      s.compressBad src dst len = none → s.notCovered src len = none → s.destRefused dst (blocks64 len) = none →
      ∃ t, exec (.compress ⟨pk, agrees⟩) s = .next t ∧ t.cmd.held = s.cmd.held ∧
        t.rle = { s.rle with comps := s.rle.comps ++ [⟨pk, s.compressEngine, src, dst, len, 0, false, s.compressEngine == 1 || agrees⟩] } ∧
        t.lay = { s.lay with regions := s.lay.regions.filter (fun r => !overlap r.base r.len dst (blocks64 len)) } ∧
        t.rd (rRleCnt 6) = satAdd 0xFFFFFFFF (s.rd (rRleCnt 6)) 1 ∧ t = { s.marked t with cmd := t.cmd, rle := t.rle, lay := t.lay, regs := t.regs } ∧
        ∀ o, o ≠ rRleCnt 6 → t.rd o = s.rd o) ∧
    (∀ ok c, s.rle.snaps = [] → s.rle.tiles = [] → s.rle.comps.find? (fun c => c.eng == 1 && !c.fin) = some c →
      s.portWaits 3 [(c.src + c.taken, min c.len (c.taken + 32768) - c.taken)] = false →
      ∃ t, exec (.rle1Item ok) s = .next t ∧ t.rd (rRleCnt 2) = satAdd 0xFFFFFFFF (s.rd (rRleCnt 2)) 1 ∧
        t.rle = { s.rle with comps := s.rle.comps.map (fun d => if d.pk == c.pk then { d with
          taken := min c.len (c.taken + 32768)
          fin := decide (min c.len (c.taken + 32768) = c.len) ||
            decide (c.len < (rleEncode (s.jsRead c.src (min c.len (c.taken + 32768)))).length)
          ok := d.ok && ok } else d) } ∧
        t = { s.marked t with regs := t.regs, rle := t.rle, ddr := { s.ddr with reqs := t.ddr.reqs }, dma := { s.dma with pulses := t.dma.pulses } } ∧
        ∀ o, o ≠ rRleCnt 2 → t.rd o = s.rd o) ∧
    (∀ w rest out, s.rle.snaps = [] → s.rle.tiles = w :: rest → w.stripe = s.foot.handle → rleDecode w.code w.size = some out → lastRun130 w.code = false →
      ∃ t, exec (.rle1Item true) s = .next t ∧ t.rle = { s.rle with tiles := rest } ∧
        t.foot = { s.foot with bins := s.foot.bins.map (fun b => if b.idx == w.bin then
          { b with prims := updAt b.prims w.pos (fun p => p.withPix (out.map BitVec.toNat)) } else b) } ∧
        t.rd (rRleCnt 5) = satAdd 0xFFFFFFFF (s.rd (rRleCnt 5)) 1 ∧
        t = { s.marked t with regs := t.regs, rle := t.rle, foot := t.foot, dma := { s.dma with pulses := t.dma.pulses } }) ∧
    (∀ c, s.rle.comps.find? (fun c => c.fin || c.eng == 0) = some c → s.awaits c.pk = true →
      s.portWaits 3 ((if c.eng = 0 then [(c.src, c.len)] else []) ++ [(c.dst, blocks64 c.len)]) = false →
      let part := if c.eng = 1 then c.taken else c.len
      s.errBlocks c.src part = [] → s.badBlock c.src part = none →
      let code := rleEncode (s.jsRead c.src part)
      let n := blocks64 code.length
      (code.length < c.len → c.ok = true → c.eng ≠ 1 ∨ lastRun130 code = false → s.destRefused c.dst n = none →
        ∃ t r, exec .compressDone s = .next t ∧ t.answers c.pk 0 0 (code.length % 2 ^ 32) ∧
          (∀ k b, code[k]? = some b → storeGet byteDefault t.mem (c.dst + k) = b) ∧
          (∀ k, (k < c.dst ∨ c.dst + n ≤ k) → storeGet byteDefault t.mem k = storeGet byteDefault s.mem k) ∧
          t.lay = { s.lay with regions := s.lay.regions.filter (fun x => !overlap x.base x.len c.dst n) ++ [r] } ∧ r.base = c.dst ∧ r.len = n ∧
          t.rle = { s.rle with comps := s.rle.comps.filter (fun d => !(d.pk == c.pk)) } ∧
          (c.eng = 1 → t.regs = s.regs) ∧ (c.eng ≠ 1 → t.rd (rRleCnt 0) = satAdd 0xFFFFFFFF (s.rd (rRleCnt 0)) 1 ∧
            ∀ o, o ≠ rRleCnt 0 → t.rd o = s.rd o)) ∧
      (c.len ≤ code.length → ∃ t, exec .compressDone s = .next t ∧ t.answers c.pk 0x30 0 (c.len % 2 ^ 32) ∧
        t.rd (rRleCnt 7) = satAdd 0xFFFFFFFF (s.rd (rRleCnt 7)) 1 ∧ t.lay = s.lay ∧ ∀ k, (k < c.dst ∨ c.dst + blocks64 c.len ≤ k) →
          storeGet byteDefault t.mem k = storeGet byteDefault s.mem k)) ∧
    (∀ w rest x, s.rle.snaps = w :: rest → s.snap.entries[w.entry]? = some (some x) → s.raisesQuietly srcSnapRaw = true →
      s.ties (fun c => match c with | .rle1Item _ => true | _ => false) = false →
      ∃ t, exec .snapshotWaitExpiry s = .next t ∧ t.rle = { s.rle with snaps := rest } ∧ (t.recOf srcSnapRaw).state = 1 ∧
        t.snap.entries[w.entry]? = some (some { x with raw := true, code := [] }) ∧
        t = { s.marked t with regs := t.regs, rle := t.rle, snap := t.snap, flt := t.flt, out := t.out })

/-- Always-on power, wakes and MAIN_UP (R29, R33 to R35, R302, R378): power-up without an authentic image stays in STANDBY and raises CONFIG_AUTH;
with one its digest is kept; a wake from STANDBY opens the power-up sequence, one during a power-down is kept; MAIN_UP follows supply and
clocks, with the coarse time; without always-on power the outputs are undriven (R364).
Completion: under these conditions on the state and the operands alone, exec ANSWERS a next state, of its own effect, for alwaysOnPowerUp,
wake, aocScheduleEntry, mainUp, perstNRelease, alwaysOnPowerLoss. -/
def Obligations.DomainsPowerUpAndWake : Prop :=
  ∀ (s : State), s.Inv →
    (∀ fl, s.dom.aon = false → (s.aonFresh true).pickImage fl = none →
      ∃ t, exec (.alwaysOnPowerUp fl) s = .next t ∧ t.dom.aon = true ∧ t.dom.booted = true ∧ t.dom.imageOk = false ∧ t.dom.main = false ∧ t.mode = 0 ∧
        (t.recOf srcConfigAuth).state = 1 ∧ t.mem = [] ∧ t.lay.jobs = [] ∧ t.pending = s.pending ∧ t.hostMem = s.hostMem) ∧
    (∀ fl img, s.dom.aon = false → (s.aonFresh true).pickImage fl = some (false, img) → bitAt (getU img 6 2) 0 = false →
      ∃ t, exec (.alwaysOnPowerUp fl) s = .next t ∧ t.dom.imageOk = true ∧ t.dom.digest = sha384 (signedBytes img) ∧ t.dom.slotB = false ∧
        t.dom.main = false ∧ t.mode = 0 ∧ t.seqPull = true ∧ t.flt.recs = [] ∧ t.pending = s.pending ∧ t.hostMem = s.hostMem) ∧
    (∃ t, exec .alwaysOnPowerLoss s = .next t ∧ t.dom.aon = false ∧ t.dom.main = false ∧ t.mode = 0 ∧ t.mem = [] ∧ t.lay.jobs = [] ∧
      t.lay.stripes = [] ∧ t.flt.recs = [] ∧ t.flt.log = [] ∧ t.seqPull = true ∧ t.faultNLow = true ∧ t.pending = s.pending ∧
      t.hostMem = s.hostMem ∧ t.out = s.out ++ [.undriven allOutputs] ∧ ∀ o ∈ allOutputs, t.drive o = .undriven) ∧
    (s.mayWake = true → ∃ t, exec (.wake .wakeN) s = .next t ∧ t.seqPhase = 1 ∧ t.seqPull = false ∧ t.fld rGlbRstcause 28 4 = 4 ∧
      t.dom.wakeKept = false ∧ t.dom.main = false ∧ t.mode = 0 ∧ t.pwr.steps = 0 ∧
      ∀ n ∈ rails, s.railUsed n = true → t.railState n = 1) ∧
    (s.mayWake = false → s.dom.aon = true → s.goingDown = true →
      exec (.wake .wakeN) s = .next { s with dom := { s.dom with wakeKept := true } }) ∧
    (s.mayWake = true → s.dom.wakeKept = true → exec (.wake .kept) s = exec (.wake .wakeN) s) ∧
    (exec (.aocScheduleEntry false) s = exec (.wake .wakeN) s) ∧
    (s.mode = 1 → s.goingDown = false → exec (.aocScheduleEntry true) s = .next { s with pwr := { s.pwr with downCause := 1 } }) ∧
    (s.dom.main = false → s.awake = true → s.ownGood = true → s.clocksLocked = true → s.dom.resetting ≠ 2 →
      ∃ t, exec .mainUp s = .next t ∧ t.dom = { s.dom with main := true, mainUp := true, link := s.dom.perst } ∧ t.tim.sec = s.tim.cSec ∧
        t.tim.ns = s.tim.cNs ∧ t.tim.sub = s.tim.cFrac * 2 ^ 24 ∧ t.flag rTimStat 31 = false ∧
        t = { s with dom := t.dom, tim := t.tim, regs := t.regs } ∧ ∀ o, o ≠ rTimStat → t.rd o = s.rd o) ∧
    (exec .perstNRelease s = .next { s with dom := { s.dom with perst := true, link := s.dom.link || s.dom.mainUp } })

/-- CONFIG_LOAD and the resets (R33, R377 to R381): a load whose image is the one kept locks the blocks and brings SERVICE, in
the fallback configuration with CONFIG_LOAD where a section does not fit; with a record carried, or one of severity 3 or above over a warm reset,
HOLD of cause 5 follows (R339, R379); a
warm reset from SERVICE or HOLD, or at the end of its wait, puts the main domain down, losing the job store and keeping host memory and the
log; a cold reset asks for a power-down, and from an exposing mode does not pass HOLD, the model's choice (log entry 84); a wrong key is an ACCESS;
and the TAP's instructions are taken or refused, displace the pins and give them back, and its scans bring the identification, the bypass bit
and new boundary cells (R369, R370; log entry 173).
Completion: under these conditions on the state and the operands alone, exec ANSWERS a next state, of its own effect, for warmReset,
coldReset, configLoad, jtagInstruction, warmResetWaitExpiry. -/
def Obligations.LoadsAndResetsTakeEffect : Prop :=
  ∀ (s : State), s.Inv →
    (∀ fl img u, s.dom.main = true → s.dom.cfgDone = false → imageIn (if s.dom.slotB then fl.slotB else fl.slotA) = some img →
      sha384 (signedBytes img) = s.dom.digest → ((s.setFld rPadFilt 0 24 0x0A0222).showImage img s.dom.digest s.dom.slotB false).loadImage img = .ok u →
      (∀ r ∈ u.flt.recs, r.state = 0) →
      ∃ t, exec (.configLoad fl) s = .next t ∧ t.mode = 1 ∧ t.dom.cfgDone = true ∧ t.dom.resetting = 0 ∧ t.run.pull = false ∧
        t.rd rGlbLock = 0x1FFFFB + 4 * (u.rd rMbxLock % 2) ∧ t.mbx.coreHeld = [false, false, false]) ∧
    (∀ fl img u r, s.dom.main = true → s.dom.cfgDone = false → imageIn (if s.dom.slotB then fl.slotB else fl.slotA) = some img →
      sha384 (signedBytes img) = s.dom.digest →
      ((s.setFld rPadFilt 0 24 0x0A0222).showImage img s.dom.digest s.dom.slotB false).loadImage img = .ok u →
      r ∈ u.flt.recs → r.state ≠ 0 → r.carry = true ∨ (s.dom.resetting = 2 ∧ 3 ≤ r.eff) →
      ∃ t, exec (.configLoad fl) s = .next t ∧ t.mode = 5 ∧ t.fld rFltHold 28 4 = 5 ∧ t.flt.allstop = true ∧ t.dom.cfgDone = true) ∧
    (∀ fl img e, s.dom.main = true → s.dom.cfgDone = false → imageIn (if s.dom.slotB then fl.slotB else fl.slotA) = some img →
      sha384 (signedBytes img) = s.dom.digest → ((s.setFld rPadFilt 0 24 0x0A0222).showImage img s.dom.digest s.dom.slotB false).loadImage img = .error e →
      (∀ r ∈ s.flt.recs, r.state = 0) → s.raisesQuietly srcConfigLoad = true →
      ∃ t, exec (.configLoad fl) s = .next t ∧ t.mode = 1 ∧ t.dom.cfgDone = true ∧ t.dom.resetting = 0 ∧ t.run.pull = false ∧
        t.flag rGlbCfg 31 = true ∧ (t.recOf srcConfigLoad).state = 1 ∧ t.rd rGlbLock = 0x1FFFFB + 4 * (s.rd rMbxLock % 2) ∧
        t.mbx.coreHeld = [false, false, false] ∧ t.mem = s.mem) ∧
    (∀ m key, s.reaches m rGlbReset = true →
      (m = .h1 ∨ m = .aoc ∨ m = .debug → key = 0xC3#8 → s.mode = 1 ∨ s.mode = 5 → s.dom.resetting = 0 → s.seqPhase < 2 → s.dom.main = true →
        ∃ t, exec (.warmReset m key) s = .next t ∧ t.dom.main = false ∧ t.dom.resetting = 2 ∧ t.fld rGlbRstcause 28 4 = 3 ∧ t.seqPull = true ∧
          t.mem = [] ∧ t.lay.jobs = [] ∧ t.lay.regions = [] ∧ t.cmd.started = [] ∧ t.cmd.held = [] ∧ t.flt.log = s.flt.log ∧
          t.hostMem = s.hostMem ∧ t.dom.otp = s.dom.otp) ∧
      (m = .h1 ∨ m = .aoc ∨ m = .debug → key = 0xC3#8 → s.mode ≠ 0 → s.dom.resetting = 0 → exec (.coldReset m key) s =
        .next { s.touch with pwr := { s.pwr with downCause := 4 }, dom := { s.dom with resetting := 3 } }) ∧
      (key ≠ 0xC3#8 ∨ (m ≠ .h1 ∧ m ≠ .aoc ∧ m ≠ .debug) → s.raisesQuietly srcAccess = true →
        let refused (i : Instr) : Prop := ∃ t, exec i s = .next t ∧ (t.recOf srcAccess).state = 1 ∧
          t = { s.touch with flt := t.flt, regs := t.regs, out := t.out }
        refused (.warmReset m key) ∧ refused (.coldReset m key))) ∧
    (s.dom.resetting = 1 → s.repliesTie = true → exec .warmResetWaitExpiry s = .next s) ∧
    (s.dom.resetting = 1 → s.repliesTie = false → s.dom.main = true → ∃ t, exec .warmResetWaitExpiry s = .next t ∧ t.dom.main = false ∧ t.dom.resetting = 2 ∧
      t.fld rGlbRstcause 28 4 = 3 ∧ t.mem = [] ∧ t.lay.jobs = [] ∧ t.flt.log = s.flt.log ∧ t.hostMem = s.hostMem) ∧
    (∀ code : Byte, s.dom.main = true →
      let pins : List Out := if s.scanDrives then [.pinsReturn] else []
      (code ∉ [0x03#8, 0x04#8, 0x05#8, 0x10#8] → exec (.jtagInstruction (.load code)) s =
        .next { s with dbg := { s.dbg with ir := code, refused := false }, out := s.out ++ pins }) ∧
      (code ∈ [0x03#8, 0x04#8, 0x05#8] → s.mode = 1 → s.hvOff = true → exec (.jtagInstruction (.load code)) s =
        .next { s with dbg := { s.dbg with ir := code, refused := false }
                       out := s.out ++ [.scanPins (if code = 0x05#8 then none else some s.dbg.cells)] }) ∧
      (code = 0x10#8 → ∃ t, exec (.jtagInstruction (.load code)) s = .next t ∧ t.dbg = { s.dbg with ir := code, refused := false, session := true } ∧
        t.rd (rMbxEpoch 4) = (s.rd (rMbxEpoch 4) + 1) % 256 ∧ t = { s.marked t with dbg := t.dbg, regs := t.regs, mbx := t.mbx, out := s.out ++ pins }) ∧
      (code ∈ [0x03#8, 0x04#8, 0x05#8] → s.mode ≠ 1 ∨ s.hvOff = false → s.raisesQuietly srcAccess = true →
        ∃ t, exec (.jtagInstruction (.load code)) s = .next t ∧ t.dbg = { s.dbg with ir := code, refused := true } ∧ (t.recOf srcAccess).state = 1 ∧
          t = { s with dbg := t.dbg, flt := t.flt, regs := t.regs, out := t.out, free := t.free }) ∧
      exec (.jtagInstruction .reset) s = .next { s with dbg := { s.dbg with ir := 0x01#8, refused := false }, out := s.out ++ pins }) ∧
    (∀ tdi : List Bool, s.dom.main = true →
      (s.dbg.ir = 0x01#8 → exec (.jtagInstruction (.scan tdi)) s =
        .next { s with out := s.out ++ [.tdo (((List.range 32).map (bitAt 0x10262A6B) ++ tdi).take tdi.length)] }) ∧
      (s.dbg.ir ∉ [0x01#8, 0x02#8, 0x03#8, 0x10#8] ∨ (s.dbg.ir = 0x03#8 ∧ s.dbg.refused = true) → exec (.jtagInstruction (.scan tdi)) s =
        .next { s with out := s.out ++ [.tdo ((false :: tdi).take tdi.length)] }) ∧
      (s.dbg.ir = 0x02#8 → Config.scanCells ≤ tdi.length → ∃ t, exec (.jtagInstruction (.scan tdi)) s = .next t ∧
        t.dbg = { s.dbg with cells := tdi.drop (tdi.length - Config.scanCells) } ∧
        t = { s with dbg := t.dbg, out := t.out, free := t.free }))

/-- Rails starting (R302 to R305): a rise of SEQ_SYNC opens the next step and permits its rails; a permitted rail starts, its PG begins the
debounce, and after it the rail is good; a start that times out, or chatters too often, is to be powered down; a good rail that fails takes
every rail that depends on it off. An expiry and the edge it waits for on one clock are the edge alone (R313), where the tie is known (log entry
142).
Completion: under these conditions on the state and the operands alone, exec ANSWERS a next state, of its own effect, for seqSyncRise,
railStart, pgRise, debounceDone, pgtoExpiry, pgFall. -/
def Obligations.RailsStartAndFail : Prop :=
  ∀ (s : State), s.Inv →
    (s.dom.aon = true → s.seqPull = false →
      (s.seqPhase ≠ 1 → ∃ t, exec .seqSyncRise s = .next t ∧ t.flag rPwrSeq 29 = true ∧ t = { s.marked t with regs := t.regs } ∧
        t.rd (rPwrCnt 3) = satAdd 0xFFFFFFFF (s.rd (rPwrCnt 3)) 1 ∧ ∀ o, o ≠ rPwrSeq → o ≠ rPwrCnt 3 → t.rd o = s.rd o) ∧
      (s.seqPhase = 1 → s.pwr.steps < 64 → ∃ t, exec .seqSyncRise s = .next t ∧ t.pwr = { s.pwr with steps := s.pwr.steps + 1 } ∧
        t.fld rPwrSeq 8 6 = s.pwr.steps ∧ t.seqPhase = 1 ∧ t = { s with pwr := t.pwr, regs := t.regs } ∧
        ∀ n ∈ rails, t.railState n = if s.railUsed n && s.railState n == 1 && t.permitted n then 2 else s.railState n)) ∧
    (∀ n : Fin 24, s.railState n = 2 → s.seqPhase < 2 → ∃ t, exec (.railStart n) s = .next t ∧ t.railEn n = true ∧ t.railState n = 3 ∧
      t.out = s.out ++ [.railEn n true] ∧ t = { s with regs := t.regs, pwr := { s.pwr with rails := t.pwr.rails }, out := t.out } ∧
      ∀ o, o ≠ rPwrEn → o ≠ rPwrRstat n → t.rd o = s.rd o) ∧
    (∀ n : Fin 24, s.railState n = 3 → (s.railRec n).fell = false → ∃ t, exec (.pgRise n) s = .next t ∧ t.railPg n = true ∧ t.railState n = 4 ∧
      t = { s with regs := t.regs } ∧ ∀ o, o ≠ rPwrPg → o ≠ rPwrRstat n → t.rd o = s.rd o) ∧
    (∀ n : Fin 24, s.railState n ≠ 3 → ∃ t, exec (.pgRise n) s = .next t ∧ t.railPg n = true ∧
      t = { s with regs := t.regs } ∧ ∀ o, o ≠ rPwrPg → t.rd o = s.rd o) ∧
    (∀ n : Fin 24, s.railState n = 3 → (s.railRec n).fell = true → (s.railRec n).chat + 1 ≤ s.fld (rPwrRtime n) 4 4 →
      ∃ t, exec (.pgRise n) s = .next t ∧ t.railPg n = true ∧ t.railState n = 4 ∧ t.rd (rPwrCnt 1) = satAdd 0xFFFFFFFF (s.rd (rPwrCnt 1)) 1 ∧
        t = { s.marked t with regs := t.regs, pwr := { s.pwr with rails := t.pwr.rails } }) ∧
    (∀ n : Fin 24, s.railState n = 4 → s.ties (fun c => match c with | .pgFall rs => bitAt rs.toNat n | _ => false) = true →
      exec (.debounceDone n) s = .next s) ∧
    (∀ n : Fin 24, s.railState n = 4 → s.waits (fun c => match c with | .pgFall rs => bitAt rs.toNat n | _ => false) = false → ∃ t, exec (.debounceDone n) s = .next t ∧ t.railGood n = true ∧ t = { s with regs := t.regs, clk := t.clk } ∧
      ∀ k ∈ rails, k ≠ n.val → t.railState k = if s.railUsed k && s.railState k == 1 && (s.setRailState n 5).permitted k then 2 else s.railState k) ∧
    (∀ n : Fin 24, s.railState n = 3 → s.seqPhase < 2 → s.ties (fun c => match c with | .pgRise m => m == n | _ => false) = true →
      exec (.pgtoExpiry n) s = .next s) ∧
    (∀ n : Fin 24, s.railState n = 3 → s.mode = 0 → s.seqPhase < 2 → s.collects (srcPwr 0 n) = true →
      s.waits (fun c => match c with | .pgRise m => m == n | _ => false) = false →
      s.pairHeld (srcPwr 0 n) = false → s.pwr.downCause ≠ 4 →
      ∃ t, exec (.pgtoExpiry n) s = .next t ∧ t.railState n = 7 ∧ t.seqPull = true ∧ t.pwr.downCause = 2 ∧ (t.recOf (srcPwr 0 n)).state = 1 ∧
        t.mode = 0 ∧ t.mem = s.mem) ∧
    (∀ n : Fin 24, s.railState n = 3 → s.mode = 0 → s.collects (srcPwr 1 n) = true → s.pairHeld (srcPwr 1 n) = false → s.pwr.downCause ≠ 4 → (s.railRec n).fell = true →
      s.fld (rPwrRtime n) 4 4 < (s.railRec n).chat + 1 → ∃ t, exec (.pgRise n) s = .next t ∧ t.railState n = 7 ∧ t.seqPull = true ∧
        t.pwr.downCause = 2 ∧ (t.recOf (srcPwr 1 n)).state = 1 ∧ t.mode = 0) ∧
    (∀ (rs : BitVec 24) (n : Nat), n < 24 → rs.toNat = 2 ^ n → s.railPg n = true → s.seqPhase < 2 → (∀ a, a < 8 → s.atRest a = true) →
      s.waits (fun c => match c with | .adcScan _ => true | .powerDownStart => true | .hold _ => true | _ => false) = false →
      (s.railEn n = false → s.railState n ≠ 3 → s.railState n ≠ 4 → ∃ t, exec (.pgFall rs) s = .next t ∧ t.railPg n = false ∧
        t = { s with regs := t.regs, flt := t.flt } ∧ t.flt.recs = s.flt.recs ∧ t.flt.log = s.flt.log ∧ ∀ o, o ≠ rPwrPg → t.rd o = s.rd o) ∧
      (s.railState n = 3 ∨ s.railState n = 4 → ∃ t, exec (.pgFall rs) s = .next t ∧ t.railPg n = false ∧ t.railState n = 3 ∧
        t = { s with regs := t.regs, flt := t.flt, pwr := { s.pwr with rails := t.pwr.rails } } ∧ t.flt.recs = s.flt.recs ∧ t.flt.log = s.flt.log) ∧
      (let src := if s.railOwn n then srcPwr 3 n else srcPwr 2 n
       s.railUsed n = true → s.railEn n = true → s.railGood n = true → s.collects src = true → s.pairHeld src = false →
        ∃ t, exec (.pgFall rs) s = .next t ∧ t.railPg n = false ∧ (∀ k ∈ s.dependents [n] 24, t.railEn k = false) ∧
          (t.recOf src).state = 1))

/-- Powering down and the ADC (R307, R309 to R315): STANDBY asks for the power-down, which stops the heaters and holds SEQ_SYNC low; a scan
shows its conversions, and a rail that reads off is found off; a discharge time that runs out is noted and raised, unless a scan of its clock finds
the rail off; once the last rail is off the part is in STANDBY. That the scan's operand is in nanovolts is the model's choice (log entry 141).
Completion: under these conditions on the state and the operands alone, exec ANSWERS a next state, of its own effect, for standby,
powerDownStart, adcScan, distoExpiry, standbyEntry. -/
def Obligations.RailsGoDownIntoStandby : Prop :=
  ∀ (s : State), s.Inv →
    (∀ pk, s.awaits pk = true → s.mayDecide pk ⟨0x05, fn01, [1], []⟩ = true → s.pwr.downCause = 0 → s.holdBehind (s.take pk) = false →
      ∃ t, exec (.standby pk) s = .next t ∧ t.answers pk 0 0 0 ∧ t = { s with cmd := t.cmd, pwr := { s.pwr with downCause := 1 } }) ∧
    (s.pwr.downCause ≠ 0 → s.seqPhase < 2 → s.standbyHeld = false → s.thm.length ≤ 6 →
      ∃ t, exec .powerDownStart s = .next t ∧ (t.seqPhase = 2 ∨ t.seqPhase = 3) ∧ t.seqPull = true ∧ t.pwr.holdList = [] ∧
        (∀ x ∈ t.thm, x.duty = 0 ∧ x.high = 0) ∧ (∀ n ∈ rails, t.railState n ≠ 1 ∧ t.railState n ≠ 2) ∧ t.mode = s.mode) ∧
    (∀ volts : List Int, volts.length = 24 → s.dom.aon = true → s.seqPhase < 2 → s.pwr.discharging = none →
      (s.fading = [] → ∃ t, exec (.adcScan volts) s = .next t ∧
        (∀ c v, volts[c]? = some v → t.rd (rPwrAdc c) = (max 0 (min 4095 (roundHalfEven (v * 4096) 1250000000))).toNat) ∧
        t.snap.history = (if 255 ≤ s.snap.history.length then s.snap.history.drop 1 else s.snap.history) ++ [t.readings] ∧
        (∀ z x c v, s.thm[z]? = some x → z < 6 → s.dom.main = true → s.zoneRun z = true → s.fld (rThmCfg z) 0 5 = c → volts[c]? = some v →
          ∃ y, t.thm[z]? = some y ∧ y.sum = x.sum + adcCode v ∧ y.count = x.count + 1) ∧
        t = { s with regs := t.regs, snap := { s.snap with history := t.snap.history }, thm := t.thm }) ∧
      (∃ t, exec (.adcScan volts) s = .next t ∧ ∀ n ∈ s.fading, ∀ c v, s.railSense n = some c → volts[c]? = some v →
        adcCode v < s.fld (rPwrRoff n) 0 12 → (t.railRec n).off = true)) ∧
    (∀ n : Fin 24, n.val ∈ s.fading → (s.railRec n).expired = false →
      let offNow (c : Instr) : Bool := match c with | .adcScan v => s.scanFindsOff n v | _ => false
      (s.ties offNow = true → exec (.distoExpiry n) s = .next s) ∧
      (s.railSense n = none → ∃ t, exec (.distoExpiry n) s = .next t ∧ (t.railRec n).off = true) ∧
      (s.railSense n ≠ none → s.waits offNow = false → s.railWaits n = false → s.raisesQuietly (srcPwr 5 n) = true → ∃ t, exec (.distoExpiry n) s = .next t ∧
        (t.railRec n).expired = true ∧ (t.recOf (srcPwr 5 n)).state = 1 ∧ (2 ≤ s.seqPhase → t.flag (rPwrRstat n) 28 = true) ∧ t.mem = s.mem) ∧
      (s.railSense n ≠ none → s.waits offNow = false → s.railWaits n = true → s.collects (srcPwr 6 n) = true → s.pairHeld (srcPwr 6 n) = false → ∃ t, exec (.distoExpiry n) s = .next t ∧
        (t.recOf (srcPwr 6 n)).state = 1 ∧ (2 ≤ s.seqPhase → t.flag (rPwrRstat n) 28 = true) ∧ t.mem = s.mem)) ∧
    (s.seqPhase = 2 → s.downTodo = [] → ∃ t, exec .standbyEntry s = .next t ∧ t.mode = 0 ∧ t.seqPhase = 0 ∧ t.seqPull = true ∧
      t.dom.main = false ∧ t.pwr.downCause = 0 ∧ t.run.pull = true ∧ t.dom.coldPend = (s.pwr.downCause == 4) ∧ t.rd rFltHold = 0 ∧
      (∀ g, g < 6 → t.clkState g = 0) ∧ t.hostMem = s.hostMem)

/-- Heartbeats and PTP (R42, R265 to R270): a heartbeat goes out of every port that is up; one heard from a member of the roster is noted and
forwarded; a member lost raises HB_LOSS, and a duplicate ends; other frames are counted as discarded (R264);
PTP messages of the port's domain and delay mechanism are taken, and sent with the stamps and corrections each answers; time-outs raise theirs,
unless what they wait for falls on their clock (R342). A forwarded heartbeat keeps its sender's source address by the model's choice (log entry
146), and what IEEE 1588 gives is the model's reading of it (log entry 36). What a heartbeat with ALLSTOP does is in HoldStopsEverything.
Completion: under these conditions on the state and the operands alone, exec ANSWERS a next state, of its own effect, for heartbeatSend,
heartbeatReceive, hbLoss, dupExpiry, ptpMessageReceive, ptpMessageSend, announceTimeout, ptpMsgWaitExpiry, tpLinkChange. -/
def Obligations.TimingPortsExchangeMessages : Prop :=
  ∀ (s : State), s.Inv → s.net.ports.length = 2 →
    let ups := [0, 1].filter (fun p => s.portUp p)
    (ups ≠ [] → ∃ t, exec .heartbeatSend s = .next t ∧ t.out = s.out ++ ups.map (fun p =>
        .heartbeat p 0x034E5A262000 (s.port p).mac 0x88B5 (hbFrame (s.hbHead 0))) ∧
      t.net.hbSeq = s.net.hbSeq + 1#32 ∧ t.net.lastHbAt = s.tim.elapsed ∧ t = { s with out := t.out, net := t.net }) ∧
    (∀ (p : Fin 2) (mac type : Nat) (f : List Byte), s.portUp p = true → type ≠ 0x88B5 ∨ 1500 < f.length →
      ∃ t, exec (.heartbeatReceive p mac ⟨type, f⟩) s = .next t ∧ (t.port p).discarded = (s.port p).discarded + 1 ∧
        (t.port p).rxFrames = (s.port p).rxFrames + 1 ∧ t = { s with net := { s.net with ports := t.net.ports } }) ∧
    (∀ (p : Fin 2) (mac : Nat) (f : List Byte), s.portUp p = true → f.length ≤ 1500 → getU f 0 2 = 0x4E5A → getU f 0x28 4 = crc32c (slice f 0 0x28) →
      getU f 2 1 = 1 → s.net.ports.any (fun x => x.mac == mac) = false →
      s.net.recent.any (fun r => r.1 == getU f 3 1 && r.2.1 == getU f 0xC 4 && decide (s.tim.elapsed - r.2.2 < t16ms)) = false →
      getU f 3 1 ≠ s.sysIdx → s.net.roster.contains (getU f 3 1) = true → bitAt (getU f 5 1) 0 = false →
      ∃ t, exec (.heartbeatReceive p mac ⟨0x88B5, f⟩) s = .next t ∧
        (⟨getU f 3 1, getU f 4 1, false, bitAt (getU f 5 1) 1, bitAt (getU f 5 1) 2, bitAt (getU f 5 1) 3, getU f 8 4, s.tim.elapsed, false⟩ : Peer)
          ∈ t.net.peers ∧ (t.port p).rxFrames = (s.port p).rxFrames + 1 ∧
        t.out = s.out ++ (if getU f 6 1 < 15 ∧ s.portUp (1 - p) = true then
          [.heartbeat (1 - p) 0x034E5A262000 mac 0x88B5 (hbFrame (slice f 0 6 ++ leBytes 1 (getU f 6 1 + 1) ++ slice f 7 33))] else []) ∧
        t = { s with out := t.out, net := t.net }) ∧
    (∀ i : Fin 64, s.dom.main = true → s.net.roster.contains i.val = true → i.val ≠ s.sysIdx →
      s.net.peers.any (fun q => q.idx == i.val && q.lost) = false → s.mayRaise srcHbLoss = true →
      (s.recOf srcHbLoss).cond = false → (s.recOf srcHbLoss).inj = false → s.hbTies i = false →
      ∃ t, exec (.hbLoss i) s = .next t ∧ (∃ q ∈ t.net.peers, q.idx = i.val ∧ q.lost = true) ∧ (t.recOf srcHbLoss).state = 1 ∧ t.mem = s.mem) ∧
    (s.net.dup = true → s.hbTies s.sysIdx = true → exec .dupExpiry s = .next s) ∧
    (s.net.dup = true → s.hbTies s.sysIdx = false → ∃ t, exec .dupExpiry s = .next t ∧ t.net = { s.net with dup := false } ∧ (t.recOf srcRosterDup).cond = false ∧
      t = { s with net := t.net, flt := t.flt, out := t.out }) ∧
    (∀ (p : Fin 2) (up : Bool), s.dom.main = true → ∃ t, exec (.tpLinkChange p up) s = .next t ∧ (t.port p).link = up ∧
      (s.flag (rTimPcfg p) 31 = true → up = true → (s.port p).link = false → (t.port p).state = .listening) ∧
      (s.flag (rTimPcfg p) 31 = true → up = false → (s.port p).link = true → (t.port p).state = .disabled) ∧
      (up = (s.port p).link → t = s) ∧ t = { s with net := t.net, tim := t.tim, regs := t.regs } ∧ ∀ o, o ≠ rTimStat → t.rd o = s.rd o) ∧
    (∀ (p : Fin 2) (e : Fin 16) (m : PtpMsg), s.portUp p = true →
      let x := s.port p
      let rx := (s.stamp e : Int) - psTo16 (signed 24 (s.rd (rTimIgl p)))
      let taken : Prop := m.domain = bits x.cfg 16 7 ∧ x.hears m.kind = true
      ∃ t, exec (.ptpMessageReceive p e m) s = .next t ∧ (t.port p).rxFrames = x.rxFrames + 1 ∧ t.mem = s.mem ∧ t.lay.jobs = s.lay.jobs ∧
        (m.kind = .management → (t.port p).mgmt = x.mgmt + 1 ∧ t = { s with net := t.net }) ∧
        (m.kind ≠ .management → ¬ taken → (t.port p) = { x with rxFrames := x.rxFrames + 1 } ∧ t = { s with net := t.net }) ∧
        (taken → m.kind = .delayReq ∨ m.kind = .pdelayReq → (t.port p).reqRx = some rx ∧ (t.port p).reqCorr = m.corr) ∧
        (taken → m.kind = .delayResp → x.awaitResp = true → (t.port p).pathDelay =
          floorDiv ((x.lastSyncRx - x.reqTx) + (m.origin - m.corr - x.lastSyncOrigin)) 2) ∧
        (taken → m.kind = .pdelayResp → x.awaitResp = true → m.oneStep = true → (t.port p).pathDelay = floorDiv (rx - x.reqTx - m.corr) 2) ∧
        (taken → m.kind = .announce → x.best = none ∨ (∃ b, x.best = some b ∧ clockBetter m.clock b = true) → (t.port p).best = some m.clock) ∧
        (taken → m.kind = .announce → (t.port p).state = .slave ∨ (t.port p).state = .uncalibrated → ∀ b, (t.port p).best = some b →
          t.net.utcOffset = b.utc) ∧
        (taken → m.kind = .sync → m.oneStep = true → (t.port p).offset = rx - (m.origin + m.corr) - x.pathDelay -
          psTo16 (signed 24 (s.rd (rTimAsym p))))) ∧
    (∀ (p : Fin 2) (e : Fin 16), s.portUp p = true →
      let x := s.port p
      let tx := (s.stamp e : Int) + psTo16 (signed 24 (s.rd (rTimEgl p)))
      let p2p := bitAt x.cfg 28
      let sends (k : PtpKind) (dst : Nat) (a b : Int) (y : PtpPort) : Prop := ∃ t, exec (.ptpMessageSend p e k) s = .next t ∧
        t.out = s.out ++ [.ptp p k dst (bits x.cfg 16 7) a b (if k = .announce then some (s.announced p) else none)] ∧
        t.port p = y ∧ t = { s with out := t.out, net := { s.net with ports := t.net.ports } }
      (bitAt x.cfg 27 = true → sends .sync 0x011B19000000 (originNs tx) (originFrac tx) x) ∧
      (bitAt x.cfg 27 = false → sends .sync 0x011B19000000 0 0 { x with syncTx := some tx }) ∧
      (∀ t0, x.syncTx = some t0 → sends .followUp 0x011B19000000 (originNs t0) (originFrac t0) { x with syncTx := none }) ∧
      (p2p = false → sends .delayReq 0x011B19000000 0 0 { x with reqTx := tx, awaitResp := true }) ∧
      (p2p = true → sends .pdelayReq 0x0180C200000E 0 0 { x with reqTx := tx, awaitResp := true, respRx := none }) ∧
      (∀ t0, x.reqRx = some t0 → p2p = false → sends .delayResp 0x011B19000000 (originNs t0) (x.reqCorr - originFrac t0) { x with reqRx := none }) ∧
      (∀ t0, x.reqRx = some t0 → p2p = true → bitAt x.cfg 27 = true → sends .pdelayResp 0x0180C200000E 0 (x.reqCorr + (tx - t0)) { x with reqRx := none }) ∧
      (∀ t0, x.reqRx = some t0 → p2p = true → bitAt x.cfg 27 = false →
        sends .pdelayResp 0x0180C200000E (originNs t0) (-originFrac t0) { x with reqRx := none, respTx := some tx }) ∧
      (∀ t0, x.respTx = some t0 → p2p = true →
        sends .pdelayRespFollowUp 0x0180C200000E (originNs t0) (x.reqCorr + originFrac t0) { x with respTx := none }) ∧
      sends .announce 0x011B19000000 0 0 x ∧ exec (.ptpMessageSend p e .management) s = .next s) ∧
    (∀ p : Fin 2, s.portUp p = true → (s.port p).state = .listening → bits (s.port p).cfg 29 2 ≠ 2 → s.onCoreClock (s.port p).annAt = false →
      s.ptpTies p .announce = false → ∃ t, exec (.announceTimeout p) s = .next t ∧ (t.port p).state = .master ∧
        t = { s with net := { s.net with ports := t.net.ports } }) ∧
    (∀ p : Fin 2, s.portUp p = true → s.onCoreClock (s.port p).annAt = false → s.ptpTies p .announce = false → (s.port p).state = .slave ∨ (s.port p).state = .uncalibrated →
      s.mayRaise (srcPtpTimeout p) = true → ∃ t, exec (.announceTimeout p) s = .next t ∧
        (t.port p).state = (if bits (s.port p).cfg 29 2 = 2 then .listening else .master) ∧ (t.recOf (srcPtpTimeout p)).state = 1 ∧ t.mem = s.mem) ∧
    (∀ (p : Fin 2) (k : PtpKind), s.portUp p = true → (k = .sync ∧ (s.port p).state = .slave) ∨ (k = .followUp ∧ (s.port p).awaitFollowUp = true) ∨
        ((k = .delayResp ∨ k = .pdelayResp) ∧ (s.port p).awaitResp = true) →
      (k = .sync → s.onCoreClock (s.port p).syncAt = false) → s.ptpTies p k = false → s.mayRaise (srcPtpLoss p) = true →
      ∃ t, exec (.ptpMsgWaitExpiry p k) s = .next t ∧ (t.port p).syncLost = (s.port p).syncLost + 1 ∧ (t.recOf (srcPtpLoss p)).state = 1 ∧
        (k = .followUp → (t.port p).awaitFollowUp = false) ∧ (k ≠ .sync → k ≠ .followUp → (t.port p).awaitResp = false) ∧ t.mem = s.mem)

/-- The DDR5 controller (R234, R240, R243, R244, R247 to R250): four fitting, trained channels fill, and a fill that is done zeroes the store and
makes it ready; refreshes are issued, or owed while
port 0 or 1 is urgent; the scrub goes on past clean blocks and drops what an uncorrectable block spoils; temperatures
show; an alert is counted and raised; an eye scan runs and stores its map.
Completion: under these conditions on the state and the operands alone, exec ANSWERS a next state, of its own effect, for eyeScan,
ddr5BringUp, zeroFillDone, refreshDue, scrubRead, dimmTempRead, alertN, eyeScanDone. -/
def Obligations.JobStoreControllerKeepsTheStore : Prop :=
  ∀ (s : State), s.Inv → s.dom.main = true →
    (∀ found : List DimmFound, s.dom.cfgDone = true → s.ddr.train ≠ [] → s.memAll 0 = true →
      (∀ c, c < 4 → dimmOk (found.getD c dimmNone) = true ∧ dimmLike (found.getD c dimmNone) (found.getD 0 dimmNone) = true ∧
        s.trainOk c (found.getD c dimmNone) = true) →
      ∃ t, exec (.ddr5BringUp found) s = .next t ∧ (∀ c, c < 4 → t.memCh c = 2) ∧ t = { s with regs := t.regs } ∧
        ∀ o, o ≠ rMemStat → t.rd o = s.rd o) ∧
    (s.memAll 2 = true → ∃ t, exec .zeroFillDone s = .next t ∧ (∀ c, c < 4 → t.memCh c = 3) ∧ (∀ a, storeGet byteDefault t.mem a = 0#8) ∧
      t.memReady = !s.ddr.badTemp.any id ∧ t = { s with mem := [], regs := t.regs, ddr := { s.ddr with bad := [], errs := [], filled := true, scrub := 0 } } ∧
      ∀ o, o ≠ rMemStat → t.rd o = s.rd o) ∧
    (∀ (c : Fin 4) (k : Fin 2) (ages : Option Nat × Option Nat), s.memCh c ≠ 0 → k.val = 0 ∨ s.flag rMemCfg 5 = true →
      storeWf posDefault s.ddr.owed = true →
      let urgent := ages.1.any (s.portUrgent 0) || ages.2.any (s.portUrgent 1)
      (urgent = false → ∃ t, exec (.refreshDue c k ages) s = .next t ∧ t.owed c k = 0 ∧ t.out = s.out ++ [.refresh c k (s.owed c k + 1)] ∧
        t = { s with out := t.out, ddr := { s.ddr with owed := t.ddr.owed } }) ∧
      (urgent = true → s.owed c k < 2 → ∃ t, exec (.refreshDue c k ages) s = .next t ∧ t.owed c k = s.owed c k + 1 ∧ t.out = s.out ∧
        t.rd (rMemCnt 3) = satAdd 0xFFFFFFFF (s.rd (rMemCnt 3)) 1 ∧ t = { s.marked t with regs := t.regs, ddr := { s.ddr with owed := t.ddr.owed } }) ∧
      (urgent = true → 2 ≤ s.owed c k → ∃ t, exec (.refreshDue c k ages) s = .next t ∧ t.owed c k = 0 ∧ t.out = s.out ++ [.refresh c k 3] ∧
        t.rd (rMemCnt 4) = satAdd 0xFFFFFFFF (s.rd (rMemCnt 4)) 1 ∧
        t = { s.marked t with out := t.out, regs := t.regs, ddr := { s.ddr with owed := t.ddr.owed } })) ∧
    (∀ ov, s.ddr.filled = true → s.portWaits 6 [(s.ddr.scrub, 64)] = false →
      let reqs := s.ddr.reqs.filter (fun r => r.port != 6)
      (s.errBlocks s.ddr.scrub 64 = [] → s.ddr.bad.contains s.ddr.scrub = false → s.ddr.scrub + 64 < s.jsSize →
        exec (.scrubRead [] ov) s = .next { s with ddr := { s.ddr with scrub := s.ddr.scrub + 64, reqs := reqs } }) ∧
      (s.errBlocks s.ddr.scrub 64 = [] → s.ddr.bad.contains s.ddr.scrub = false → s.jsSize ≤ s.ddr.scrub + 64 →
        ∃ t, exec (.scrubRead [] ov) s = .next t ∧ t.ddr = { s.ddr with scrub := 0, passes := (s.ddr.passes + 1) % 2 ^ 32, reqs := reqs } ∧
          t.rd (rMemCnt 7) = satAdd 0xFFFFFFFF (s.rd (rMemCnt 7)) 1 ∧ t = { s.marked t with ddr := t.ddr, regs := t.regs }) ∧
      (∀ errs, let u := ((s.newErrs errs).portServed 6).readBlocks s.ddr.scrub 64
       let src := srcMem 1 (bits s.ddr.scrub 9 2)
       u.ddr.bad.contains s.ddr.scrub = true → u.mayRaise src = true → ∃ t, exec (.scrubRead errs ov) s = .next t ∧
        s.ddr.scrub ∈ t.ddr.bad ∧ (t.recOf src).state = 1 ∧ t.mem = u.mem ∧ ∀ r ∈ t.lay.regions, r ∈ u.lay.regions ∧
          (overlap r.base r.len s.ddr.scrub 64 = true → t.pinnedRegion r = true))) ∧
    (∀ (c : Fin 4) (v : Int), s.dom.cfgDone = true → (v - s.tTrain c).natAbs ≤ 10 → v ≤ 95 →
      ∃ t, exec (.dimmTempRead c (some v)) s = .next t ∧ t.fld (rMemTemp c) 0 8 = unsigned 8 v ∧ t.flag (rMemTemp c) 31 = true ∧
        (85 < v → t.flag rMemStat (8 + c) = true) ∧ (v ≤ 83 → t.flag rMemStat (8 + c) = false) ∧
        t = { s with regs := t.regs, ddr := t.ddr, flt := t.flt, out := t.out } ∧ ∀ o, o ≠ rMemTemp c → o ≠ rMemStat → t.rd o = s.rd o) ∧
    (∀ c : Fin 4, s.memCh c ≠ 0 → s.mayRaise (srcMem 7 c) = true →
      ∃ t, exec (.alertN c) s = .next t ∧ t.rd (rMemCnt 5) = satAdd 0xFFFFFFFF (s.rd (rMemCnt 5)) 1 ∧ (t.recOf (srcMem 7 c)).state = 1 ∧
        t.mem = s.mem) ∧
    (∀ pk, s.awaits pk = true → s.mayDecide pk ⟨0xA0, [.h1, .h2], [1], [⟨0x20, 1, fun v => decide (v < 4)⟩, ⟨0x21, 1, s.laneOk⟩,
        ⟨0x28, 8, fun v => v == 0 || (v % 64 == 0 && decide (v + 2112 ≤ s.jsSize))⟩]⟩ = true →
      pkU pk 0x28 8 = 0 ∨ (s.memReady = true ∧ s.destRefused (pkU pk 0x28 8) 2112 = none) →
      ∃ t, exec (.eyeScan pk) s = .next t ∧ t.cmd.held = s.cmd.held ∧
        t.ddr = { s.ddr with eye := s.ddr.eye ++ [⟨pk, pkU pk 0x20 1, pkU pk 0x21 1, pkU pk 0x28 8⟩] } ∧ t = { s with cmd := t.cmd, ddr := t.ddr }) ∧
    (∀ res e rest, s.ddr.eye = e :: rest → s.awaits e.pk = true → e.addr = 0 ∨ s.destRefused e.addr 2112 = none →
      ∃ t, exec (.eyeScanDone res) s = .next t ∧ t.ddr.eye = rest ∧ t.answers e.pk 0 0 0 ∧
        (e.addr = 0 → t.mem = s.mem ∧ t.lay = s.lay) ∧
        (e.addr ≠ 0 → (∀ k b, (eyeMap res.passes)[k]? = some b → storeGet byteDefault t.mem (e.addr + k) = b) ∧
          ∀ k, (k < e.addr ∨ e.addr + 2112 ≤ k) → storeGet byteDefault t.mem k = storeGet byteDefault s.mem k))

/-- Commands to an axis (R283 to R285, R287, R293, R294, R296, R297): a configuration that fits is written; a move, a resume or a homing run of
an axis that can start begins a leg and replies at rest; a move of no distance and a set position reply at once; a stop brakes or replies.
Completion: under these conditions on the state and the operands alone, exec ANSWERS a next state, of its own effect, for axisConfig,
axisMove, axisStop, axisResume, axisHome, fxMove, fxHalt. -/
def Obligations.AxesTakeTheirCommands : Prop :=
  ∀ (s : State) (pk : Packet), s.Inv → s.awaits pk = true → s.mot.length = 8 →
    let a := pkU pk 0x20 1
    let canStart : Prop := s.axisEn a = true ∧ s.atRest a = true ∧ s.axisRailLow a = false
    let starts (i : Instr) (d target : Int) : Prop := ∃ t, exec i s = .next t ∧ t.cmd.held = s.cmd.held ∧ (t.axis a).pk = some pk ∧
      (t.axis a).run = (if s.flag (rMotCfg a) 29 then .jerk d.natAbs true false false 0 false else .trap d.natAbs false) ∧
      (t.axis a).dir = decide (0 < d) ∧ (t.axis a).v2 = s.vs2 a ∧ t.rd (rMotTarget a) = unsigned 32 target ∧
      t.rd (rMotPos a) = s.rd (rMotPos a) ∧ t.fld (rMotStat a) 29 3 = 1 ∧ t = { s with cmd := t.cmd, regs := t.regs, mot := t.mot } ∧
      ∀ b, b ≠ a → t.axis b = s.axis b
    let moves (i : Instr) : Prop := canStart →
      let d : Int := if pkU pk 0x28 1 = 0 then pkS pk 0x24 4 - s.axisPos a else pkS pk 0x24 4
      let target : Int := if pkU pk 0x28 1 = 0 then pkS pk 0x24 4 else s.axisPos a + pkS pk 0x24 4
      (pkU pk 0x28 1 < 2 → d ≠ 0 → s.limitIn a (decide (0 < d)) = false → starts i d target) ∧
      (pkU pk 0x28 1 < 2 → d = 0 → ∃ t, exec i s = .next t ∧ t.answers pk 0 0 (s.rd (rMotPos a)) ∧ t = { s.marked t with cmd := t.cmd, regs := t.regs }) ∧
      (pkU pk 0x28 1 = 2 → ∃ t, exec i s = .next t ∧ t.answers pk 0 0 (unsigned 32 (pkS pk 0x24 4)) ∧
        t.rd (rMotPos a) = unsigned 32 (pkS pk 0x24 4) ∧ t.flag (rMotStat a) 27 = false ∧ t = { s with cmd := t.cmd, regs := t.regs }) ∧
      (pkU pk 0x28 1 = 3 → s.flag (rMotCfg a) 30 = true → s.padsAssigned a = true →
        ∃ t, exec i s = .next t ∧ t.cmd.held = s.cmd.held ∧ (t.axis a).run = .interp [] 0 false ∧ (t.axis a).pk = some pk ∧
          t.rd (rMotPos a) = s.rd (rMotPos a) ∧ t = { s with cmd := t.cmd, regs := t.regs, mot := t.mot })
    let stops (i : Instr) : Prop :=
      (s.atRest a = true → ∃ t, exec i s = .next t ∧ t.answers pk 0 0 (s.rd (rMotRemain a)) ∧ s.onlyReplied t pk) ∧
      (∀ r st, (List.range 8).all (fun b => !(s.axis b).failed) = true → (s.axis a).run = .trap r st → 0 < min r (brakeDist (s.axis a).v2 (s.vs2 a) (s.fld (rMotDec a) 0 31)) →
        let b := min r (brakeDist (s.axis a).v2 (s.vs2 a) (s.fld (rMotDec a) 0 31))
        ∃ t, exec i s = .next t ∧ t.cmd.held = s.cmd.held ∧ (t.axis a).run = .trap b true ∧ (t.axis a).left = (s.axis a).left + (r - b) ∧
          (t.axis a).stopPk = (s.axis a).stopPk ++ [pk] ∧ t.fld (rMotStat a) 29 3 = 4 ∧ t = { s with cmd := t.cmd, regs := t.regs, mot := t.mot })
    (s.mayDecide pk ⟨0x50, fn01, [1], fAxisConfig pk⟩ = true → s.atRest a = true → (s.axisConfig 2 a (slice pk.bytes 0x28 64)).isSome = true →
      ∃ t, exec (.axisConfig pk) s = .next t ∧ t.answers pk 0 0 0 ∧ t = { s.marked t with cmd := t.cmd, regs := t.regs } ∧
        ∀ i, i < 10 → t.rd (rMotCfg a + 4 * i) = (profileWord (slice pk.bytes 0x28 64) i &&& rwBits (rMotCfg a + 4 * i))) ∧
    (s.mayDecide pk ⟨0x51, fn01, modesRun, fAxisMove⟩ = true → moves (.axisMove pk)) ∧
    (s.mayDecide pk (fxSpec 0x87 fAxisMove) = true → moves (.fxMove pk)) ∧
    (s.mayDecide pk ⟨0x52, fnAll, modesAny, fByte 8⟩ = true → stops (.axisStop pk)) ∧
    (s.mayDecide pk (fxSpec 0x88 (fByte 8)) = true → stops (.fxHalt pk)) ∧
    (s.mayDecide pk ⟨0x53, fn01, modesRun, fByte 8⟩ = true → canStart → s.flag (rMotStat a) 28 = true →
      s.limitIn a (decide (0 < signed 32 (s.rd (rMotRemain a)))) = false →
      starts (.axisResume pk) (signed 32 (s.rd (rMotRemain a))) (signed 32 (s.rd (rMotTarget a)))) ∧
    (s.mayDecide pk ⟨0x54, fn01, modesRun, [⟨0x20, 1, fun v => decide (v < 8)⟩, ⟨0x21, 1, fun v => decide (v < 3)⟩]⟩ = true → canStart →
      s.limitIn a false = false → pkU pk 0x21 1 = 2 ∨ s.flag (rMotStat a) 23 = false →
      ∃ t, exec (.axisHome pk) s = .next t ∧ t.cmd.held = s.cmd.held ∧ (t.axis a).run = .homeSeek (pkU pk 0x21 1) 0 true 0 false ∧
        (t.axis a).dir = false ∧
        (t.axis a).pk = some pk ∧ t.fld (rMotStat a) 29 3 = 5 ∧ t.rd (rMotPos a) = s.rd (rMotPos a) ∧
        t = { s with cmd := t.cmd, regs := t.regs, mot := t.mot })

/-- Events of an axis (R286, R287, R290 to R292, R295 to R297): a microstep moves the position by one, emits STEP, and sets the next interval or
ends the move; coarse steps queue microsteps; load pulses and the hold current are taken; a limit is counted and stops motion toward it; a
HOME edge ends the seek, and where HOME went inactive in the braking, the back-off is at its end. The model's choices are the level of DIR in the
step output (log entry 78), MOT_LIMIT raised at rest (log entry 59), the wrap of MOT_POS (log entry 99) and HOME inactive in the braking (log
entry 192).
Completion: under these conditions on the state and the operands alone, exec ANSWERS a next state, of its own effect, for microstep,
coarseStepEdge, loadfbPulse, limitActive, homeEdge, holddlyExpiry. -/
def Obligations.AxesStepAndStop : Prop :=
  ∀ (s : State) (a : Fin 8), s.Inv → s.dom.main = true → s.mot.length = 8 →
    let x := s.axis a
    let pos : Int := s.axisPos a + (if x.dir then 1 else -1)
    let stepped (t : State) : Prop := t.rd (rMotPos a) = unsigned 32 pos ∧ t.out = s.out ++ (if s.scanDrives then [] else [.step a (x.dir != s.flag (rMotCfg a) 27)]) ∧
      ∀ b, b ≠ a.val → t.axis b = s.axis b
    (∀ r st, x.run = .trap r st → s.flag (rMotCfg a) 28 = false →
      (1 < r →
        let b := brakeDist x.v2 (s.vs2 a) (s.fld (rMotDec a) 0 31)
        let v := if r - 1 ≤ b then max (x.v2 - 2 * s.fld (rMotDec a) 0 31) (s.vs2 a)
          else if x.v2 < s.vm2 a then min (x.v2 + 2 * s.fld (rMotAcc a) 0 31) (s.vm2 a) else x.v2
        ∃ t, exec (.microstep a) s = .next t ∧ stepped t ∧ (t.axis a).run = .trap (r - 1) st ∧ (t.axis a).v2 = v ∧
          t.rd (rMotIvl a) = interval v % 2 ^ 32 ∧ t = { s with regs := t.regs, mot := t.mot, out := t.out }) ∧
      (r = 1 → ∃ t, exec (.microstep a) s = .next t ∧ stepped t ∧ t.atRest a = true ∧
        (∀ pk, x.pk = some pk → s.awaits pk = true → t.answers pk 0 0 (unsigned 32 pos)) ∧
        t.rd (rMotRemain a) = unsigned 32 (if x.dir then (x.left : Int) else -(x.left : Int)) ∧ t.mem = s.mem)) ∧
    (∀ r up dn st al f, x.run = .jerk r up dn st al f → s.flag (rMotCfg a) 28 = false → 1 < r →
      ∃ t, exec (.microstep a) s = .next t ∧ stepped t ∧ (∃ u d l g, (t.axis a).run = .jerk (r - 1) u d st l g) ∧
        t = { s with regs := t.regs, mot := t.mot, out := t.out }) ∧
    (x.run = .rest → exec (.microstep a) s = .next s) ∧
    (∀ fwd ticks segs fast, x.run = .interp segs fast false → segs ≠ [] ∨ s.limitIn a fwd = false →
      ∃ t, exec (.coarseStepEdge a fwd ticks) s = .next t ∧
        (∃ sg, (t.axis a).run = .interp sg (sumN (segs.map (·.2))) false ∧
          sumN (sg.map (·.2)) = sumN (segs.map (·.2)) + s.fld (rMotCfg a) 8 8 + 1 ∧ sg.getLast?.map (·.1) = some fwd) ∧
        t = { s.marked t with regs := t.regs, mot := t.mot } ∧ ∀ b, b ≠ a.val → t.axis b = s.axis b) ∧
    (s.flag (rMotCfg a) 28 = true → x.lagN ≠ 0 → ∃ t, exec (.loadfbPulse a) s = .next t ∧ t.axis a = { x with lagN := x.lagN - 1 } ∧
      t.fld (rMotStat a) 8 8 = min 255 (x.lagN - 1) ∧ t = { s with regs := t.regs, mot := t.mot } ∧ ∀ o, o ≠ rMotStat a → t.rd o = s.rd o) ∧
    (x.run = .rest → ∃ t, exec (.holddlyExpiry a) s = .next t ∧ t.axis a = { x with held := true } ∧
      t.axisCode a = s.fld (rMotCur a) 24 8 ∧ t = { s with mot := t.mot }) ∧
    (∀ positive : Bool, let k := if positive then 25 else 24
      (∃ t, exec (.limitActive a positive false) s = .next t ∧ t.flag (rMotStat a) k = false ∧ t = { s with regs := t.regs } ∧
        ∀ o, o ≠ rMotStat a → t.rd o = s.rd o) ∧
      (s.flag (rMotStat a) k = false → s.movingIn a positive = false → s.raisesQuietly (srcMot 1 a) = true →
        ∃ t, exec (.limitActive a positive true) s = .next t ∧ t.flag (rMotStat a) k = true ∧ (t.recOf (srcMot 1 a)).state = 1 ∧
          t.rd (rMotCnt 1) = satAdd 0xFFFFFFFF (s.rd (rMotCnt 1)) 1 ∧ t = { s.marked t with regs := t.regs, flt := t.flt, out := t.out }) ∧
      (s.flag (rMotStat a) k = false → s.movingIn a positive = true → s.mayRaise (srcMot 1 a) = true →
        ∃ t, exec (.limitActive a positive true) s = .next t ∧ t.atRest a = true ∧ (t.recOf (srcMot 1 a)).state = 1 ∧ t.mem = s.mem)) ∧
    (∀ m n up al f, x.run = .homeSeek m n up al f → m < 2 →
      let b := if s.flag (rMotCfg a) 29 then x.table.length else brakeDist x.v2 (s.vs2 a) (s.fld (rMotDec a) 0 31)
      0 < b → ∃ t, exec (.homeEdge a true) s = .next t ∧ t.flag (rMotStat a) 23 = true ∧ (t.axis a).run = .homeBrake m b ∧ t = { s with regs := t.regs, mot := t.mot } ∧
        ∀ o, o ≠ rMotStat a → t.rd o = s.rd o) ∧
    (∀ m r, x.run = .homeBrake m r → ∃ t, exec (.homeEdge a false) s = .next t ∧ t.flag (rMotStat a) 23 = false ∧
      t.axis a = { x with home := s.axisPos a } ∧ t = { s with regs := t.regs, mot := t.mot } ∧ ∀ o, o ≠ rMotStat a → t.rd o = s.rd o) ∧
    (∀ r, x.run = .homeBrake 0 r → r ≤ 1 → s.flag (rMotStat a) 23 = false → s.flag (rMotCfg a) 28 = false →
      ∃ t, exec (.microstep a) s = .next t ∧ t.atRest a = true ∧ t.rd (rMotPos a) = unsigned 32 (s.axisPos a - 1 - x.home) ∧
        t.flag (rMotStat a) 26 = true ∧ t.flag (rMotStat a) 27 = false ∧ (∀ pk, x.pk = some pk → s.awaits pk = true → t.answers pk 0 0 0) ∧
        t.mem = s.mem)

/-- Heaters (R317 to R321): HEATER_SET and FX_HEAT start a zone that has a sensor, supply and timer, or stop it; a period without a bad sensor or
temperature regulates by the loop, and one with either forces the output and the integrator to 0; a PWM period takes the duty in force.
Completion: under these conditions on the state and the operands alone, exec ANSWERS a next state, of its own effect, for heaterSet,
fxHeat, heaterControlPeriod, pwmPeriod. -/
def Obligations.HeatersRegulate : Prop :=
  ∀ (s : State), s.Inv → s.thm.length = 6 →
    (∀ pk, s.awaits pk = true →
      let z := pkU pk 0x20 1
      let does (i : Instr) : Prop :=
        (pkU pk 0x24 1 = 0 → ∃ t, exec i s = .next t ∧ t.answers pk 0 0 0 ∧ t.zoneRun z = false ∧ t.fld (rThmSp z) 0 16 = pkU pk 0x22 2 ∧
          (t.zone z).high = 0 ∧ t = { s.marked t with cmd := t.cmd, regs := t.regs, thm := t.thm, flt := t.flt, out := t.out }) ∧
        (pkU pk 0x24 1 = 1 → s.fld (rThmCfg z) 0 5 < 24 → (∀ n, s.zoneRail z = some n → s.railPg n = true) →
          (s.takeZoneTimer 2 z).isSome = true → ∃ t, exec i s = .next t ∧ t.answers pk 0 0 0 ∧ t.zoneRun z = true ∧
          t.fld (rThmSp z) 0 16 = pkU pk 0x22 2 ∧ (s.zoneRun z = false → (t.zone z).i = 0 ∧ t.fld (rThmStat z) 30 2 = 1) ∧
          t = { s with cmd := t.cmd, regs := t.regs, thm := t.thm })
      (s.mayDecide pk ⟨0x62, fn01, modesRun, fHeaterSet⟩ = true → does (.heaterSet pk)) ∧
      (s.mayDecide pk (fxSpec 0x89 fHeaterSet) = true → does (.fxHeat pk))) ∧
    (∀ z : Fin 6, s.dom.main = true → s.zoneRun z = true → (s.zone z).count ≠ 0 →
      let x := s.zone z
      let c := s.zoneTemp z (roundHalfEven x.sum x.count).toNat
      let hot := decide (signed 16 (s.fld (rThmSp z) 16 16) < c)
      let r := heaterLoop (signed 16 (s.fld (rThmSp z) 0 16)) c x.i (s.fld (rThmGain z) 16 16) (s.fld (rThmGain z) 0 16) (s.fld (rThmOut z) 16 16)
      (x.sense = false → hot = false → ∃ t, exec (.heaterControlPeriod z) s = .next t ∧ (t.zone z).i = r.1 ∧ (t.zone z).duty = r.2.1 ∧
        (t.zone z).sum = 0 ∧ (t.zone z).count = 0 ∧ t.fld (rThmStat z) 0 16 = unsigned 16 c ∧ t.flag (rThmStat z) 27 = r.2.2 ∧
        t.flag (rThmStat z) 28 = false ∧ t.flag (rThmStat z) 29 = false ∧
        t = { s with regs := t.regs, thm := t.thm, flt := t.flt, out := t.out } ∧
        ∀ o, o ≠ rThmStat z → o ≠ rThmDuty z → t.rd o = s.rd o) ∧
      (x.sense = true ∨ hot = true → ∃ t, exec (.heaterControlPeriod z) s = .next t ∧ (t.zone z).i = 0 ∧ (t.zone z).duty = 0 ∧
        (t.zone z).high = 0 ∧ t.mem = s.mem)) ∧
    (∀ z : Fin 6, s.dom.main = true →
      let d := if s.zoneRun z && decide (s.seqPhase < 2) then (s.zone z).duty else 0
      ∃ t, exec (.pwmPeriod z) s = .next t ∧ t.fld (rThmDuty z) 0 16 = d % 65536 ∧
        (t.zone z).high = (if s.zoneSupplied z then (shrRound ((d * s.pwmPeriod z : Nat) : Int) 16).toNat else 0) ∧
        t = { s with regs := t.regs, thm := t.thm } ∧ ∀ o, o ≠ rThmDuty z → t.rd o = s.rd o)

/-- A RUN_SYNC step into ARRAY, SCAN or CHECK, or a stripe start, fails validation while any enabled rail is not good (R306), or while SHOT or the
generator of the output port is coasting or has not yet locked (R278): the step opens invalid, and the part does not release the line for it. In
reset the part takes part in no step (R18). -/
def Obligations.StepsFailWithoutRailsAndClocks : Prop :=
  ∀ (s : State) (c : StepCmd), s.dom.main = true → s.dom.resetting ≠ 2 → s.mode ≠ 0 → s.mode ≠ 5 → earliest s.run.queue = some c → s.run.cur = none →
    c.handle ≠ 0 ∨ c.target ∈ [2, 3, 4] →
    (∃ n, n < 24 ∧ s.railUsed n = true ∧ s.railGood n = false) ∨
      (∃ g, (g = 5 ∨ (g = 3 ∧ s.scnPort = false)) ∧ (s.clkState g = 3 ∨ s.clkState g < 2)) →
    let fails (i : Instr) : Prop := ∃ t o, exec i s = .next t ∧ t.run.cur = some o ∧ o.cmd = some c ∧ o.phase = .invalid ∧ o.detail ≠ 0 ∧
      t.run.pull = true ∧ t.run.line = false ∧ c ∉ t.run.queue ∧ t.lay = s.lay ∧ t.mode = s.mode ∧ exec .armDone t = .next t ∧
      exec .armedEdge t = .next t
    fails .tOpenReached ∧ (c.tOpen ≤ s.now40 + 1000000 * 2 ^ 40 → fails .runSyncFall)

/-- FAULT_N (R336): while the always-on domain is powered, it is low exactly while a record of effective severity 1 or above is uncleared, in
every mode; and it is released otherwise. -/
def Obligations.FaultNFollowsTheRecords : Prop :=
  ∀ (s : State), s.dom.aon = true → (s.faultNLow = true ↔ ∃ r ∈ s.flt.recs, r.state ≠ 0 ∧ 1 ≤ r.eff)

/-- A line of 512·M pixels is split into M plane-lines (R109): entry n of plane-line φ is T of pixel column n·M + φ, and at M = 1 the single
plane-line is the line. -/
def Obligations.PlaneLinesTakeEveryMthColumn : Prop :=
  ∀ (m : Nat) (ts : List Nat), 1 ≤ m → ts.length = 512 * m →
    (∀ ph, ph < m → (planeEntries m ph ts).length = 512 ∧ ∀ n, n < 512 → (planeEntries m ph ts)[n]? = ts[n * m + ph]?) ∧
    (∀ i, i < 512 * m → ∃ ph n, ph < m ∧ n < 512 ∧ i = n * m + ph ∧ (planeEntries m ph ts)[n]? = ts[i]?) ∧
    (m = 1 → planeEntries m 0 ts = ts)
end

