-- ==== Sys2Proof/Laws/State.lean ====
section
/-! SUPPORT. What each elementary operation leaves as it was: one lemma per field and operation. -/

namespace Sys2Proof.Machine

set_option Elab.async false
set_option linter.all false

/-! ### `wr` changes `regs` alone -/

@[simp] theorem State.wr_pending (s : State) (off v : Nat) : (s.wr off v).pending = s.pending := rfl
@[simp] theorem State.wr_applied (s : State) (off v : Nat) : (s.wr off v).applied = s.applied := rfl
@[simp] theorem State.wr_mem (s : State) (off v : Nat) : (s.wr off v).mem = s.mem := rfl
@[simp] theorem State.wr_hostMem (s : State) (off v : Nat) : (s.wr off v).hostMem = s.hostMem := rfl
@[simp] theorem State.wr_out (s : State) (off v : Nat) : (s.wr off v).out = s.out := rfl
@[simp] theorem State.wr_free (s : State) (off v : Nat) : (s.wr off v).free = s.free := rfl
@[simp] theorem State.wr_dom (s : State) (off v : Nat) : (s.wr off v).dom = s.dom := rfl
@[simp] theorem State.wr_cmd (s : State) (off v : Nat) : (s.wr off v).cmd = s.cmd := rfl
@[simp] theorem State.wr_run (s : State) (off v : Nat) : (s.wr off v).run = s.run := rfl
@[simp] theorem State.wr_net (s : State) (off v : Nat) : (s.wr off v).net = s.net := rfl
@[simp] theorem State.wr_flt (s : State) (off v : Nat) : (s.wr off v).flt = s.flt := rfl
@[simp] theorem State.wr_snap (s : State) (off v : Nat) : (s.wr off v).snap = s.snap := rfl
@[simp] theorem State.wr_tim (s : State) (off v : Nat) : (s.wr off v).tim = s.tim := rfl
@[simp] theorem State.wr_clk (s : State) (off v : Nat) : (s.wr off v).clk = s.clk := rfl
@[simp] theorem State.wr_lay (s : State) (off v : Nat) : (s.wr off v).lay = s.lay := rfl
@[simp] theorem State.wr_foot (s : State) (off v : Nat) : (s.wr off v).foot = s.foot := rfl
@[simp] theorem State.wr_dose (s : State) (off v : Nat) : (s.wr off v).dose = s.dose := rfl
@[simp] theorem State.wr_gen (s : State) (off v : Nat) : (s.wr off v).gen = s.gen := rfl
@[simp] theorem State.wr_esc (s : State) (off v : Nat) : (s.wr off v).esc = s.esc := rfl
@[simp] theorem State.wr_scan (s : State) (off v : Nat) : (s.wr off v).scan = s.scan := rfl
@[simp] theorem State.wr_bal (s : State) (off v : Nat) : (s.wr off v).bal = s.bal := rfl
@[simp] theorem State.wr_dma (s : State) (off v : Nat) : (s.wr off v).dma = s.dma := rfl
@[simp] theorem State.wr_rle (s : State) (off v : Nat) : (s.wr off v).rle = s.rle := rfl
@[simp] theorem State.wr_ddr (s : State) (off v : Nat) : (s.wr off v).ddr = s.ddr := rfl
@[simp] theorem State.wr_mot (s : State) (off v : Nat) : (s.wr off v).mot = s.mot := rfl
@[simp] theorem State.wr_pwr (s : State) (off v : Nat) : (s.wr off v).pwr = s.pwr := rfl
@[simp] theorem State.wr_thm (s : State) (off v : Nat) : (s.wr off v).thm = s.thm := rfl
@[simp] theorem State.wr_mbx (s : State) (off v : Nat) : (s.wr off v).mbx = s.mbx := rfl
@[simp] theorem State.wr_dbg (s : State) (off v : Nat) : (s.wr off v).dbg = s.dbg := rfl

/-! ### `setFld` changes `regs` alone -/

@[simp] theorem State.setFld_pending (s : State) (off lo n v : Nat) : (s.setFld off lo n v).pending = s.pending := rfl
@[simp] theorem State.setFld_applied (s : State) (off lo n v : Nat) : (s.setFld off lo n v).applied = s.applied := rfl
@[simp] theorem State.setFld_mem (s : State) (off lo n v : Nat) : (s.setFld off lo n v).mem = s.mem := rfl
@[simp] theorem State.setFld_hostMem (s : State) (off lo n v : Nat) : (s.setFld off lo n v).hostMem = s.hostMem := rfl
@[simp] theorem State.setFld_out (s : State) (off lo n v : Nat) : (s.setFld off lo n v).out = s.out := rfl
@[simp] theorem State.setFld_free (s : State) (off lo n v : Nat) : (s.setFld off lo n v).free = s.free := rfl
@[simp] theorem State.setFld_dom (s : State) (off lo n v : Nat) : (s.setFld off lo n v).dom = s.dom := rfl
@[simp] theorem State.setFld_cmd (s : State) (off lo n v : Nat) : (s.setFld off lo n v).cmd = s.cmd := rfl
@[simp] theorem State.setFld_run (s : State) (off lo n v : Nat) : (s.setFld off lo n v).run = s.run := rfl
@[simp] theorem State.setFld_net (s : State) (off lo n v : Nat) : (s.setFld off lo n v).net = s.net := rfl
@[simp] theorem State.setFld_flt (s : State) (off lo n v : Nat) : (s.setFld off lo n v).flt = s.flt := rfl
@[simp] theorem State.setFld_snap (s : State) (off lo n v : Nat) : (s.setFld off lo n v).snap = s.snap := rfl
@[simp] theorem State.setFld_tim (s : State) (off lo n v : Nat) : (s.setFld off lo n v).tim = s.tim := rfl
@[simp] theorem State.setFld_clk (s : State) (off lo n v : Nat) : (s.setFld off lo n v).clk = s.clk := rfl
@[simp] theorem State.setFld_lay (s : State) (off lo n v : Nat) : (s.setFld off lo n v).lay = s.lay := rfl
@[simp] theorem State.setFld_foot (s : State) (off lo n v : Nat) : (s.setFld off lo n v).foot = s.foot := rfl
@[simp] theorem State.setFld_dose (s : State) (off lo n v : Nat) : (s.setFld off lo n v).dose = s.dose := rfl
@[simp] theorem State.setFld_gen (s : State) (off lo n v : Nat) : (s.setFld off lo n v).gen = s.gen := rfl
@[simp] theorem State.setFld_esc (s : State) (off lo n v : Nat) : (s.setFld off lo n v).esc = s.esc := rfl
@[simp] theorem State.setFld_scan (s : State) (off lo n v : Nat) : (s.setFld off lo n v).scan = s.scan := rfl
@[simp] theorem State.setFld_bal (s : State) (off lo n v : Nat) : (s.setFld off lo n v).bal = s.bal := rfl
@[simp] theorem State.setFld_dma (s : State) (off lo n v : Nat) : (s.setFld off lo n v).dma = s.dma := rfl
@[simp] theorem State.setFld_rle (s : State) (off lo n v : Nat) : (s.setFld off lo n v).rle = s.rle := rfl
@[simp] theorem State.setFld_ddr (s : State) (off lo n v : Nat) : (s.setFld off lo n v).ddr = s.ddr := rfl
@[simp] theorem State.setFld_mot (s : State) (off lo n v : Nat) : (s.setFld off lo n v).mot = s.mot := rfl
@[simp] theorem State.setFld_pwr (s : State) (off lo n v : Nat) : (s.setFld off lo n v).pwr = s.pwr := rfl
@[simp] theorem State.setFld_thm (s : State) (off lo n v : Nat) : (s.setFld off lo n v).thm = s.thm := rfl
@[simp] theorem State.setFld_mbx (s : State) (off lo n v : Nat) : (s.setFld off lo n v).mbx = s.mbx := rfl
@[simp] theorem State.setFld_dbg (s : State) (off lo n v : Nat) : (s.setFld off lo n v).dbg = s.dbg := rfl

/-! ### `setFlag` changes `regs` alone -/

@[simp] theorem State.setFlag_pending (s : State) (off k : Nat) (b : Bool) : (s.setFlag off k b).pending = s.pending := rfl
@[simp] theorem State.setFlag_applied (s : State) (off k : Nat) (b : Bool) : (s.setFlag off k b).applied = s.applied := rfl
@[simp] theorem State.setFlag_mem (s : State) (off k : Nat) (b : Bool) : (s.setFlag off k b).mem = s.mem := rfl
@[simp] theorem State.setFlag_hostMem (s : State) (off k : Nat) (b : Bool) : (s.setFlag off k b).hostMem = s.hostMem := rfl
@[simp] theorem State.setFlag_out (s : State) (off k : Nat) (b : Bool) : (s.setFlag off k b).out = s.out := rfl
@[simp] theorem State.setFlag_free (s : State) (off k : Nat) (b : Bool) : (s.setFlag off k b).free = s.free := rfl
@[simp] theorem State.setFlag_dom (s : State) (off k : Nat) (b : Bool) : (s.setFlag off k b).dom = s.dom := rfl
@[simp] theorem State.setFlag_cmd (s : State) (off k : Nat) (b : Bool) : (s.setFlag off k b).cmd = s.cmd := rfl
@[simp] theorem State.setFlag_run (s : State) (off k : Nat) (b : Bool) : (s.setFlag off k b).run = s.run := rfl
@[simp] theorem State.setFlag_net (s : State) (off k : Nat) (b : Bool) : (s.setFlag off k b).net = s.net := rfl
@[simp] theorem State.setFlag_flt (s : State) (off k : Nat) (b : Bool) : (s.setFlag off k b).flt = s.flt := rfl
@[simp] theorem State.setFlag_snap (s : State) (off k : Nat) (b : Bool) : (s.setFlag off k b).snap = s.snap := rfl
@[simp] theorem State.setFlag_tim (s : State) (off k : Nat) (b : Bool) : (s.setFlag off k b).tim = s.tim := rfl
@[simp] theorem State.setFlag_clk (s : State) (off k : Nat) (b : Bool) : (s.setFlag off k b).clk = s.clk := rfl
@[simp] theorem State.setFlag_lay (s : State) (off k : Nat) (b : Bool) : (s.setFlag off k b).lay = s.lay := rfl
@[simp] theorem State.setFlag_foot (s : State) (off k : Nat) (b : Bool) : (s.setFlag off k b).foot = s.foot := rfl
@[simp] theorem State.setFlag_dose (s : State) (off k : Nat) (b : Bool) : (s.setFlag off k b).dose = s.dose := rfl
@[simp] theorem State.setFlag_gen (s : State) (off k : Nat) (b : Bool) : (s.setFlag off k b).gen = s.gen := rfl
@[simp] theorem State.setFlag_esc (s : State) (off k : Nat) (b : Bool) : (s.setFlag off k b).esc = s.esc := rfl
@[simp] theorem State.setFlag_scan (s : State) (off k : Nat) (b : Bool) : (s.setFlag off k b).scan = s.scan := rfl
@[simp] theorem State.setFlag_bal (s : State) (off k : Nat) (b : Bool) : (s.setFlag off k b).bal = s.bal := rfl
@[simp] theorem State.setFlag_dma (s : State) (off k : Nat) (b : Bool) : (s.setFlag off k b).dma = s.dma := rfl
@[simp] theorem State.setFlag_rle (s : State) (off k : Nat) (b : Bool) : (s.setFlag off k b).rle = s.rle := rfl
@[simp] theorem State.setFlag_ddr (s : State) (off k : Nat) (b : Bool) : (s.setFlag off k b).ddr = s.ddr := rfl
@[simp] theorem State.setFlag_mot (s : State) (off k : Nat) (b : Bool) : (s.setFlag off k b).mot = s.mot := rfl
@[simp] theorem State.setFlag_pwr (s : State) (off k : Nat) (b : Bool) : (s.setFlag off k b).pwr = s.pwr := rfl
@[simp] theorem State.setFlag_thm (s : State) (off k : Nat) (b : Bool) : (s.setFlag off k b).thm = s.thm := rfl
@[simp] theorem State.setFlag_mbx (s : State) (off k : Nat) (b : Bool) : (s.setFlag off k b).mbx = s.mbx := rfl
@[simp] theorem State.setFlag_dbg (s : State) (off k : Nat) (b : Bool) : (s.setFlag off k b).dbg = s.dbg := rfl

/-! ### `hwSet` changes `clk.sets` alone -/

@[simp] theorem State.hwSet_regs (s : State) (off w n : Nat) : (s.hwSet off w n).regs = s.regs := rfl
@[simp] theorem State.hwSet_pending (s : State) (off w n : Nat) : (s.hwSet off w n).pending = s.pending := rfl
@[simp] theorem State.hwSet_applied (s : State) (off w n : Nat) : (s.hwSet off w n).applied = s.applied := rfl
@[simp] theorem State.hwSet_mem (s : State) (off w n : Nat) : (s.hwSet off w n).mem = s.mem := rfl
@[simp] theorem State.hwSet_hostMem (s : State) (off w n : Nat) : (s.hwSet off w n).hostMem = s.hostMem := rfl
@[simp] theorem State.hwSet_out (s : State) (off w n : Nat) : (s.hwSet off w n).out = s.out := rfl
@[simp] theorem State.hwSet_free (s : State) (off w n : Nat) : (s.hwSet off w n).free = s.free := rfl
@[simp] theorem State.hwSet_dom (s : State) (off w n : Nat) : (s.hwSet off w n).dom = s.dom := rfl
@[simp] theorem State.hwSet_cmd (s : State) (off w n : Nat) : (s.hwSet off w n).cmd = s.cmd := rfl
@[simp] theorem State.hwSet_run (s : State) (off w n : Nat) : (s.hwSet off w n).run = s.run := rfl
@[simp] theorem State.hwSet_net (s : State) (off w n : Nat) : (s.hwSet off w n).net = s.net := rfl
@[simp] theorem State.hwSet_flt (s : State) (off w n : Nat) : (s.hwSet off w n).flt = s.flt := rfl
@[simp] theorem State.hwSet_snap (s : State) (off w n : Nat) : (s.hwSet off w n).snap = s.snap := rfl
@[simp] theorem State.hwSet_tim (s : State) (off w n : Nat) : (s.hwSet off w n).tim = s.tim := rfl
@[simp] theorem State.hwSet_lay (s : State) (off w n : Nat) : (s.hwSet off w n).lay = s.lay := rfl
@[simp] theorem State.hwSet_foot (s : State) (off w n : Nat) : (s.hwSet off w n).foot = s.foot := rfl
@[simp] theorem State.hwSet_dose (s : State) (off w n : Nat) : (s.hwSet off w n).dose = s.dose := rfl
@[simp] theorem State.hwSet_gen (s : State) (off w n : Nat) : (s.hwSet off w n).gen = s.gen := rfl
@[simp] theorem State.hwSet_esc (s : State) (off w n : Nat) : (s.hwSet off w n).esc = s.esc := rfl
@[simp] theorem State.hwSet_scan (s : State) (off w n : Nat) : (s.hwSet off w n).scan = s.scan := rfl
@[simp] theorem State.hwSet_bal (s : State) (off w n : Nat) : (s.hwSet off w n).bal = s.bal := rfl
@[simp] theorem State.hwSet_dma (s : State) (off w n : Nat) : (s.hwSet off w n).dma = s.dma := rfl
@[simp] theorem State.hwSet_rle (s : State) (off w n : Nat) : (s.hwSet off w n).rle = s.rle := rfl
@[simp] theorem State.hwSet_ddr (s : State) (off w n : Nat) : (s.hwSet off w n).ddr = s.ddr := rfl
@[simp] theorem State.hwSet_mot (s : State) (off w n : Nat) : (s.hwSet off w n).mot = s.mot := rfl
@[simp] theorem State.hwSet_pwr (s : State) (off w n : Nat) : (s.hwSet off w n).pwr = s.pwr := rfl
@[simp] theorem State.hwSet_thm (s : State) (off w n : Nat) : (s.hwSet off w n).thm = s.thm := rfl
@[simp] theorem State.hwSet_mbx (s : State) (off w n : Nat) : (s.hwSet off w n).mbx = s.mbx := rfl
@[simp] theorem State.hwSet_dbg (s : State) (off w n : Nat) : (s.hwSet off w n).dbg = s.dbg := rfl

/-! ### `setW1c` changes `regs` and `clk.sets` alone -/

@[simp] theorem State.setW1c_pending (s : State) (off k : Nat) : (s.setW1c off k).pending = s.pending := rfl
@[simp] theorem State.setW1c_applied (s : State) (off k : Nat) : (s.setW1c off k).applied = s.applied := rfl
@[simp] theorem State.setW1c_mem (s : State) (off k : Nat) : (s.setW1c off k).mem = s.mem := rfl
@[simp] theorem State.setW1c_hostMem (s : State) (off k : Nat) : (s.setW1c off k).hostMem = s.hostMem := rfl
@[simp] theorem State.setW1c_out (s : State) (off k : Nat) : (s.setW1c off k).out = s.out := rfl
@[simp] theorem State.setW1c_free (s : State) (off k : Nat) : (s.setW1c off k).free = s.free := rfl
@[simp] theorem State.setW1c_dom (s : State) (off k : Nat) : (s.setW1c off k).dom = s.dom := rfl
@[simp] theorem State.setW1c_cmd (s : State) (off k : Nat) : (s.setW1c off k).cmd = s.cmd := rfl
@[simp] theorem State.setW1c_run (s : State) (off k : Nat) : (s.setW1c off k).run = s.run := rfl
@[simp] theorem State.setW1c_net (s : State) (off k : Nat) : (s.setW1c off k).net = s.net := rfl
@[simp] theorem State.setW1c_flt (s : State) (off k : Nat) : (s.setW1c off k).flt = s.flt := rfl
@[simp] theorem State.setW1c_snap (s : State) (off k : Nat) : (s.setW1c off k).snap = s.snap := rfl
@[simp] theorem State.setW1c_tim (s : State) (off k : Nat) : (s.setW1c off k).tim = s.tim := rfl
@[simp] theorem State.setW1c_lay (s : State) (off k : Nat) : (s.setW1c off k).lay = s.lay := rfl
@[simp] theorem State.setW1c_foot (s : State) (off k : Nat) : (s.setW1c off k).foot = s.foot := rfl
@[simp] theorem State.setW1c_dose (s : State) (off k : Nat) : (s.setW1c off k).dose = s.dose := rfl
@[simp] theorem State.setW1c_gen (s : State) (off k : Nat) : (s.setW1c off k).gen = s.gen := rfl
@[simp] theorem State.setW1c_esc (s : State) (off k : Nat) : (s.setW1c off k).esc = s.esc := rfl
@[simp] theorem State.setW1c_scan (s : State) (off k : Nat) : (s.setW1c off k).scan = s.scan := rfl
@[simp] theorem State.setW1c_bal (s : State) (off k : Nat) : (s.setW1c off k).bal = s.bal := rfl
@[simp] theorem State.setW1c_dma (s : State) (off k : Nat) : (s.setW1c off k).dma = s.dma := rfl
@[simp] theorem State.setW1c_rle (s : State) (off k : Nat) : (s.setW1c off k).rle = s.rle := rfl
@[simp] theorem State.setW1c_ddr (s : State) (off k : Nat) : (s.setW1c off k).ddr = s.ddr := rfl
@[simp] theorem State.setW1c_mot (s : State) (off k : Nat) : (s.setW1c off k).mot = s.mot := rfl
@[simp] theorem State.setW1c_pwr (s : State) (off k : Nat) : (s.setW1c off k).pwr = s.pwr := rfl
@[simp] theorem State.setW1c_thm (s : State) (off k : Nat) : (s.setW1c off k).thm = s.thm := rfl
@[simp] theorem State.setW1c_mbx (s : State) (off k : Nat) : (s.setW1c off k).mbx = s.mbx := rfl
@[simp] theorem State.setW1c_dbg (s : State) (off k : Nat) : (s.setW1c off k).dbg = s.dbg := rfl

/-! ### `countIn` changes `regs` and `clk.sets` alone -/

@[simp] theorem State.countIn_pending (s : State) (top off n : Nat) : (s.countIn top off n).pending = s.pending := rfl
@[simp] theorem State.countIn_applied (s : State) (top off n : Nat) : (s.countIn top off n).applied = s.applied := rfl
@[simp] theorem State.countIn_mem (s : State) (top off n : Nat) : (s.countIn top off n).mem = s.mem := rfl
@[simp] theorem State.countIn_hostMem (s : State) (top off n : Nat) : (s.countIn top off n).hostMem = s.hostMem := rfl
@[simp] theorem State.countIn_out (s : State) (top off n : Nat) : (s.countIn top off n).out = s.out := rfl
@[simp] theorem State.countIn_free (s : State) (top off n : Nat) : (s.countIn top off n).free = s.free := rfl
@[simp] theorem State.countIn_dom (s : State) (top off n : Nat) : (s.countIn top off n).dom = s.dom := rfl
@[simp] theorem State.countIn_cmd (s : State) (top off n : Nat) : (s.countIn top off n).cmd = s.cmd := rfl
@[simp] theorem State.countIn_run (s : State) (top off n : Nat) : (s.countIn top off n).run = s.run := rfl
@[simp] theorem State.countIn_net (s : State) (top off n : Nat) : (s.countIn top off n).net = s.net := rfl
@[simp] theorem State.countIn_flt (s : State) (top off n : Nat) : (s.countIn top off n).flt = s.flt := rfl
@[simp] theorem State.countIn_snap (s : State) (top off n : Nat) : (s.countIn top off n).snap = s.snap := rfl
@[simp] theorem State.countIn_tim (s : State) (top off n : Nat) : (s.countIn top off n).tim = s.tim := rfl
@[simp] theorem State.countIn_lay (s : State) (top off n : Nat) : (s.countIn top off n).lay = s.lay := rfl
@[simp] theorem State.countIn_foot (s : State) (top off n : Nat) : (s.countIn top off n).foot = s.foot := rfl
@[simp] theorem State.countIn_dose (s : State) (top off n : Nat) : (s.countIn top off n).dose = s.dose := rfl
@[simp] theorem State.countIn_gen (s : State) (top off n : Nat) : (s.countIn top off n).gen = s.gen := rfl
@[simp] theorem State.countIn_esc (s : State) (top off n : Nat) : (s.countIn top off n).esc = s.esc := rfl
@[simp] theorem State.countIn_scan (s : State) (top off n : Nat) : (s.countIn top off n).scan = s.scan := rfl
@[simp] theorem State.countIn_bal (s : State) (top off n : Nat) : (s.countIn top off n).bal = s.bal := rfl
@[simp] theorem State.countIn_dma (s : State) (top off n : Nat) : (s.countIn top off n).dma = s.dma := rfl
@[simp] theorem State.countIn_rle (s : State) (top off n : Nat) : (s.countIn top off n).rle = s.rle := rfl
@[simp] theorem State.countIn_ddr (s : State) (top off n : Nat) : (s.countIn top off n).ddr = s.ddr := rfl
@[simp] theorem State.countIn_mot (s : State) (top off n : Nat) : (s.countIn top off n).mot = s.mot := rfl
@[simp] theorem State.countIn_pwr (s : State) (top off n : Nat) : (s.countIn top off n).pwr = s.pwr := rfl
@[simp] theorem State.countIn_thm (s : State) (top off n : Nat) : (s.countIn top off n).thm = s.thm := rfl
@[simp] theorem State.countIn_mbx (s : State) (top off n : Nat) : (s.countIn top off n).mbx = s.mbx := rfl
@[simp] theorem State.countIn_dbg (s : State) (top off n : Nat) : (s.countIn top off n).dbg = s.dbg := rfl

/-! ### `count` changes `regs` and `clk.sets` alone -/

@[simp] theorem State.count_pending (s : State) (off n : Nat) : (s.count off n).pending = s.pending := rfl
@[simp] theorem State.count_applied (s : State) (off n : Nat) : (s.count off n).applied = s.applied := rfl
@[simp] theorem State.count_mem (s : State) (off n : Nat) : (s.count off n).mem = s.mem := rfl
@[simp] theorem State.count_hostMem (s : State) (off n : Nat) : (s.count off n).hostMem = s.hostMem := rfl
@[simp] theorem State.count_out (s : State) (off n : Nat) : (s.count off n).out = s.out := rfl
@[simp] theorem State.count_free (s : State) (off n : Nat) : (s.count off n).free = s.free := rfl
@[simp] theorem State.count_dom (s : State) (off n : Nat) : (s.count off n).dom = s.dom := rfl
@[simp] theorem State.count_cmd (s : State) (off n : Nat) : (s.count off n).cmd = s.cmd := rfl
@[simp] theorem State.count_run (s : State) (off n : Nat) : (s.count off n).run = s.run := rfl
@[simp] theorem State.count_net (s : State) (off n : Nat) : (s.count off n).net = s.net := rfl
@[simp] theorem State.count_flt (s : State) (off n : Nat) : (s.count off n).flt = s.flt := rfl
@[simp] theorem State.count_snap (s : State) (off n : Nat) : (s.count off n).snap = s.snap := rfl
@[simp] theorem State.count_tim (s : State) (off n : Nat) : (s.count off n).tim = s.tim := rfl
@[simp] theorem State.count_lay (s : State) (off n : Nat) : (s.count off n).lay = s.lay := rfl
@[simp] theorem State.count_foot (s : State) (off n : Nat) : (s.count off n).foot = s.foot := rfl
@[simp] theorem State.count_dose (s : State) (off n : Nat) : (s.count off n).dose = s.dose := rfl
@[simp] theorem State.count_gen (s : State) (off n : Nat) : (s.count off n).gen = s.gen := rfl
@[simp] theorem State.count_esc (s : State) (off n : Nat) : (s.count off n).esc = s.esc := rfl
@[simp] theorem State.count_scan (s : State) (off n : Nat) : (s.count off n).scan = s.scan := rfl
@[simp] theorem State.count_bal (s : State) (off n : Nat) : (s.count off n).bal = s.bal := rfl
@[simp] theorem State.count_dma (s : State) (off n : Nat) : (s.count off n).dma = s.dma := rfl
@[simp] theorem State.count_rle (s : State) (off n : Nat) : (s.count off n).rle = s.rle := rfl
@[simp] theorem State.count_ddr (s : State) (off n : Nat) : (s.count off n).ddr = s.ddr := rfl
@[simp] theorem State.count_mot (s : State) (off n : Nat) : (s.count off n).mot = s.mot := rfl
@[simp] theorem State.count_pwr (s : State) (off n : Nat) : (s.count off n).pwr = s.pwr := rfl
@[simp] theorem State.count_thm (s : State) (off n : Nat) : (s.count off n).thm = s.thm := rfl
@[simp] theorem State.count_mbx (s : State) (off n : Nat) : (s.count off n).mbx = s.mbx := rfl
@[simp] theorem State.count_dbg (s : State) (off n : Nat) : (s.count off n).dbg = s.dbg := rfl

/-! ### `emit` changes `out` alone -/

@[simp] theorem State.emit_pending (s : State) (o : Out) : (s.emit o).pending = s.pending := rfl
@[simp] theorem State.emit_regs (s : State) (o : Out) : (s.emit o).regs = s.regs := rfl
@[simp] theorem State.emit_applied (s : State) (o : Out) : (s.emit o).applied = s.applied := rfl
@[simp] theorem State.emit_mem (s : State) (o : Out) : (s.emit o).mem = s.mem := rfl
@[simp] theorem State.emit_hostMem (s : State) (o : Out) : (s.emit o).hostMem = s.hostMem := rfl
@[simp] theorem State.emit_free (s : State) (o : Out) : (s.emit o).free = s.free := rfl
@[simp] theorem State.emit_dom (s : State) (o : Out) : (s.emit o).dom = s.dom := rfl
@[simp] theorem State.emit_cmd (s : State) (o : Out) : (s.emit o).cmd = s.cmd := rfl
@[simp] theorem State.emit_run (s : State) (o : Out) : (s.emit o).run = s.run := rfl
@[simp] theorem State.emit_net (s : State) (o : Out) : (s.emit o).net = s.net := rfl
@[simp] theorem State.emit_flt (s : State) (o : Out) : (s.emit o).flt = s.flt := rfl
@[simp] theorem State.emit_snap (s : State) (o : Out) : (s.emit o).snap = s.snap := rfl
@[simp] theorem State.emit_tim (s : State) (o : Out) : (s.emit o).tim = s.tim := rfl
@[simp] theorem State.emit_clk (s : State) (o : Out) : (s.emit o).clk = s.clk := rfl
@[simp] theorem State.emit_lay (s : State) (o : Out) : (s.emit o).lay = s.lay := rfl
@[simp] theorem State.emit_foot (s : State) (o : Out) : (s.emit o).foot = s.foot := rfl
@[simp] theorem State.emit_dose (s : State) (o : Out) : (s.emit o).dose = s.dose := rfl
@[simp] theorem State.emit_gen (s : State) (o : Out) : (s.emit o).gen = s.gen := rfl
@[simp] theorem State.emit_esc (s : State) (o : Out) : (s.emit o).esc = s.esc := rfl
@[simp] theorem State.emit_scan (s : State) (o : Out) : (s.emit o).scan = s.scan := rfl
@[simp] theorem State.emit_bal (s : State) (o : Out) : (s.emit o).bal = s.bal := rfl
@[simp] theorem State.emit_dma (s : State) (o : Out) : (s.emit o).dma = s.dma := rfl
@[simp] theorem State.emit_rle (s : State) (o : Out) : (s.emit o).rle = s.rle := rfl
@[simp] theorem State.emit_ddr (s : State) (o : Out) : (s.emit o).ddr = s.ddr := rfl
@[simp] theorem State.emit_mot (s : State) (o : Out) : (s.emit o).mot = s.mot := rfl
@[simp] theorem State.emit_pwr (s : State) (o : Out) : (s.emit o).pwr = s.pwr := rfl
@[simp] theorem State.emit_thm (s : State) (o : Out) : (s.emit o).thm = s.thm := rfl
@[simp] theorem State.emit_mbx (s : State) (o : Out) : (s.emit o).mbx = s.mbx := rfl
@[simp] theorem State.emit_dbg (s : State) (o : Out) : (s.emit o).dbg = s.dbg := rfl

/-! ### `memWrite` changes `mem` alone -/

@[simp] theorem State.memWrite_pending (s : State) (a : Nat) (bs : List Byte) : (s.memWrite a bs).pending = s.pending := rfl
@[simp] theorem State.memWrite_regs (s : State) (a : Nat) (bs : List Byte) : (s.memWrite a bs).regs = s.regs := rfl
@[simp] theorem State.memWrite_applied (s : State) (a : Nat) (bs : List Byte) : (s.memWrite a bs).applied = s.applied := rfl
@[simp] theorem State.memWrite_hostMem (s : State) (a : Nat) (bs : List Byte) : (s.memWrite a bs).hostMem = s.hostMem := rfl
@[simp] theorem State.memWrite_out (s : State) (a : Nat) (bs : List Byte) : (s.memWrite a bs).out = s.out := rfl
@[simp] theorem State.memWrite_free (s : State) (a : Nat) (bs : List Byte) : (s.memWrite a bs).free = s.free := rfl
@[simp] theorem State.memWrite_dom (s : State) (a : Nat) (bs : List Byte) : (s.memWrite a bs).dom = s.dom := rfl
@[simp] theorem State.memWrite_cmd (s : State) (a : Nat) (bs : List Byte) : (s.memWrite a bs).cmd = s.cmd := rfl
@[simp] theorem State.memWrite_run (s : State) (a : Nat) (bs : List Byte) : (s.memWrite a bs).run = s.run := rfl
@[simp] theorem State.memWrite_net (s : State) (a : Nat) (bs : List Byte) : (s.memWrite a bs).net = s.net := rfl
@[simp] theorem State.memWrite_flt (s : State) (a : Nat) (bs : List Byte) : (s.memWrite a bs).flt = s.flt := rfl
@[simp] theorem State.memWrite_snap (s : State) (a : Nat) (bs : List Byte) : (s.memWrite a bs).snap = s.snap := rfl
@[simp] theorem State.memWrite_tim (s : State) (a : Nat) (bs : List Byte) : (s.memWrite a bs).tim = s.tim := rfl
@[simp] theorem State.memWrite_clk (s : State) (a : Nat) (bs : List Byte) : (s.memWrite a bs).clk = s.clk := rfl
@[simp] theorem State.memWrite_lay (s : State) (a : Nat) (bs : List Byte) : (s.memWrite a bs).lay = s.lay := rfl
@[simp] theorem State.memWrite_foot (s : State) (a : Nat) (bs : List Byte) : (s.memWrite a bs).foot = s.foot := rfl
@[simp] theorem State.memWrite_dose (s : State) (a : Nat) (bs : List Byte) : (s.memWrite a bs).dose = s.dose := rfl
@[simp] theorem State.memWrite_gen (s : State) (a : Nat) (bs : List Byte) : (s.memWrite a bs).gen = s.gen := rfl
@[simp] theorem State.memWrite_esc (s : State) (a : Nat) (bs : List Byte) : (s.memWrite a bs).esc = s.esc := rfl
@[simp] theorem State.memWrite_scan (s : State) (a : Nat) (bs : List Byte) : (s.memWrite a bs).scan = s.scan := rfl
@[simp] theorem State.memWrite_bal (s : State) (a : Nat) (bs : List Byte) : (s.memWrite a bs).bal = s.bal := rfl
@[simp] theorem State.memWrite_dma (s : State) (a : Nat) (bs : List Byte) : (s.memWrite a bs).dma = s.dma := rfl
@[simp] theorem State.memWrite_rle (s : State) (a : Nat) (bs : List Byte) : (s.memWrite a bs).rle = s.rle := rfl
@[simp] theorem State.memWrite_ddr (s : State) (a : Nat) (bs : List Byte) : (s.memWrite a bs).ddr = s.ddr := rfl
@[simp] theorem State.memWrite_mot (s : State) (a : Nat) (bs : List Byte) : (s.memWrite a bs).mot = s.mot := rfl
@[simp] theorem State.memWrite_pwr (s : State) (a : Nat) (bs : List Byte) : (s.memWrite a bs).pwr = s.pwr := rfl
@[simp] theorem State.memWrite_thm (s : State) (a : Nat) (bs : List Byte) : (s.memWrite a bs).thm = s.thm := rfl
@[simp] theorem State.memWrite_mbx (s : State) (a : Nat) (bs : List Byte) : (s.memWrite a bs).mbx = s.mbx := rfl
@[simp] theorem State.memWrite_dbg (s : State) (a : Nat) (bs : List Byte) : (s.memWrite a bs).dbg = s.dbg := rfl

/-! ### `hostWrite` changes `hostMem` alone -/

@[simp] theorem State.hostWrite_pending (s : State) (a : Nat) (bs : List Byte) : (s.hostWrite a bs).pending = s.pending := rfl
@[simp] theorem State.hostWrite_regs (s : State) (a : Nat) (bs : List Byte) : (s.hostWrite a bs).regs = s.regs := rfl
@[simp] theorem State.hostWrite_applied (s : State) (a : Nat) (bs : List Byte) : (s.hostWrite a bs).applied = s.applied := rfl
@[simp] theorem State.hostWrite_mem (s : State) (a : Nat) (bs : List Byte) : (s.hostWrite a bs).mem = s.mem := rfl
@[simp] theorem State.hostWrite_out (s : State) (a : Nat) (bs : List Byte) : (s.hostWrite a bs).out = s.out := rfl
@[simp] theorem State.hostWrite_free (s : State) (a : Nat) (bs : List Byte) : (s.hostWrite a bs).free = s.free := rfl
@[simp] theorem State.hostWrite_dom (s : State) (a : Nat) (bs : List Byte) : (s.hostWrite a bs).dom = s.dom := rfl
@[simp] theorem State.hostWrite_cmd (s : State) (a : Nat) (bs : List Byte) : (s.hostWrite a bs).cmd = s.cmd := rfl
@[simp] theorem State.hostWrite_run (s : State) (a : Nat) (bs : List Byte) : (s.hostWrite a bs).run = s.run := rfl
@[simp] theorem State.hostWrite_net (s : State) (a : Nat) (bs : List Byte) : (s.hostWrite a bs).net = s.net := rfl
@[simp] theorem State.hostWrite_flt (s : State) (a : Nat) (bs : List Byte) : (s.hostWrite a bs).flt = s.flt := rfl
@[simp] theorem State.hostWrite_snap (s : State) (a : Nat) (bs : List Byte) : (s.hostWrite a bs).snap = s.snap := rfl
@[simp] theorem State.hostWrite_tim (s : State) (a : Nat) (bs : List Byte) : (s.hostWrite a bs).tim = s.tim := rfl
@[simp] theorem State.hostWrite_clk (s : State) (a : Nat) (bs : List Byte) : (s.hostWrite a bs).clk = s.clk := rfl
@[simp] theorem State.hostWrite_lay (s : State) (a : Nat) (bs : List Byte) : (s.hostWrite a bs).lay = s.lay := rfl
@[simp] theorem State.hostWrite_foot (s : State) (a : Nat) (bs : List Byte) : (s.hostWrite a bs).foot = s.foot := rfl
@[simp] theorem State.hostWrite_dose (s : State) (a : Nat) (bs : List Byte) : (s.hostWrite a bs).dose = s.dose := rfl
@[simp] theorem State.hostWrite_gen (s : State) (a : Nat) (bs : List Byte) : (s.hostWrite a bs).gen = s.gen := rfl
@[simp] theorem State.hostWrite_esc (s : State) (a : Nat) (bs : List Byte) : (s.hostWrite a bs).esc = s.esc := rfl
@[simp] theorem State.hostWrite_scan (s : State) (a : Nat) (bs : List Byte) : (s.hostWrite a bs).scan = s.scan := rfl
@[simp] theorem State.hostWrite_bal (s : State) (a : Nat) (bs : List Byte) : (s.hostWrite a bs).bal = s.bal := rfl
@[simp] theorem State.hostWrite_dma (s : State) (a : Nat) (bs : List Byte) : (s.hostWrite a bs).dma = s.dma := rfl
@[simp] theorem State.hostWrite_rle (s : State) (a : Nat) (bs : List Byte) : (s.hostWrite a bs).rle = s.rle := rfl
@[simp] theorem State.hostWrite_ddr (s : State) (a : Nat) (bs : List Byte) : (s.hostWrite a bs).ddr = s.ddr := rfl
@[simp] theorem State.hostWrite_mot (s : State) (a : Nat) (bs : List Byte) : (s.hostWrite a bs).mot = s.mot := rfl
@[simp] theorem State.hostWrite_pwr (s : State) (a : Nat) (bs : List Byte) : (s.hostWrite a bs).pwr = s.pwr := rfl
@[simp] theorem State.hostWrite_thm (s : State) (a : Nat) (bs : List Byte) : (s.hostWrite a bs).thm = s.thm := rfl
@[simp] theorem State.hostWrite_mbx (s : State) (a : Nat) (bs : List Byte) : (s.hostWrite a bs).mbx = s.mbx := rfl
@[simp] theorem State.hostWrite_dbg (s : State) (a : Nat) (bs : List Byte) : (s.hostWrite a bs).dbg = s.dbg := rfl

/-! ### `tookFree` changes `free` alone -/

@[simp] theorem State.tookFree_pending (s : State) : (s.tookFree).pending = s.pending := rfl
@[simp] theorem State.tookFree_regs (s : State) : (s.tookFree).regs = s.regs := rfl
@[simp] theorem State.tookFree_applied (s : State) : (s.tookFree).applied = s.applied := rfl
@[simp] theorem State.tookFree_mem (s : State) : (s.tookFree).mem = s.mem := rfl
@[simp] theorem State.tookFree_hostMem (s : State) : (s.tookFree).hostMem = s.hostMem := rfl
@[simp] theorem State.tookFree_out (s : State) : (s.tookFree).out = s.out := rfl
@[simp] theorem State.tookFree_dom (s : State) : (s.tookFree).dom = s.dom := rfl
@[simp] theorem State.tookFree_cmd (s : State) : (s.tookFree).cmd = s.cmd := rfl
@[simp] theorem State.tookFree_run (s : State) : (s.tookFree).run = s.run := rfl
@[simp] theorem State.tookFree_net (s : State) : (s.tookFree).net = s.net := rfl
@[simp] theorem State.tookFree_flt (s : State) : (s.tookFree).flt = s.flt := rfl
@[simp] theorem State.tookFree_snap (s : State) : (s.tookFree).snap = s.snap := rfl
@[simp] theorem State.tookFree_tim (s : State) : (s.tookFree).tim = s.tim := rfl
@[simp] theorem State.tookFree_clk (s : State) : (s.tookFree).clk = s.clk := rfl
@[simp] theorem State.tookFree_lay (s : State) : (s.tookFree).lay = s.lay := rfl
@[simp] theorem State.tookFree_foot (s : State) : (s.tookFree).foot = s.foot := rfl
@[simp] theorem State.tookFree_dose (s : State) : (s.tookFree).dose = s.dose := rfl
@[simp] theorem State.tookFree_gen (s : State) : (s.tookFree).gen = s.gen := rfl
@[simp] theorem State.tookFree_esc (s : State) : (s.tookFree).esc = s.esc := rfl
@[simp] theorem State.tookFree_scan (s : State) : (s.tookFree).scan = s.scan := rfl
@[simp] theorem State.tookFree_bal (s : State) : (s.tookFree).bal = s.bal := rfl
@[simp] theorem State.tookFree_dma (s : State) : (s.tookFree).dma = s.dma := rfl
@[simp] theorem State.tookFree_rle (s : State) : (s.tookFree).rle = s.rle := rfl
@[simp] theorem State.tookFree_ddr (s : State) : (s.tookFree).ddr = s.ddr := rfl
@[simp] theorem State.tookFree_mot (s : State) : (s.tookFree).mot = s.mot := rfl
@[simp] theorem State.tookFree_pwr (s : State) : (s.tookFree).pwr = s.pwr := rfl
@[simp] theorem State.tookFree_thm (s : State) : (s.tookFree).thm = s.thm := rfl
@[simp] theorem State.tookFree_mbx (s : State) : (s.tookFree).mbx = s.mbx := rfl
@[simp] theorem State.tookFree_dbg (s : State) : (s.tookFree).dbg = s.dbg := rfl

/-! ### `charge` changes `flt` alone -/

@[simp] theorem State.charge_pending (s : State) (t : T16) : (s.charge t).pending = s.pending := rfl
@[simp] theorem State.charge_regs (s : State) (t : T16) : (s.charge t).regs = s.regs := rfl
@[simp] theorem State.charge_applied (s : State) (t : T16) : (s.charge t).applied = s.applied := rfl
@[simp] theorem State.charge_mem (s : State) (t : T16) : (s.charge t).mem = s.mem := rfl
@[simp] theorem State.charge_hostMem (s : State) (t : T16) : (s.charge t).hostMem = s.hostMem := rfl
@[simp] theorem State.charge_out (s : State) (t : T16) : (s.charge t).out = s.out := rfl
@[simp] theorem State.charge_free (s : State) (t : T16) : (s.charge t).free = s.free := rfl
@[simp] theorem State.charge_dom (s : State) (t : T16) : (s.charge t).dom = s.dom := rfl
@[simp] theorem State.charge_cmd (s : State) (t : T16) : (s.charge t).cmd = s.cmd := rfl
@[simp] theorem State.charge_run (s : State) (t : T16) : (s.charge t).run = s.run := rfl
@[simp] theorem State.charge_net (s : State) (t : T16) : (s.charge t).net = s.net := rfl
@[simp] theorem State.charge_snap (s : State) (t : T16) : (s.charge t).snap = s.snap := rfl
@[simp] theorem State.charge_tim (s : State) (t : T16) : (s.charge t).tim = s.tim := rfl
@[simp] theorem State.charge_clk (s : State) (t : T16) : (s.charge t).clk = s.clk := rfl
@[simp] theorem State.charge_lay (s : State) (t : T16) : (s.charge t).lay = s.lay := rfl
@[simp] theorem State.charge_foot (s : State) (t : T16) : (s.charge t).foot = s.foot := rfl
@[simp] theorem State.charge_dose (s : State) (t : T16) : (s.charge t).dose = s.dose := rfl
@[simp] theorem State.charge_gen (s : State) (t : T16) : (s.charge t).gen = s.gen := rfl
@[simp] theorem State.charge_esc (s : State) (t : T16) : (s.charge t).esc = s.esc := rfl
@[simp] theorem State.charge_scan (s : State) (t : T16) : (s.charge t).scan = s.scan := rfl
@[simp] theorem State.charge_bal (s : State) (t : T16) : (s.charge t).bal = s.bal := rfl
@[simp] theorem State.charge_dma (s : State) (t : T16) : (s.charge t).dma = s.dma := rfl
@[simp] theorem State.charge_rle (s : State) (t : T16) : (s.charge t).rle = s.rle := rfl
@[simp] theorem State.charge_ddr (s : State) (t : T16) : (s.charge t).ddr = s.ddr := rfl
@[simp] theorem State.charge_mot (s : State) (t : T16) : (s.charge t).mot = s.mot := rfl
@[simp] theorem State.charge_pwr (s : State) (t : T16) : (s.charge t).pwr = s.pwr := rfl
@[simp] theorem State.charge_thm (s : State) (t : T16) : (s.charge t).thm = s.thm := rfl
@[simp] theorem State.charge_mbx (s : State) (t : T16) : (s.charge t).mbx = s.mbx := rfl
@[simp] theorem State.charge_dbg (s : State) (t : T16) : (s.charge t).dbg = s.dbg := rfl

/-! ### `take` changes `cmd` alone -/

@[simp] theorem State.take_pending (s : State) (pk : Packet) : (s.take pk).pending = s.pending := rfl
@[simp] theorem State.take_regs (s : State) (pk : Packet) : (s.take pk).regs = s.regs := rfl
@[simp] theorem State.take_applied (s : State) (pk : Packet) : (s.take pk).applied = s.applied := rfl
@[simp] theorem State.take_mem (s : State) (pk : Packet) : (s.take pk).mem = s.mem := rfl
@[simp] theorem State.take_hostMem (s : State) (pk : Packet) : (s.take pk).hostMem = s.hostMem := rfl
@[simp] theorem State.take_out (s : State) (pk : Packet) : (s.take pk).out = s.out := rfl
@[simp] theorem State.take_free (s : State) (pk : Packet) : (s.take pk).free = s.free := rfl
@[simp] theorem State.take_dom (s : State) (pk : Packet) : (s.take pk).dom = s.dom := rfl
@[simp] theorem State.take_run (s : State) (pk : Packet) : (s.take pk).run = s.run := rfl
@[simp] theorem State.take_net (s : State) (pk : Packet) : (s.take pk).net = s.net := rfl
@[simp] theorem State.take_flt (s : State) (pk : Packet) : (s.take pk).flt = s.flt := rfl
@[simp] theorem State.take_snap (s : State) (pk : Packet) : (s.take pk).snap = s.snap := rfl
@[simp] theorem State.take_tim (s : State) (pk : Packet) : (s.take pk).tim = s.tim := rfl
@[simp] theorem State.take_clk (s : State) (pk : Packet) : (s.take pk).clk = s.clk := rfl
@[simp] theorem State.take_lay (s : State) (pk : Packet) : (s.take pk).lay = s.lay := rfl
@[simp] theorem State.take_foot (s : State) (pk : Packet) : (s.take pk).foot = s.foot := rfl
@[simp] theorem State.take_dose (s : State) (pk : Packet) : (s.take pk).dose = s.dose := rfl
@[simp] theorem State.take_gen (s : State) (pk : Packet) : (s.take pk).gen = s.gen := rfl
@[simp] theorem State.take_esc (s : State) (pk : Packet) : (s.take pk).esc = s.esc := rfl
@[simp] theorem State.take_scan (s : State) (pk : Packet) : (s.take pk).scan = s.scan := rfl
@[simp] theorem State.take_bal (s : State) (pk : Packet) : (s.take pk).bal = s.bal := rfl
@[simp] theorem State.take_dma (s : State) (pk : Packet) : (s.take pk).dma = s.dma := rfl
@[simp] theorem State.take_rle (s : State) (pk : Packet) : (s.take pk).rle = s.rle := rfl
@[simp] theorem State.take_ddr (s : State) (pk : Packet) : (s.take pk).ddr = s.ddr := rfl
@[simp] theorem State.take_mot (s : State) (pk : Packet) : (s.take pk).mot = s.mot := rfl
@[simp] theorem State.take_pwr (s : State) (pk : Packet) : (s.take pk).pwr = s.pwr := rfl
@[simp] theorem State.take_thm (s : State) (pk : Packet) : (s.take pk).thm = s.thm := rfl
@[simp] theorem State.take_mbx (s : State) (pk : Packet) : (s.take pk).mbx = s.mbx := rfl
@[simp] theorem State.take_dbg (s : State) (pk : Packet) : (s.take pk).dbg = s.dbg := rfl

/-! ### `updStripe` changes `lay` alone -/

@[simp] theorem State.updStripe_pending (s : State) (h : Nat) (f : Stripe → Stripe) : (s.updStripe h f).pending = s.pending := rfl
@[simp] theorem State.updStripe_regs (s : State) (h : Nat) (f : Stripe → Stripe) : (s.updStripe h f).regs = s.regs := rfl
@[simp] theorem State.updStripe_applied (s : State) (h : Nat) (f : Stripe → Stripe) : (s.updStripe h f).applied = s.applied := rfl
@[simp] theorem State.updStripe_mem (s : State) (h : Nat) (f : Stripe → Stripe) : (s.updStripe h f).mem = s.mem := rfl
@[simp] theorem State.updStripe_hostMem (s : State) (h : Nat) (f : Stripe → Stripe) : (s.updStripe h f).hostMem = s.hostMem := rfl
@[simp] theorem State.updStripe_out (s : State) (h : Nat) (f : Stripe → Stripe) : (s.updStripe h f).out = s.out := rfl
@[simp] theorem State.updStripe_free (s : State) (h : Nat) (f : Stripe → Stripe) : (s.updStripe h f).free = s.free := rfl
@[simp] theorem State.updStripe_dom (s : State) (h : Nat) (f : Stripe → Stripe) : (s.updStripe h f).dom = s.dom := rfl
@[simp] theorem State.updStripe_cmd (s : State) (h : Nat) (f : Stripe → Stripe) : (s.updStripe h f).cmd = s.cmd := rfl
@[simp] theorem State.updStripe_run (s : State) (h : Nat) (f : Stripe → Stripe) : (s.updStripe h f).run = s.run := rfl
@[simp] theorem State.updStripe_net (s : State) (h : Nat) (f : Stripe → Stripe) : (s.updStripe h f).net = s.net := rfl
@[simp] theorem State.updStripe_flt (s : State) (h : Nat) (f : Stripe → Stripe) : (s.updStripe h f).flt = s.flt := rfl
@[simp] theorem State.updStripe_snap (s : State) (h : Nat) (f : Stripe → Stripe) : (s.updStripe h f).snap = s.snap := rfl
@[simp] theorem State.updStripe_tim (s : State) (h : Nat) (f : Stripe → Stripe) : (s.updStripe h f).tim = s.tim := rfl
@[simp] theorem State.updStripe_clk (s : State) (h : Nat) (f : Stripe → Stripe) : (s.updStripe h f).clk = s.clk := rfl
@[simp] theorem State.updStripe_foot (s : State) (h : Nat) (f : Stripe → Stripe) : (s.updStripe h f).foot = s.foot := rfl
@[simp] theorem State.updStripe_dose (s : State) (h : Nat) (f : Stripe → Stripe) : (s.updStripe h f).dose = s.dose := rfl
@[simp] theorem State.updStripe_gen (s : State) (h : Nat) (f : Stripe → Stripe) : (s.updStripe h f).gen = s.gen := rfl
@[simp] theorem State.updStripe_esc (s : State) (h : Nat) (f : Stripe → Stripe) : (s.updStripe h f).esc = s.esc := rfl
@[simp] theorem State.updStripe_scan (s : State) (h : Nat) (f : Stripe → Stripe) : (s.updStripe h f).scan = s.scan := rfl
@[simp] theorem State.updStripe_bal (s : State) (h : Nat) (f : Stripe → Stripe) : (s.updStripe h f).bal = s.bal := rfl
@[simp] theorem State.updStripe_dma (s : State) (h : Nat) (f : Stripe → Stripe) : (s.updStripe h f).dma = s.dma := rfl
@[simp] theorem State.updStripe_rle (s : State) (h : Nat) (f : Stripe → Stripe) : (s.updStripe h f).rle = s.rle := rfl
@[simp] theorem State.updStripe_ddr (s : State) (h : Nat) (f : Stripe → Stripe) : (s.updStripe h f).ddr = s.ddr := rfl
@[simp] theorem State.updStripe_mot (s : State) (h : Nat) (f : Stripe → Stripe) : (s.updStripe h f).mot = s.mot := rfl
@[simp] theorem State.updStripe_pwr (s : State) (h : Nat) (f : Stripe → Stripe) : (s.updStripe h f).pwr = s.pwr := rfl
@[simp] theorem State.updStripe_thm (s : State) (h : Nat) (f : Stripe → Stripe) : (s.updStripe h f).thm = s.thm := rfl
@[simp] theorem State.updStripe_mbx (s : State) (h : Nat) (f : Stripe → Stripe) : (s.updStripe h f).mbx = s.mbx := rfl
@[simp] theorem State.updStripe_dbg (s : State) (h : Nat) (f : Stripe → Stripe) : (s.updStripe h f).dbg = s.dbg := rfl

/-! ### `setRec` changes `flt` alone -/

@[simp] theorem State.setRec_pending (s : State) (r : FaultRec) : (s.setRec r).pending = s.pending := rfl
@[simp] theorem State.setRec_regs (s : State) (r : FaultRec) : (s.setRec r).regs = s.regs := rfl
@[simp] theorem State.setRec_applied (s : State) (r : FaultRec) : (s.setRec r).applied = s.applied := rfl
@[simp] theorem State.setRec_mem (s : State) (r : FaultRec) : (s.setRec r).mem = s.mem := rfl
@[simp] theorem State.setRec_hostMem (s : State) (r : FaultRec) : (s.setRec r).hostMem = s.hostMem := rfl
@[simp] theorem State.setRec_out (s : State) (r : FaultRec) : (s.setRec r).out = s.out := rfl
@[simp] theorem State.setRec_free (s : State) (r : FaultRec) : (s.setRec r).free = s.free := rfl
@[simp] theorem State.setRec_dom (s : State) (r : FaultRec) : (s.setRec r).dom = s.dom := rfl
@[simp] theorem State.setRec_cmd (s : State) (r : FaultRec) : (s.setRec r).cmd = s.cmd := rfl
@[simp] theorem State.setRec_run (s : State) (r : FaultRec) : (s.setRec r).run = s.run := rfl
@[simp] theorem State.setRec_net (s : State) (r : FaultRec) : (s.setRec r).net = s.net := rfl
@[simp] theorem State.setRec_snap (s : State) (r : FaultRec) : (s.setRec r).snap = s.snap := rfl
@[simp] theorem State.setRec_tim (s : State) (r : FaultRec) : (s.setRec r).tim = s.tim := rfl
@[simp] theorem State.setRec_clk (s : State) (r : FaultRec) : (s.setRec r).clk = s.clk := rfl
@[simp] theorem State.setRec_lay (s : State) (r : FaultRec) : (s.setRec r).lay = s.lay := rfl
@[simp] theorem State.setRec_foot (s : State) (r : FaultRec) : (s.setRec r).foot = s.foot := rfl
@[simp] theorem State.setRec_dose (s : State) (r : FaultRec) : (s.setRec r).dose = s.dose := rfl
@[simp] theorem State.setRec_gen (s : State) (r : FaultRec) : (s.setRec r).gen = s.gen := rfl
@[simp] theorem State.setRec_esc (s : State) (r : FaultRec) : (s.setRec r).esc = s.esc := rfl
@[simp] theorem State.setRec_scan (s : State) (r : FaultRec) : (s.setRec r).scan = s.scan := rfl
@[simp] theorem State.setRec_bal (s : State) (r : FaultRec) : (s.setRec r).bal = s.bal := rfl
@[simp] theorem State.setRec_dma (s : State) (r : FaultRec) : (s.setRec r).dma = s.dma := rfl
@[simp] theorem State.setRec_rle (s : State) (r : FaultRec) : (s.setRec r).rle = s.rle := rfl
@[simp] theorem State.setRec_ddr (s : State) (r : FaultRec) : (s.setRec r).ddr = s.ddr := rfl
@[simp] theorem State.setRec_mot (s : State) (r : FaultRec) : (s.setRec r).mot = s.mot := rfl
@[simp] theorem State.setRec_pwr (s : State) (r : FaultRec) : (s.setRec r).pwr = s.pwr := rfl
@[simp] theorem State.setRec_thm (s : State) (r : FaultRec) : (s.setRec r).thm = s.thm := rfl
@[simp] theorem State.setRec_mbx (s : State) (r : FaultRec) : (s.setRec r).mbx = s.mbx := rfl
@[simp] theorem State.setRec_dbg (s : State) (r : FaultRec) : (s.setRec r).dbg = s.dbg := rfl

/-! ### `setSev` changes `flt` alone -/

@[simp] theorem State.setSev_pending (s : State) (src v : Nat) : (s.setSev src v).pending = s.pending := rfl
@[simp] theorem State.setSev_regs (s : State) (src v : Nat) : (s.setSev src v).regs = s.regs := rfl
@[simp] theorem State.setSev_applied (s : State) (src v : Nat) : (s.setSev src v).applied = s.applied := rfl
@[simp] theorem State.setSev_mem (s : State) (src v : Nat) : (s.setSev src v).mem = s.mem := rfl
@[simp] theorem State.setSev_hostMem (s : State) (src v : Nat) : (s.setSev src v).hostMem = s.hostMem := rfl
@[simp] theorem State.setSev_out (s : State) (src v : Nat) : (s.setSev src v).out = s.out := rfl
@[simp] theorem State.setSev_free (s : State) (src v : Nat) : (s.setSev src v).free = s.free := rfl
@[simp] theorem State.setSev_dom (s : State) (src v : Nat) : (s.setSev src v).dom = s.dom := rfl
@[simp] theorem State.setSev_cmd (s : State) (src v : Nat) : (s.setSev src v).cmd = s.cmd := rfl
@[simp] theorem State.setSev_run (s : State) (src v : Nat) : (s.setSev src v).run = s.run := rfl
@[simp] theorem State.setSev_net (s : State) (src v : Nat) : (s.setSev src v).net = s.net := rfl
@[simp] theorem State.setSev_snap (s : State) (src v : Nat) : (s.setSev src v).snap = s.snap := rfl
@[simp] theorem State.setSev_tim (s : State) (src v : Nat) : (s.setSev src v).tim = s.tim := rfl
@[simp] theorem State.setSev_clk (s : State) (src v : Nat) : (s.setSev src v).clk = s.clk := rfl
@[simp] theorem State.setSev_lay (s : State) (src v : Nat) : (s.setSev src v).lay = s.lay := rfl
@[simp] theorem State.setSev_foot (s : State) (src v : Nat) : (s.setSev src v).foot = s.foot := rfl
@[simp] theorem State.setSev_dose (s : State) (src v : Nat) : (s.setSev src v).dose = s.dose := rfl
@[simp] theorem State.setSev_gen (s : State) (src v : Nat) : (s.setSev src v).gen = s.gen := rfl
@[simp] theorem State.setSev_esc (s : State) (src v : Nat) : (s.setSev src v).esc = s.esc := rfl
@[simp] theorem State.setSev_scan (s : State) (src v : Nat) : (s.setSev src v).scan = s.scan := rfl
@[simp] theorem State.setSev_bal (s : State) (src v : Nat) : (s.setSev src v).bal = s.bal := rfl
@[simp] theorem State.setSev_dma (s : State) (src v : Nat) : (s.setSev src v).dma = s.dma := rfl
@[simp] theorem State.setSev_rle (s : State) (src v : Nat) : (s.setSev src v).rle = s.rle := rfl
@[simp] theorem State.setSev_ddr (s : State) (src v : Nat) : (s.setSev src v).ddr = s.ddr := rfl
@[simp] theorem State.setSev_mot (s : State) (src v : Nat) : (s.setSev src v).mot = s.mot := rfl
@[simp] theorem State.setSev_pwr (s : State) (src v : Nat) : (s.setSev src v).pwr = s.pwr := rfl
@[simp] theorem State.setSev_thm (s : State) (src v : Nat) : (s.setSev src v).thm = s.thm := rfl
@[simp] theorem State.setSev_mbx (s : State) (src v : Nat) : (s.setSev src v).mbx = s.mbx := rfl
@[simp] theorem State.setSev_dbg (s : State) (src v : Nat) : (s.setSev src v).dbg = s.dbg := rfl

end Sys2Proof.Machine
end

