-- ==== Sys2Proof/Laws/Store.lean ====
section
/-! SUPPORT. The laws of the sparse stores: a read after a write, and the canonical form, which every operation keeps. -/

namespace Sys2Proof.Machine

set_option Elab.async false
set_option linter.all false

variable {α : Type}

/-- A store whose keys are all above `k` holds the default at `k`. -/
theorem storeGet_of_above (d : Nat → α) (l : List (Nat × α)) (k : Nat) (h : storeAbove k l = true) : storeGet d l k = d k := by
  induction l with
  | nil => rfl
  | cons p t ih =>
    obtain ⟨j, v⟩ := p
    simp only [storeAbove, Bool.and_eq_true, decide_eq_true_eq] at h
    have : j ≠ k := by omega
    simp [storeGet, this, ih h.2]

/-- Keys above a bound are above a lower one. -/
theorem storeAbove_mono (l : List (Nat × α)) {j k : Nat} (hjk : k ≤ j) (h : storeAbove j l = true) : storeAbove k l = true := by
  induction l with
  | nil => rfl
  | cons p t ih =>
    simp only [storeAbove, Bool.and_eq_true, decide_eq_true_eq] at h ⊢
    exact ⟨by omega, ih h.2⟩

variable [DecidableEq α]

/-- A read at the key of the last write gives what was written. -/
theorem storeGet_put_same (d : Nat → α) (l : List (Nat × α)) (k : Nat) (v : α) (h : storeWf d l = true) :
    storeGet d (storePut d l k v) k = v := by
  induction l with
  | nil => by_cases e : v = d k <;> simp [storePut, e, storeGet]
  | cons p t ih =>
    obtain ⟨j, w⟩ := p
    simp only [storeWf, Bool.and_eq_true, decide_eq_true_eq] at h
    obtain ⟨⟨_, hab⟩, ht⟩ := h
    unfold storePut
    by_cases h1 : k < j
    · have hj : j ≠ k := by omega
      have := storeGet_of_above d t k (storeAbove_mono t (Nat.le_of_lt h1) hab)
      by_cases e : v = d k <;> simp [h1, e, storeGet, hj, this]
    · by_cases h2 : k = j
      · subst h2
        have := storeGet_of_above d t k hab
        by_cases e : v = d k <;> simp [e, storeGet, this]
      · have hj : j ≠ k := fun e => h2 e.symm
        simp [h1, h2, storeGet, hj, ih ht]

/-- A write leaves every other key as it was. -/
theorem storeGet_put_other (d : Nat → α) (l : List (Nat × α)) (k j : Nat) (v : α) (hjk : j ≠ k) :
    storeGet d (storePut d l k v) j = storeGet d l j := by
  induction l with
  | nil =>
    have : k ≠ j := fun e => hjk e.symm
    by_cases e : v = d k <;> simp [storePut, e, storeGet, this]
  | cons p t ih =>
    obtain ⟨i, w⟩ := p
    have hk : k ≠ j := fun e => hjk e.symm
    unfold storePut
    by_cases h1 : k < i
    · by_cases e : v = d k <;> simp [h1, e, storeGet, hk]
    · by_cases h2 : k = i
      · subst h2
        by_cases e : v = d k <;> simp [e, storeGet, hk]
      · simp [h1, h2, storeGet, ih]

/-- A read after a write. -/
theorem storeGet_put (d : Nat → α) (l : List (Nat × α)) (k j : Nat) (v : α) (h : storeWf d l = true) :
    storeGet d (storePut d l k v) j = if j = k then v else storeGet d l j := by
  by_cases e : j = k
  · subst e; simp [storeGet_put_same d l j v h]
  · simp [e, storeGet_put_other d l k j v e]

/-- A write above a bound keeps every key above it. -/
theorem storeAbove_put (d : Nat → α) (l : List (Nat × α)) (b k : Nat) (v : α) (hb : b < k) (h : storeAbove b l = true) :
    storeAbove b (storePut d l k v) = true := by
  induction l with
  | nil => by_cases e : v = d k <;> simp [storePut, e, storeAbove, hb]
  | cons p t ih =>
    obtain ⟨j, w⟩ := p
    simp only [storeAbove, Bool.and_eq_true, decide_eq_true_eq] at h
    unfold storePut
    by_cases h1 : k < j
    · by_cases e : v = d k <;> simp [h1, e, storeAbove, hb, h.1, h.2]
    · by_cases h2 : k = j
      · subst h2
        by_cases e : v = d k <;> simp [e, storeAbove, h.1, h.2]
      · simp [h1, h2, storeAbove, h.1, ih h.2]

/-- A write keeps the canonical form. -/
theorem storeWf_put (d : Nat → α) (l : List (Nat × α)) (k : Nat) (v : α) (h : storeWf d l = true) :
    storeWf d (storePut d l k v) = true := by
  induction l with
  | nil => by_cases e : v = d k <;> simp [storePut, e, storeWf, storeAbove]
  | cons p t ih =>
    obtain ⟨j, w⟩ := p
    simp only [storeWf, Bool.and_eq_true, decide_eq_true_eq] at h
    obtain ⟨⟨hw, hab⟩, ht⟩ := h
    unfold storePut
    by_cases h1 : k < j
    · by_cases e : v = d k
      · simp [h1, e, storeWf, hw, hab, ht]
      · simp [h1, e, storeWf, storeAbove, hw, hab, ht, storeAbove_mono t (Nat.le_of_lt h1) hab]
    · by_cases h2 : k = j
      · subst h2
        by_cases e : v = d k <;> simp [e, storeWf, hab, ht]
      · have : j < k := by omega
        simp [h1, h2, storeWf, hw, ih ht, storeAbove_put d t j k v this hab]

/-- Filling a range keeps the canonical form. -/
theorem storeWf_fill (d : Nat → α) (vs : List α) (l : List (Nat × α)) (k : Nat) (h : storeWf d l = true) :
    storeWf d (storeFill d l k vs) = true := by
  induction vs generalizing l k with
  | nil => exact h
  | cons v vs ih => exact ih _ _ (storeWf_put d l k v h)

/-- Filling a range leaves every key outside it as it was. -/
theorem storeGet_fill_outside (d : Nat → α) (vs : List α) (l : List (Nat × α)) (k j : Nat) (h : j < k ∨ k + vs.length ≤ j) :
    storeGet d (storeFill d l k vs) j = storeGet d l j := by
  induction vs generalizing l k with
  | nil => rfl
  | cons v vs ih =>
    simp only [List.length_cons] at h
    unfold storeFill
    rw [ih _ _ (by omega), storeGet_put_other d l k j v (by omega)]

/-- Filling a range puts its values there. -/
theorem storeGet_fill_inside (d : Nat → α) (vs : List α) (l : List (Nat × α)) (k i : Nat) (v : α) (h : storeWf d l = true)
    (hv : vs[i]? = some v) : storeGet d (storeFill d l k vs) (k + i) = v := by
  induction vs generalizing l k i with
  | nil => simp at hv
  | cons w vs ih =>
    unfold storeFill
    cases i with
    | zero =>
      simp only [List.getElem?_cons_zero, Option.some.injEq] at hv
      subst hv
      rw [storeGet_fill_outside d vs _ _ _ (by omega)]
      exact storeGet_put_same d l k w h
    | succ i =>
      have := ih (storePut d l k w) (k + 1) i (storeWf_put d l k w h) (by simpa using hv)
      simpa [Nat.add_assoc, Nat.add_comm 1 i] using this

/-- Writes from a list of keys keep the canonical form. -/
theorem storeWf_foldl_put {β : Type} (d : Nat → α) (key : β → Nat) (val : β → α) (ks : List β) (l : List (Nat × α))
    (h : storeWf d l = true) : storeWf d (ks.foldl (fun a o => storePut d a (key o) (val o)) l) = true := by
  induction ks generalizing l with
  | nil => exact h
  | cons k ks ih => exact ih _ (storeWf_put d l (key k) (val k) h)

end Sys2Proof.Machine
end

