-- ==== Sys2Proof/Laws/Ops.lean ====
section
/-! SUPPORT. What the shared operations over registers, memory and packets do: one law each, cited in place of their definitions. -/

namespace Sys2Proof.Machine

set_option Elab.async false
set_option linter.all false

/-! ### Registers -/

/-- The register written reads as the value, modulo 2^32. -/
theorem State.rd_wr_same (s : State) (off v : Nat) (h : storeWf resetValue s.regs = true) : (s.wr off v).rd off = v % 2 ^ 32 := by
  simp only [State.rd, State.wr, storeGet_put_same resetValue s.regs off _ h, BitVec.toNat_ofNat]

/-- Every other register reads as before. -/
theorem State.rd_wr_other (s : State) (off v o : Nat) (h : o ≠ off) : (s.wr off v).rd o = s.rd o := by
  simp only [State.rd, State.wr, storeGet_put_other resetValue s.regs off o _ h]

/-- A register read after a write. -/
theorem State.rd_wr (s : State) (off v o : Nat) (h : storeWf resetValue s.regs = true) :
    (s.wr off v).rd o = if o = off then v % 2 ^ 32 else s.rd o := by
  by_cases e : o = off
  · subst e; simp only [if_true, State.rd_wr_same s o v h]
  · simp only [e, if_false, State.rd_wr_other s off v o e]

/-- A write keeps the registers in canonical form. -/
theorem State.wr_wf (s : State) (off v : Nat) (h : storeWf resetValue s.regs = true) : storeWf resetValue (s.wr off v).regs = true :=
  storeWf_put resetValue s.regs off _ h

/-- A register holds 32 bits. -/
theorem State.rd_lt (s : State) (off : Nat) : s.rd off < 2 ^ 32 := (storeGet resetValue s.regs off).isLt

/-- Setting a field leaves every other register. -/
theorem State.rd_setFld_other (s : State) (off lo n v o : Nat) (h : o ≠ off) : (s.setFld off lo n v).rd o = s.rd o :=
  State.rd_wr_other s off _ o h

/-- Setting a bit leaves every other register. -/
theorem State.rd_setFlag_other (s : State) (off k : Nat) (b : Bool) (o : Nat) (h : o ≠ off) : (s.setFlag off k b).rd o = s.rd o :=
  State.rd_wr_other s off _ o h

/-- Counting leaves every other register. -/
theorem State.rd_count_other (s : State) (off n o : Nat) (h : o ≠ off) : (s.count off n).rd o = s.rd o :=
  State.rd_wr_other s off _ o h

/-- A register is a function of the register store alone. -/
theorem State.rd_congr {s t : State} (h : s.regs = t.regs) (off : Nat) : s.rd off = t.rd off := by simp only [State.rd, h]

/-- The mode is a function of the register store alone. -/
theorem State.mode_congr {s t : State} (h : s.regs = t.regs) : s.mode = t.mode := by simp only [State.mode, State.fld, State.rd, h]

/-! ### Memory -/

/-- The byte of the job store at `a`. -/
def State.memByte (s : State) (a : Nat) : Byte := storeGet byteDefault s.mem a

/-- The byte of host memory at `a`. -/
def State.hostByte (s : State) (a : Nat) : Byte := storeGet byteDefault s.hostMem a

/-- A write of the job store leaves every byte outside it. -/
theorem State.memByte_memWrite_outside (s : State) (a : Nat) (bs : List Byte) (b : Nat) (h : b < a ∨ a + bs.length ≤ b) :
    (s.memWrite a bs).memByte b = s.memByte b :=
  storeGet_fill_outside byteDefault bs s.mem a b h

/-- A write of the job store puts its bytes there. -/
theorem State.memByte_memWrite_inside (s : State) (a : Nat) (bs : List Byte) (i : Nat) (v : Byte) (hw : Memory.wf s.mem = true)
    (h : bs[i]? = some v) : (s.memWrite a bs).memByte (a + i) = v :=
  storeGet_fill_inside byteDefault bs s.mem a i v hw h

/-- A write to host memory leaves every byte outside it. -/
theorem State.hostByte_hostWrite_outside (s : State) (a : Nat) (bs : List Byte) (b : Nat) (h : b < a ∨ a + bs.length ≤ b) :
    (s.hostWrite a bs).hostByte b = s.hostByte b :=
  storeGet_fill_outside byteDefault bs s.hostMem a b h

/-- A write to host memory puts its bytes there. -/
theorem State.hostByte_hostWrite_inside (s : State) (a : Nat) (bs : List Byte) (i : Nat) (v : Byte) (hw : Memory.wf s.hostMem = true)
    (h : bs[i]? = some v) : (s.hostWrite a bs).hostByte (a + i) = v :=
  storeGet_fill_inside byteDefault bs s.hostMem a i v hw h

/-- A write keeps the job store in canonical form. -/
theorem State.memWrite_wf (s : State) (a : Nat) (bs : List Byte) (h : Memory.wf s.mem = true) : Memory.wf (s.memWrite a bs).mem = true :=
  storeWf_fill byteDefault bs s.mem a h

/-- A write keeps host memory in canonical form. -/
theorem State.hostWrite_wf (s : State) (a : Nat) (bs : List Byte) (h : Memory.wf s.hostMem = true) :
    Memory.wf (s.hostWrite a bs).hostMem = true :=
  storeWf_fill byteDefault bs s.hostMem a h

/-! ### Replies -/

/-- A packet that has not been started gets no reply. -/
theorem State.complete_none (s : State) (pk : Packet) (r : Reply) (h : s.startedOf pk = none) : s.complete pk r = s := by
  unfold State.complete
  rw [h]

/-- A duty of a channel writes only the registers it gives and the channel's status. -/
theorem State.duty_frame (s : State) (n : Nat) (l : List (Nat × Nat)) :
    (∃ g, s.duty n l = { s with regs := g }) ∧ ∀ o, o ≠ rDmaStat n → (∀ p ∈ l, o ≠ p.1) → (s.duty n l).rd o = s.rd o := by
  have hf : ∀ (l : List (Nat × Nat)) (s : State), (∃ g, l.foldl (fun t p => t.wr p.1 p.2) s = { s with regs := g }) ∧
      ∀ o, (∀ p ∈ l, o ≠ p.1) → (l.foldl (fun t p => t.wr p.1 p.2) s).rd o = s.rd o := by
    intro l
    induction l with
    | nil => exact fun s => ⟨⟨s.regs, rfl⟩, fun _ _ => rfl⟩
    | cons p l ih =>
      intro s
      obtain ⟨⟨g, e⟩, h⟩ := ih (s.wr p.1 p.2)
      refine ⟨⟨g, e⟩, fun o ho => ?_⟩
      rw [List.foldl_cons, h o (fun q hq => ho q (List.mem_cons_of_mem _ hq)), State.rd_wr_other _ _ _ _ (ho p List.mem_cons_self)]
  unfold State.duty
  split
  · obtain ⟨⟨g, e⟩, h⟩ := hf l s
    refine ⟨⟨((l.foldl (fun t p => t.wr p.1 p.2) s).wr (rDmaStat n) 1).regs, ?_⟩, fun o ho hl => ?_⟩
    · rw [e]; rfl
    · rw [State.rd_wr_other _ _ _ _ ho, h o hl]
  · exact ⟨⟨s.regs, rfl⟩, fun _ _ _ => rfl⟩

/-- Everything the writing of result data can change: host memory inside the buffer, and the registers of channel 1. -/
theorem State.resultOut_frame (s : State) (pk : Packet) (bs : List Byte) :
    (∃ m g, s.resultOut pk bs = { s with hostMem := m, regs := g }) ∧
    (∀ o, o ∉ replyRegs → (s.resultOut pk bs).rd o = s.rd o) ∧
    ∀ a, (a < pkRbuf pk ∨ pkRbuf pk + bs.length ≤ a) →
      storeGet byteDefault (s.resultOut pk bs).hostMem a = storeGet byteDefault s.hostMem a := by
  unfold State.resultOut
  split
  · exact ⟨⟨s.hostMem, s.regs, rfl⟩, fun _ _ => rfl, fun _ _ => rfl⟩
  · obtain ⟨⟨g, e⟩, h⟩ := State.duty_frame (s.hostWrite (pkRbuf pk) bs) 1 [(rDmaDctl 1, 2 ^ 28 + hfunc pk.fn * 2 ^ 26),
      (rDmaDstLo 1, pkRbuf pk % 2 ^ 32), (rDmaDstHi 1, pkRbuf pk / 2 ^ 32 % 2 ^ 32)]
    refine ⟨⟨(s.hostWrite (pkRbuf pk) bs).hostMem, g, e⟩, fun o ho => ?_, fun a ha => ?_⟩
    · simp only [replyRegs, List.mem_cons, List.not_mem_nil, or_false, not_or] at ho
      refine h o ho.2.2.2 fun p hp => ?_
      simp only [List.mem_cons, List.not_mem_nil, or_false] at hp
      rcases hp with rfl | rfl | rfl
      · exact ho.1
      · exact ho.2.1
      · exact ho.2.2.1
    · dsimp only
      rw [e]
      exact storeGet_fill_outside byteDefault bs s.hostMem _ _ ha

/-- A halt of channel 1 found by a reply writes the channel's status and address, and stands in the DMA. -/
theorem State.chanHalts_frame (s : State) (f : Nat × Nat) :
    (∃ g b, s.chanHalts f = { s with regs := g, dma := { s.dma with fault := b } }) ∧ (s.chanHalts f).hostMem = s.hostMem ∧
    ∀ o, o ∉ replyRegs ++ [rDmaErraLo 1, rDmaErraHi 1] → (s.chanHalts f).rd o = s.rd o := by
  refine ⟨⟨_, _, rfl⟩, rfl, fun o ho => ?_⟩
  simp only [replyRegs, List.mem_append, List.mem_cons, List.not_mem_nil, or_false, not_or] at ho
  show ((((s.wr (rDmaStat 1) _).wr (rDmaErraLo 1) _).wr (rDmaErraHi 1) _).rd o) = s.rd o
  rw [State.rd_wr_other _ _ _ _ ho.2.2, State.rd_wr_other _ _ _ _ ho.2.1, State.rd_wr_other _ _ _ _ ho.1.2.2.2]

/-- A buffer with no error has none in its first bytes. -/
theorem State.chanFault_less (s : State) (lo n k : Nat) (hk : k ≤ n) (h : s.chanFault lo n = none) : s.chanFault lo k = none := by
  unfold State.chanFault at h ⊢
  split
  · rfl
  · rename_i hc
    rw [if_neg hc, List.findSome?_eq_none_iff] at h
    rw [List.findSome?_eq_none_iff]
    intro c hm
    have := h c hm
    split at this <;> simp_all
    omega

/-- No byte is written, so no byte is in error. -/
@[simp] theorem State.chanFault_zero (s : State) (lo : Nat) : s.chanFault lo 0 = none := by
  unfold State.chanFault
  split
  · rfl
  · rw [List.findSome?_eq_none_iff]
    intro c _
    split
    · rw [if_neg]; omega
    · rfl

/-- Everything that sending result data can change: host memory inside the buffer, and the registers of channel 1 with its halt. -/
theorem State.dataOut_frame (s : State) (pk : Packet) (bs : List Byte) :
    (∃ m g b, s.dataOut pk bs = { s with hostMem := m, regs := g, dma := { s.dma with fault := b } }) ∧
    (∀ o, o ∉ replyRegs ++ [rDmaErraLo 1, rDmaErraHi 1] → (s.dataOut pk bs).rd o = s.rd o) ∧
    ∀ a, (a < pkRbuf pk ∨ pkRbuf pk + bs.length ≤ a) →
      storeGet byteDefault (s.dataOut pk bs).hostMem a = storeGet byteDefault s.hostMem a := by
  unfold State.dataOut
  cases s.chanFault (pkRbuf pk) bs.length with
  | none =>
    obtain ⟨⟨m, g, e⟩, h, k⟩ := State.resultOut_frame s pk bs
    exact ⟨⟨m, g, s.dma.fault, e⟩, fun o ho => h o fun hr => ho (List.mem_append_left _ hr), k⟩
  | some f =>
    obtain ⟨⟨m, g, e⟩, h, k⟩ := State.resultOut_frame s pk (bs.take (f.2 - pkRbuf pk))
    obtain ⟨⟨g', b, e'⟩, hm, h'⟩ := State.chanHalts_frame (s.resultOut pk (bs.take (f.2 - pkRbuf pk))) f
    refine ⟨⟨m, g', b, ?_⟩, fun o ho => (h' o ho).trans (h o fun hr => ho (List.mem_append_left _ hr)), fun a ha => ?_⟩
    · exact e'.trans (by rw [e])
    · exact (congrArg (fun m => storeGet byteDefault m a) hm).trans (k a (by rw [List.length_take]; omega))

/-- Sent into a sound buffer, result data change host memory and the registers of channel 1. -/
theorem State.dataOut_sound (s : State) (pk : Packet) (bs : List Byte) (h : s.chanFault (pkRbuf pk) bs.length = none) :
    s.dataOut pk bs = s.resultOut pk bs := by
  unfold State.dataOut
  rw [h]

/-- Everything a reply can change: the unit's queues of packets, host memory in the packet's buffer, and the registers of channel 1 with
its halt. -/
theorem State.complete_frame (s : State) (pk : Packet) (r : Reply) :
    (∃ c m g b, s.complete pk r = { s with cmd := c, hostMem := m, regs := g, dma := { s.dma with fault := b } }) ∧
    (∀ o, o ∉ replyRegs ++ [rDmaErraLo 1, rDmaErraHi 1] → (s.complete pk r).rd o = s.rd o) ∧
    ∀ a, (a < pkRbuf pk ∨ pkRbuf pk + pkRoom pk ≤ a) →
      storeGet byteDefault (s.complete pk r).hostMem a = storeGet byteDefault s.hostMem a := by
  unfold State.complete
  split
  · exact ⟨⟨s.cmd, s.hostMem, s.regs, s.dma.fault, rfl⟩, fun _ _ => rfl, fun _ _ => rfl⟩
  · dsimp only
    split
    · exact ⟨⟨s.cmd, s.hostMem, s.regs, s.dma.fault, rfl⟩, fun _ _ => rfl, fun _ _ => rfl⟩
    · split
      · exact ⟨⟨_, s.hostMem, s.regs, s.dma.fault, rfl⟩, fun _ _ => rfl, fun _ _ => rfl⟩
      · obtain ⟨⟨m, g, b, e⟩, h, k⟩ := State.dataOut_frame s pk (r.data.take (pkRoom pk - pkRoom pk % r.unit))
        refine ⟨?_, fun o ho => h o ho, fun a ha => k a ?_⟩
        · rw [e]
          exact ⟨_, _, _, b, rfl⟩
        · rw [List.length_take]
          omega

/-- A reply into a sound buffer changes the unit's queues of packets, host memory in the buffer, and the registers of channel 1. -/
theorem State.complete_sound (s : State) (pk : Packet) (r : Reply) (hs : s.rbufSound pk = true) :
    (∃ c m g, s.complete pk r = { s with cmd := c, hostMem := m, regs := g }) ∧
    ∀ o, o ∉ replyRegs → (s.complete pk r).rd o = s.rd o := by
  rw [State.rbufSound, Option.isNone_iff_eq_none] at hs
  have hn : s.chanFault (pkRbuf pk) (r.data.take (pkRoom pk - pkRoom pk % r.unit)).length = none :=
    s.chanFault_less _ _ _ (by rw [List.length_take]; omega) hs
  unfold State.complete
  split
  · exact ⟨⟨s.cmd, s.hostMem, s.regs, rfl⟩, fun _ _ => rfl⟩
  · dsimp only
    split
    · exact ⟨⟨s.cmd, s.hostMem, s.regs, rfl⟩, fun _ _ => rfl⟩
    · split
      · exact ⟨⟨_, s.hostMem, s.regs, rfl⟩, fun _ _ => rfl⟩
      · rw [State.dataOut_sound s pk _ hn]
        obtain ⟨⟨m, g, e⟩, h, -⟩ := State.resultOut_frame s pk (r.data.take (pkRoom pk - pkRoom pk % r.unit))
        refine ⟨?_, fun o ho => h o ho⟩
        rw [e]
        exact ⟨_, _, _, rfl⟩

/-- A reply without data changes the unit's queues of packets alone. -/
theorem State.complete_noData (s : State) (pk : Packet) (r : Reply) (hr : r.data = []) : ∃ c, s.complete pk r = { s with cmd := c } := by
  unfold State.complete
  split
  · exact ⟨s.cmd, rfl⟩
  · simp only [hr, List.take_nil, State.dataOut, State.resultOut, List.isEmpty_nil, if_true, List.length_nil, State.chanFault_zero]
    split
    · exact ⟨s.cmd, rfl⟩
    · split <;> exact ⟨_, rfl⟩

/-- A reply without data changes no register. -/
theorem State.complete_regs (s : State) (pk : Packet) (r : Reply) (hr : r.data = []) : (s.complete pk r).regs = s.regs := by
  obtain ⟨c, e⟩ := State.complete_noData s pk r hr
  rw [e]

/-- A reply leaves the layout tables. -/
@[simp] theorem State.complete_lay (s : State) (pk : Packet) (r : Reply) : (s.complete pk r).lay = s.lay := by
  obtain ⟨⟨c, m, g, b, e⟩, -⟩ := State.complete_frame s pk r
  rw [e]

/-- A reply leaves the job store. -/
@[simp] theorem State.complete_mem (s : State) (pk : Packet) (r : Reply) : (s.complete pk r).mem = s.mem := by
  obtain ⟨⟨c, m, g, b, e⟩, -⟩ := State.complete_frame s pk r
  rw [e]

end Sys2Proof.Machine
end

