-- ==== Sys2Proof/Laws/Bits.lean ====
section
/-! SUPPORT. Reading a field of a register after a field has been set. -/

namespace Sys2Proof.Machine

set_option Elab.async false
set_option linter.all false

/-- The field just set. -/
theorem bits_setBits_same (w lo n v : Nat) : bits (setBits w lo n v) lo n = v % 2 ^ n := by
  unfold bits setBits
  have h1 : w % 2 ^ lo < 2 ^ lo := Nat.mod_lt _ (Nat.two_pow_pos lo)
  have e : w / 2 ^ (lo + n) * 2 ^ (lo + n) + v % 2 ^ n * 2 ^ lo + w % 2 ^ lo =
      (w / 2 ^ (lo + n) * 2 ^ n + v % 2 ^ n) * 2 ^ lo + w % 2 ^ lo := by
    rw [Nat.pow_add]; ring
  rw [e, Nat.mul_comm _ (2 ^ lo), Nat.mul_add_div (Nat.two_pow_pos lo), Nat.div_eq_of_lt h1, Nat.add_zero,
    Nat.add_comm, Nat.add_mul_mod_self_right, Nat.mod_mod]

/-- A field within the word keeps it a word. -/
theorem setBits_lt (w lo n v : Nat) (hw : w < 2 ^ 32) (h : lo + n ≤ 32) : setBits w lo n v < 2 ^ 32 := by
  unfold setBits
  have h1 : w % 2 ^ lo < 2 ^ lo := Nat.mod_lt _ (Nat.two_pow_pos lo)
  have h2 : v % 2 ^ n < 2 ^ n := Nat.mod_lt _ (Nat.two_pow_pos n)
  have h3 : v % 2 ^ n * 2 ^ lo + w % 2 ^ lo < 2 ^ (lo + n) := by
    have : (v % 2 ^ n + 1) * 2 ^ lo ≤ 2 ^ n * 2 ^ lo := Nat.mul_le_mul_right _ h2
    rw [Nat.pow_add, Nat.mul_comm (2 ^ lo)]
    linarith [Nat.add_mul (v % 2 ^ n) 1 (2 ^ lo)]
  have h4 : 2 ^ 32 = 2 ^ (32 - (lo + n)) * 2 ^ (lo + n) := by rw [← Nat.pow_add]; congr 1; omega
  have h5 : w / 2 ^ (lo + n) < 2 ^ (32 - (lo + n)) := by
    rw [Nat.div_lt_iff_lt_mul (Nat.two_pow_pos _), ← h4]; exact hw
  have : (w / 2 ^ (lo + n) + 1) * 2 ^ (lo + n) ≤ 2 ^ (32 - (lo + n)) * 2 ^ (lo + n) := Nat.mul_le_mul_right _ h5
  rw [h4]
  linarith [Nat.add_mul (w / 2 ^ (lo + n)) 1 (2 ^ (lo + n))]

/-- A field above the one set. -/
theorem bits_setBits_above (w lo n v l k : Nat) (h : lo + n ≤ l) : bits (setBits w lo n v) l k = bits w l k := by
  unfold bits setBits
  have h1 : w % 2 ^ lo < 2 ^ lo := Nat.mod_lt _ (Nat.two_pow_pos lo)
  have h2 : v % 2 ^ n < 2 ^ n := Nat.mod_lt _ (Nat.two_pow_pos n)
  have h3 : v % 2 ^ n * 2 ^ lo + w % 2 ^ lo < 2 ^ (lo + n) := by
    have : (v % 2 ^ n + 1) * 2 ^ lo ≤ 2 ^ n * 2 ^ lo := Nat.mul_le_mul_right _ h2
    rw [Nat.pow_add, Nat.mul_comm (2 ^ lo)]
    linarith [Nat.add_mul (v % 2 ^ n) 1 (2 ^ lo)]
  obtain ⟨d, rfl⟩ := Nat.exists_eq_add_of_le h
  congr 1
  rw [Nat.pow_add _ (lo + n) d, ← Nat.div_div_eq_div_mul, ← Nat.div_div_eq_div_mul, Nat.add_assoc, Nat.mul_comm _ (2 ^ (lo + n)),
    Nat.mul_add_div (Nat.two_pow_pos _), Nat.div_eq_of_lt h3, Nat.add_zero]

/-- A field below the one set. -/
theorem bits_setBits_below (w lo n v l k : Nat) (h : l + k ≤ lo) : bits (setBits w lo n v) l k = bits w l k := by
  unfold bits setBits
  obtain ⟨d, rfl⟩ := Nat.exists_eq_add_of_le h
  have e : w / 2 ^ (l + k + d + n) * 2 ^ (l + k + d + n) + v % 2 ^ n * 2 ^ (l + k + d) + w % 2 ^ (l + k + d) =
      (w / 2 ^ (l + k + d + n) * 2 ^ n + v % 2 ^ n) * 2 ^ d * 2 ^ k * 2 ^ l + w % 2 ^ (l + k + d) := by
    simp only [Nat.pow_add]; ring
  have e2 : w % 2 ^ (l + k + d) / 2 ^ l = w / 2 ^ l % (2 ^ k * 2 ^ d) := by
    rw [Nat.add_assoc, Nat.pow_add 2 l, Nat.pow_add 2 k, Nat.mod_mul_right_div_self]
  rw [e, Nat.mul_comm _ (2 ^ l), Nat.mul_add_div (Nat.two_pow_pos l), e2, Nat.add_comm, Nat.add_mul_mod_self_right,
    Nat.mod_mod_of_dvd _ (Nat.dvd_mul_right _ _)]

/-- The bit just set. -/
theorem bitAt_setBit_same (w k : Nat) (b : Bool) : bitAt (setBit w k b) k = b := by
  have h := bits_setBits_same w k 1 (if b then 1 else 0)
  unfold bits at h
  simp only [bitAt, setBit, Nat.testBit, Nat.shiftRight_eq_div_pow, Nat.one_and_eq_mod_two]
  rw [Nat.pow_one] at h
  rw [h]
  cases b <;> rfl

/-! ### Fields of registers -/

/-- The field just set. -/
theorem State.fld_setFld_same (s : State) (off lo n v : Nat) (hw : storeWf resetValue s.regs = true) (h : lo + n ≤ 32) :
    (s.setFld off lo n v).fld off lo n = v % 2 ^ n := by
  unfold State.setFld State.fld
  rw [State.rd_wr_same _ _ _ hw, Nat.mod_eq_of_lt (setBits_lt _ _ _ _ (s.rd_lt off) h), bits_setBits_same]

/-- A field of another register. -/
theorem State.fld_setFld_other (s : State) (off lo n v o l k : Nat) (h : o ≠ off) : (s.setFld off lo n v).fld o l k = s.fld o l k := by
  unfold State.fld
  rw [State.rd_setFld_other _ _ _ _ _ _ h]

/-- A field of the same register above or below the one set. -/
theorem State.fld_setFld_apart (s : State) (off lo n v l k : Nat) (hw : storeWf resetValue s.regs = true) (h : lo + n ≤ 32)
    (ha : lo + n ≤ l ∨ l + k ≤ lo) : (s.setFld off lo n v).fld off l k = s.fld off l k := by
  unfold State.setFld State.fld
  rw [State.rd_wr_same _ _ _ hw, Nat.mod_eq_of_lt (setBits_lt _ _ _ _ (s.rd_lt off) h)]
  rcases ha with ha | ha
  · exact bits_setBits_above _ _ _ _ _ _ ha
  · exact bits_setBits_below _ _ _ _ _ _ ha

/-- The bit just set. -/
theorem State.flag_setFlag_same (s : State) (off k : Nat) (b : Bool) (hw : storeWf resetValue s.regs = true) (h : k < 32) :
    (s.setFlag off k b).flag off k = b := by
  unfold State.setFlag State.flag
  rw [State.rd_wr_same _ _ _ hw]
  have : setBit (s.rd off) k b < 2 ^ 32 := setBits_lt _ _ _ _ (s.rd_lt off) (by omega)
  rw [Nat.mod_eq_of_lt this, bitAt_setBit_same]

/-- A bit of another register. -/
theorem State.flag_setFlag_other (s : State) (off k : Nat) (b : Bool) (o j : Nat) (h : o ≠ off) : (s.setFlag off k b).flag o j = s.flag o j := by
  unfold State.flag
  rw [State.rd_setFlag_other _ _ _ _ _ h]

end Sys2Proof.Machine
end

