-- ==== Sys2Proof/Laws/Inv.lean ====
section
/-! SUPPORT. The predicate that every operation keeps: the queue is as it was, and the invariant of Safety.lean holds; and the ways in which
an operation can be shown to keep it. -/

namespace Sys2Proof.Machine

set_option Elab.async false
set_option linter.all false

/-- The queue holds `p`, and the invariant holds. -/
def State.Ok (p : List Instr) (s : State) : Prop := s.pending = p ∧ s.Inv

/-- The invariant, part by part. -/
theorem State.inv_iff (s : State) : s.Inv ↔
    storeWf resetValue s.regs = true ∧ storeWf resetValue s.applied = true ∧ Memory.wf s.mem = true ∧ Memory.wf s.hostMem = true ∧
    s.savedOk = true ∧ s.lay.jobs.length ≤ 2 ∧ s.lay.stripes.length ≤ 8 ∧ s.lay.holes.length ≤ 1024 ∧ s.flt.log.length ≤ 256 := by
  simp only [State.Inv, State.storesOk, State.boundsOk, Bool.and_eq_true, decide_eq_true_eq, and_assoc]

/-- A record update that leaves the queue and the stores as they are. -/
def State.upd (t : State) (o : List Out) (fr : Nat) (dom : Domain)
    (cmd : CmdState) (run : RunState) (net : NetState) (flt : FltState) (snap : SnapState) (tim : TimState) (clk : ClkState) (lay : LayState)
    (foot : FootState) (dose : DoseState) (gen : GenState) (esc : EscState) (scan : ScanState) (bal : BalState) (dma : DmaState)
    (rle : RleState) (ddr : DdrState) (mot : List Axis) (pwr : PwrState) (thm : List Zone) (mbx : MbxState) (dbg : JtagState) : State :=
  ⟨t.pending, t.regs, t.applied, t.mem, t.hostMem, o, fr, dom, cmd, run, net, flt, snap, tim, clk, lay, foot, dose, gen, esc, scan, bal, dma,
    rle, ddr, mot, pwr, thm, mbx, dbg⟩

/-- A record update that leaves the queue and host memory as they are. -/
def State.updAll (t : State) (regs applied : List (Nat × Word)) (mem : List Host.Cell) (o : List Out) (fr : Nat) (dom : Domain)
    (cmd : CmdState) (run : RunState) (net : NetState) (flt : FltState) (snap : SnapState) (tim : TimState) (clk : ClkState) (lay : LayState)
    (foot : FootState) (dose : DoseState) (gen : GenState) (esc : EscState) (scan : ScanState) (bal : BalState) (dma : DmaState)
    (rle : RleState) (ddr : DdrState) (mot : List Axis) (pwr : PwrState) (thm : List Zone) (mbx : MbxState) (dbg : JtagState) : State :=
  ⟨t.pending, regs, applied, mem, t.hostMem, o, fr, dom, cmd, run, net, flt, snap, tim, clk, lay, foot, dose, gen, esc, scan, bal, dma,
    rle, ddr, mot, pwr, thm, mbx, dbg⟩

/-- A literal of the first kind. -/
theorem State.mk_upd (t : State) (o fr dom cmd run net flt snap tim clk lay foot dose gen esc scan bal dma rle ddr mot
    pwr thm mbx dbg) :
    State.mk t.pending t.regs t.applied t.mem t.hostMem o fr dom cmd run net flt snap tim clk lay foot dose gen esc scan bal dma rle ddr mot
    pwr thm mbx dbg =
    t.upd o fr dom cmd run net flt snap tim clk lay foot dose gen esc scan bal dma rle ddr mot
    pwr thm mbx dbg := rfl

/-- A literal of the second kind. -/
theorem State.mk_updAll (t : State) (regs applied mem o fr dom cmd run net flt snap tim clk lay foot dose gen esc scan bal dma rle ddr mot
    pwr thm mbx dbg) :
    State.mk t.pending regs applied mem t.hostMem o fr dom cmd run net flt snap tim clk lay foot dose gen esc scan bal dma rle ddr mot
    pwr thm mbx dbg =
    t.updAll regs applied mem o fr dom cmd run net flt snap tim clk lay foot dose gen esc scan bal dma rle ddr mot
    pwr thm mbx dbg := rfl

/-- The registers are in canonical form. -/
theorem State.Ok.regs {p : List Instr} {s : State} (h : s.Ok p) : storeWf resetValue s.regs = true := ((State.inv_iff s).1 h.2).1

/-- The registers in force are in canonical form. -/
theorem State.Ok.applied {p : List Instr} {s : State} (h : s.Ok p) : storeWf resetValue s.applied = true :=
  ((State.inv_iff s).1 h.2).2.1

/-- The job store is in canonical form. -/
theorem State.Ok.mem {p : List Instr} {s : State} (h : s.Ok p) : Memory.wf s.mem = true := ((State.inv_iff s).1 h.2).2.2.1

/-- What the saved registers of an open step are. -/
theorem State.Ok.saved {p : List Instr} {s : State} (h : s.Ok p) {c : OpenStep} (hc : s.run.cur = some c) :
    storeWf resetValue c.saved = true := by
  have := ((State.inv_iff s).1 h.2).2.2.2.2.1
  simpa only [State.savedOk, hc] using this

/-- The registers that a reset of the main domain keeps are in canonical form. -/
theorem keptRegs_wf (l : List (Nat × Word)) : storeWf resetValue (keptRegs l) = true := by
  unfold keptRegs
  exact storeWf_foldl_put resetValue (fun p => p.1)
    (fun p => BitVec.ofNat 32 (mergeBits (keptBits p.1) p.2.toNat (resetValue p.1).toNat)) l [] rfl

/-- An update of the second kind keeps the predicate where it keeps the stores and the saved registers in form and adds to no table. -/
theorem State.ok_updAll {p : List Instr} {t : State} {regs applied mem o fr dom cmd run net flt snap tim clk lay foot dose gen esc scan bal dma rle ddr mot
    pwr thm mbx dbg}
    (h : t.Ok p)
    (hg : t.Ok p → storeWf resetValue regs = true := by
      first | exact fun h => State.Ok.regs h | exact fun _ => keptRegs_wf _ | exact fun _ => rfl)
    (ha : t.Ok p → storeWf resetValue applied = true := by
      first | exact fun h => State.Ok.applied h | exact fun h => State.Ok.saved h (by assumption) | exact fun _ => rfl)
    (hm : t.Ok p → Memory.wf mem = true := by
      first | exact fun h => State.Ok.mem h | exact fun _ => rfl)
    (hr : t.Ok p → run.cur = t.run.cur ∨ ∀ c, run.cur = some c → storeWf resetValue c.saved = true := by
      first
        | with_reducible exact fun _ => Or.inl rfl
        | (refine fun ok_t => Or.inr fun c hc => ?_; cases hc; done)
        | (refine fun ok_t => Or.inr fun c hc => ?_; cases hc
           first | rfl | exact State.Ok.applied ok_t | exact State.Ok.saved ok_t (by assumption) |
             (dsimp only; exact State.Ok.saved ok_t (by assumption))))
    (hf : flt.log.length ≤ t.flt.log.length := by
      first | with_reducible exact Nat.le_refl _ | with_reducible exact Nat.zero_le _ | (simp only [List.length_map, Nat.le_refl]; done) |
        exact Nat.le_refl _ | exact Nat.zero_le _)
    (hj : lay.jobs.length ≤ t.lay.jobs.length := by
      first | with_reducible exact Nat.le_refl _ | with_reducible exact Nat.zero_le _ | with_reducible exact List.length_filter_le _ _ |
        exact Nat.le_refl _ | exact Nat.zero_le _)
    (hs : lay.stripes.length ≤ t.lay.stripes.length := by
      first | with_reducible exact Nat.le_refl _ | with_reducible exact Nat.zero_le _ | with_reducible exact List.length_filter_le _ _ |
        (simp only [List.length_map, Nat.le_refl]; done) | exact Nat.le_refl _ | exact Nat.zero_le _)
    (hh : lay.holes.length ≤ t.lay.holes.length := by
      first | with_reducible exact Nat.le_refl _ | with_reducible exact Nat.zero_le _ | with_reducible exact List.length_filter_le _ _ |
        exact Nat.le_refl _ | exact Nat.zero_le _) :
    (t.updAll regs applied mem o fr dom cmd run net flt snap tim clk lay foot dose gen esc scan bal dma rle ddr mot
    pwr thm mbx dbg).Ok p := by
  have hr := hr h
  have hg := hg h
  have ha := ha h
  have hm := hm h
  obtain ⟨hp, hi⟩ := h
  refine ⟨hp, ?_⟩
  rw [State.inv_iff] at hi ⊢
  obtain ⟨h1, h2, h3, h4, h5, h6, h7, h8, h9⟩ := hi
  refine ⟨hg, ha, hm, h4, ?_, by simp only [State.updAll]; omega, by simp only [State.updAll]; omega, by simp only [State.updAll]; omega,
    by simp only [State.updAll]; omega⟩
  simp only [State.savedOk, State.updAll] at h5 ⊢
  rcases hr with hr | hr
  · rw [hr]; exact h5
  · split
    · exact hr _ ‹_›
    · rfl

/-- An update of the first kind keeps the predicate where it keeps the saved registers in form and adds to no table. -/
theorem State.ok_upd {p : List Instr} {t : State} {o fr dom cmd run net flt snap tim clk lay foot dose gen esc scan bal dma rle ddr mot
    pwr thm mbx dbg} (h : t.Ok p)
    (hr : t.Ok p → run.cur = t.run.cur ∨ ∀ c, run.cur = some c → storeWf resetValue c.saved = true := by
      first
        | with_reducible exact fun _ => Or.inl rfl
        | (refine fun ok_t => Or.inr fun c hc => ?_; cases hc; done)
        | (refine fun ok_t => Or.inr fun c hc => ?_; cases hc
           first | rfl | exact State.Ok.applied ok_t | exact State.Ok.saved ok_t (by assumption) |
             (dsimp only; exact State.Ok.saved ok_t (by assumption))))
    (hf : flt.log.length ≤ t.flt.log.length := by
      first | with_reducible exact Nat.le_refl _ | with_reducible exact Nat.zero_le _ | (simp only [List.length_map, Nat.le_refl]; done) |
        exact Nat.le_refl _ | exact Nat.zero_le _)
    (hj : lay.jobs.length ≤ t.lay.jobs.length := by
      first | with_reducible exact Nat.le_refl _ | with_reducible exact Nat.zero_le _ | with_reducible exact List.length_filter_le _ _ |
        exact Nat.le_refl _ | exact Nat.zero_le _)
    (hs : lay.stripes.length ≤ t.lay.stripes.length := by
      first | with_reducible exact Nat.le_refl _ | with_reducible exact Nat.zero_le _ | with_reducible exact List.length_filter_le _ _ |
        (simp only [List.length_map, Nat.le_refl]; done) | exact Nat.le_refl _ | exact Nat.zero_le _)
    (hh : lay.holes.length ≤ t.lay.holes.length := by
      first | with_reducible exact Nat.le_refl _ | with_reducible exact Nat.zero_le _ | with_reducible exact List.length_filter_le _ _ |
        exact Nat.le_refl _ | exact Nat.zero_le _) :
    (t.upd o fr dom cmd run net flt snap tim clk lay foot dose gen esc scan bal dma rle ddr mot
    pwr thm mbx dbg).Ok p :=
  State.ok_updAll h (fun h => h.regs) (fun h => h.applied) (fun h => h.mem) hr hf hj hs hh

/-- The fault log has at most 256 entries. -/
theorem State.Ok.log {p : List Instr} {s : State} (h : s.Ok p) : s.flt.log.length ≤ 256 := by
  have := (State.inv_iff s).1 h.2
  omega

/-- At most 2 jobs are open. -/
theorem State.Ok.jobs {p : List Instr} {s : State} (h : s.Ok p) : s.lay.jobs.length ≤ 2 := by
  have := (State.inv_iff s).1 h.2
  omega

/-- At most 8 stripes are admitted. -/
theorem State.Ok.stripes {p : List Instr} {s : State} (h : s.Ok p) : s.lay.stripes.length ≤ 8 := by
  have := (State.inv_iff s).1 h.2
  omega

/-- At most 1,024 holes are kept. -/
theorem State.Ok.holes {p : List Instr} {s : State} (h : s.Ok p) : s.lay.holes.length ≤ 1024 := by
  have := (State.inv_iff s).1 h.2
  omega

/-- An update of the first kind that adds to tables keeps the predicate where they stay within their bounds. -/
theorem State.ok_updTab {p : List Instr} {t : State} {o fr dom cmd run net flt snap tim clk lay foot dose gen esc scan bal dma rle ddr mot
    pwr thm mbx dbg}
    (h : t.Ok p) (hr : run.cur = t.run.cur) (hf : flt.log.length ≤ 256) (hj : lay.jobs.length ≤ 2) (hs : lay.stripes.length ≤ 8)
    (hh : lay.holes.length ≤ 1024) :
    (t.upd o fr dom cmd run net flt snap tim clk lay foot dose gen esc scan bal dma rle ddr mot
    pwr thm mbx dbg).Ok p := by
  obtain ⟨hp, hi⟩ := h
  refine ⟨hp, ?_⟩
  rw [State.inv_iff] at hi ⊢
  obtain ⟨h1, h2, h3, h4, h5, _⟩ := hi
  refine ⟨h1, h2, h3, h4, ?_, hj, hs, hh, hf⟩
  simpa only [State.savedOk, State.upd, hr] using h5

/-- A fold of operations that keep the predicate keeps it. -/
theorem State.ok_foldl {β : Type} {p : List Instr} {f : State → β → State} {l : List β} {s : State} (h : s.Ok p)
    (hf : ∀ (t : State) (b : β), t.Ok p → (f t b).Ok p) : (l.foldl f s).Ok p := by
  induction l generalizing s with
  | nil => exact h
  | cons b l ih => exact ih (hf s b h)

/-- The first component of a pair of a state and what it answers. -/
theorem State.ok_ite {p : List Instr} {c : Prop} [Decidable c] {s t : State} (h1 : c → s.Ok p) (h2 : ¬c → t.Ok p) :
    (if c then s else t).Ok p := by
  by_cases hc : c
  · simpa only [hc, if_true] using h1 hc
  · simpa only [hc, if_false] using h2 hc

/-- An outcome keeps the predicate: a next state has it. -/
structure Outcome.Keeps (p : List Instr) (o : Host.Outcome State Fault Refusal) : Prop where
  /-- The next state has the predicate. -/
  ok : ∀ t, o = .next t → t.Ok p

/-- A next state that has the predicate. -/
theorem Outcome.keeps_next {p : List Instr} {s : State} (h : s.Ok p) : Outcome.Keeps p (.next s) :=
  ⟨fun _ e => by cases e; exact h⟩

/-- A fault has no next state. -/
theorem Outcome.keeps_fault {p : List Instr} {f : Fault} : Outcome.Keeps p (.fault f) := ⟨fun _ e => by cases e⟩

end Sys2Proof.Machine
end

