-- ==== Sys2Proof/Laws/KeepOps.lean ====
section
/-! SUPPORT. The operations keep the predicate State.Ok, one lemma each: replies, holes, stripes, faults and entry to HOLD. -/

set_option Elab.async false
set_option linter.all false

namespace Sys2Proof.Machine

theorem State.wr_ok {p : List Instr} (s : State) (off v : Nat) (ok_s : s.Ok p) : (s.wr off v).Ok p := by
  obtain ⟨hp, hi⟩ := ok_s
  rw [State.inv_iff] at hi
  exact ⟨hp, (State.inv_iff _).2 ⟨storeWf_put _ _ _ _ hi.1, hi.2⟩⟩

theorem State.setFld_ok {pend : List Instr} (s : State) (off : Nat) (lo : Nat) (n : Nat) (v : Nat) (ok_s : s.Ok pend) :
    (State.setFld s off lo n v).Ok pend := by
  unfold State.setFld
  repeat' first
    | with_reducible assumption | with_reducible refine State.ok_upd ?_ | with_reducible apply State.wr_ok | extract_lets | split
    | (dsimp only; with_reducible assumption) | intro _ | rw [State.mk_upd] | dsimp +zetaDelta only

theorem State.setFlag_ok {pend : List Instr} (s : State) (off : Nat) (k : Nat) (b : Bool) (ok_s : s.Ok pend) :
    (State.setFlag s off k b).Ok pend := by
  unfold State.setFlag
  repeat' first
    | with_reducible assumption | with_reducible refine State.ok_upd ?_ | with_reducible apply State.wr_ok | extract_lets | split
    | (dsimp only; with_reducible assumption) | intro _ | rw [State.mk_upd] | dsimp +zetaDelta only

theorem State.hwSet_ok {pend : List Instr} (s : State) (off : Nat) (w : Nat) (n : Nat) (ok_s : s.Ok pend) :
    (State.hwSet s off w n).Ok pend := by
  unfold State.hwSet
  repeat' first
    | with_reducible assumption | with_reducible refine State.ok_upd ?_ | extract_lets | split
    | (dsimp only; with_reducible assumption) | intro _ | rw [State.mk_upd] | dsimp +zetaDelta only

theorem State.setW1c_ok {pend : List Instr} (s : State) (off : Nat) (k : Nat) (ok_s : s.Ok pend) :
    (State.setW1c s off k).Ok pend := by
  unfold State.setW1c
  repeat' first
    | with_reducible assumption | with_reducible refine State.ok_upd ?_ | with_reducible apply State.hwSet_ok
    | with_reducible apply State.setFlag_ok | extract_lets | split | (dsimp only; with_reducible assumption) | intro _
    | rw [State.mk_upd] | dsimp +zetaDelta only

theorem State.countIn_ok {pend : List Instr} (s : State) (top : Nat) (off : Nat) (n : Nat) (ok_s : s.Ok pend) :
    (State.countIn s top off n).Ok pend := by
  unfold State.countIn
  repeat' first
    | with_reducible assumption | with_reducible refine State.ok_upd ?_ | with_reducible apply State.hwSet_ok
    | with_reducible apply State.wr_ok | extract_lets | split | (dsimp only; with_reducible assumption) | intro _
    | rw [State.mk_upd] | dsimp +zetaDelta only

theorem State.count_ok {pend : List Instr} (s : State) (off : Nat) (n : Nat) (ok_s : s.Ok pend) :
    (State.count s off n).Ok pend := by
  unfold State.count
  repeat' first
    | with_reducible assumption | with_reducible refine State.ok_upd ?_ | with_reducible apply State.countIn_ok | extract_lets
    | split | (dsimp only; with_reducible assumption) | intro _ | rw [State.mk_upd] | dsimp +zetaDelta only

theorem State.emit_ok {pend : List Instr} (s : State) (o : Out) (ok_s : s.Ok pend) :
    (State.emit s o).Ok pend := by
  unfold State.emit
  repeat' first
    | with_reducible assumption | with_reducible refine State.ok_upd ?_ | extract_lets | split
    | (dsimp only; with_reducible assumption) | intro _ | rw [State.mk_upd] | dsimp +zetaDelta only

theorem State.emitPin_ok {pend : List Instr} (s : State) (o : Out) (ok_s : s.Ok pend) :
    (State.emitPin s o).Ok pend := by
  unfold State.emitPin
  repeat' first
    | with_reducible assumption | with_reducible refine State.ok_upd ?_ | with_reducible apply State.emit_ok | extract_lets | split
    | (dsimp only; with_reducible assumption) | intro _ | rw [State.mk_upd] | dsimp +zetaDelta only

theorem State.signal_ok {pend : List Instr} (s : State) (fn : Nat) (vec : Nat) (ok_s : s.Ok pend) :
    (State.signal s fn vec).Ok pend := by
  unfold State.signal
  repeat' first
    | with_reducible assumption | with_reducible refine State.ok_upd ?_ | with_reducible apply State.emit_ok | extract_lets | split
    | (dsimp only; with_reducible assumption) | intro _ | rw [State.mk_upd] | dsimp +zetaDelta only

theorem State.memWrite_ok {p : List Instr} (s : State) (a : Nat) (bs : List Byte) (ok_s : s.Ok p) : (s.memWrite a bs).Ok p := by
  obtain ⟨hp, hi⟩ := ok_s
  rw [State.inv_iff] at hi
  obtain ⟨h1, h2, h3, h4⟩ := hi
  exact ⟨hp, (State.inv_iff _).2 ⟨h1, h2, storeWf_fill _ _ _ _ h3, h4⟩⟩

theorem State.hostWrite_ok {p : List Instr} (s : State) (a : Nat) (bs : List Byte) (ok_s : s.Ok p) : (s.hostWrite a bs).Ok p := by
  obtain ⟨hp, hi⟩ := ok_s
  rw [State.inv_iff] at hi
  obtain ⟨h1, h2, h3, h4, h5⟩ := hi
  exact ⟨hp, (State.inv_iff _).2 ⟨h1, h2, h3, storeWf_fill _ _ _ _ h4, h5⟩⟩

theorem State.tookFree_ok {pend : List Instr} (s : State) (ok_s : s.Ok pend) :
    (State.tookFree s).Ok pend := by
  unfold State.tookFree
  repeat' first
    | with_reducible assumption | with_reducible refine State.ok_upd ?_ | extract_lets | split
    | (dsimp only; with_reducible assumption) | intro _ | rw [State.mk_upd] | dsimp +zetaDelta only

theorem State.duty_ok {pend : List Instr} (s : State) (n : Nat) (regs : List (Nat × Nat)) (ok_s : s.Ok pend) :
    (State.duty s n regs).Ok pend := by
  unfold State.duty
  repeat' first
    | with_reducible assumption | with_reducible refine State.ok_upd ?_ | with_reducible apply State.wr_ok
    | with_reducible apply State.ok_foldl | extract_lets | split | (dsimp only; with_reducible assumption) | intro _
    | rw [State.mk_upd] | dsimp +zetaDelta only

theorem State.resultOut_ok {pend : List Instr} (s : State) (pk : Packet) (bs : List Byte) (ok_s : s.Ok pend) :
    (State.resultOut s pk bs).Ok pend := by
  unfold State.resultOut
  repeat' first
    | with_reducible assumption | with_reducible refine State.ok_upd ?_ | with_reducible apply State.duty_ok
    | with_reducible apply State.hostWrite_ok | extract_lets | split | (dsimp only; with_reducible assumption) | intro _
    | rw [State.mk_upd] | dsimp +zetaDelta only

theorem State.chanHalts_ok {pend : List Instr} (s : State) (f : Nat × Nat) (ok_s : s.Ok pend) :
    (State.chanHalts s f).Ok pend := by
  unfold State.chanHalts
  repeat' first
    | with_reducible assumption | with_reducible refine State.ok_upd ?_ | with_reducible apply State.wr_ok | extract_lets | split
    | (dsimp only; with_reducible assumption) | intro _ | rw [State.mk_upd] | dsimp +zetaDelta only

theorem State.dataOut_ok {pend : List Instr} (s : State) (pk : Packet) (bs : List Byte) (ok_s : s.Ok pend) :
    (State.dataOut s pk bs).Ok pend := by
  unfold State.dataOut
  repeat' first
    | with_reducible assumption | with_reducible refine State.ok_upd ?_ | with_reducible apply State.chanHalts_ok
    | with_reducible apply State.resultOut_ok | extract_lets | split | (dsimp only; with_reducible assumption) | intro _
    | rw [State.mk_upd] | dsimp +zetaDelta only

theorem State.complete_ok {pend : List Instr} (s : State) (pk : Packet) (r : Reply) (ok_s : s.Ok pend) :
    (State.complete s pk r).Ok pend := by
  unfold State.complete
  repeat' first
    | with_reducible assumption | with_reducible refine State.ok_upd ?_ | with_reducible apply State.dataOut_ok | extract_lets
    | split | (dsimp only; with_reducible assumption) | intro _ | rw [State.mk_upd] | dsimp +zetaDelta only

theorem State.untake_ok {pend : List Instr} (s : State) (pk : Packet) (ok_s : s.Ok pend) :
    (State.untake s pk).Ok pend := by
  unfold State.untake
  repeat' first
    | with_reducible assumption | with_reducible refine State.ok_upd ?_ | extract_lets | split
    | (dsimp only; with_reducible assumption) | intro _ | rw [State.mk_upd] | dsimp +zetaDelta only

theorem State.take_ok {pend : List Instr} (s : State) (pk : Packet) (ok_s : s.Ok pend) :
    (State.take s pk).Ok pend := by
  unfold State.take
  repeat' first
    | with_reducible assumption | with_reducible refine State.ok_upd ?_ | extract_lets | split
    | (dsimp only; with_reducible assumption) | intro _ | rw [State.mk_upd] | dsimp +zetaDelta only

theorem State.updStripe_ok {pend : List Instr} (s : State) (h : Nat) (f : Stripe → Stripe) (ok_s : s.Ok pend) :
    (State.updStripe s h f).Ok pend := by
  unfold State.updStripe
  repeat' first
    | with_reducible assumption | with_reducible refine State.ok_upd ?_ | extract_lets | split
    | (dsimp only; with_reducible assumption) | intro _ | rw [State.mk_upd] | dsimp +zetaDelta only

theorem State.addHole_ok {pend : List Instr} (s : State) (handle : Nat) (h : Hole) (ok_s : s.Ok pend) : (s.addHole handle h).Ok pend := by
  unfold State.addHole
  split
  · have h1 := State.updStripe_ok s handle (fun x => x.withHole h true) ok_s
    rw [State.mk_upd]
    refine State.ok_updTab h1 rfl h1.log h1.jobs h1.stripes ?_
    have hl : (s.updStripe handle (fun x => x.withHole h true)).lay.holes = s.lay.holes := rfl
    simp only [List.length_append, List.length_cons, List.length_nil, hl]
    omega
  · rw [State.mk_upd]
    exact State.ok_upd (State.updStripe_ok s handle _ ok_s)

theorem State.charge_ok {pend : List Instr} (s : State) (t : T16) (ok_s : s.Ok pend) :
    (State.charge s t).Ok pend := by
  unfold State.charge
  repeat' first
    | with_reducible assumption | with_reducible refine State.ok_upd ?_ | extract_lets | split
    | (dsimp only; with_reducible assumption) | intro _ | rw [State.mk_upd] | dsimp +zetaDelta only

theorem State.emptyFoot_ok {pend : List Instr} (s : State) (ok_s : s.Ok pend) :
    (State.emptyFoot s).Ok pend := by
  unfold State.emptyFoot
  repeat' first
    | with_reducible assumption | with_reducible refine State.ok_upd ?_ | with_reducible apply State.setFld_ok
    | with_reducible apply State.wr_ok | extract_lets | split | (dsimp only; with_reducible assumption) | intro _
    | rw [State.mk_upd] | dsimp +zetaDelta only

theorem State.pulse_ok {pend : List Instr} (s : State) (src : Nat) (ok_s : s.Ok pend) :
    (State.pulse s src).Ok pend := by
  unfold State.pulse
  repeat' first
    | with_reducible assumption | with_reducible refine State.ok_upd ?_ | extract_lets | split
    | (dsimp only; with_reducible assumption) | intro _ | rw [State.mk_upd] | dsimp +zetaDelta only

theorem State.footFor_ok {pend : List Instr} (s : State) (h : Nat) (ok_s : s.Ok pend) :
    (State.footFor s h).Ok pend := by
  unfold State.footFor
  repeat' first
    | with_reducible assumption | with_reducible refine State.ok_upd ?_ | with_reducible apply State.emptyFoot_ok
    | with_reducible apply State.wr_ok | extract_lets | split | (dsimp only; with_reducible assumption) | intro _
    | rw [State.mk_upd] | dsimp +zetaDelta only

theorem State.freeSlot_ok {pend : List Instr} (s : State) (n : Nat) (ok_s : s.Ok pend) :
    (State.freeSlot s n).Ok pend := by
  unfold State.freeSlot
  repeat' first
    | with_reducible assumption | with_reducible refine State.ok_upd ?_ | with_reducible apply State.wr_ok | extract_lets | split
    | (dsimp only; with_reducible assumption) | intro _ | rw [State.mk_upd] | dsimp +zetaDelta only

theorem State.slotBack_ok {pend : List Instr} (s : State) (n : Nat) (ok_s : s.Ok pend) :
    (State.slotBack s n).Ok pend := by
  unfold State.slotBack
  repeat' first
    | with_reducible assumption | with_reducible refine State.ok_upd ?_ | with_reducible apply State.setFld_ok | extract_lets
    | split | (dsimp only; with_reducible assumption) | intro _ | rw [State.mk_upd] | dsimp +zetaDelta only

theorem State.completeStripe_ok {pend : List Instr} (s : State) (handle : Nat) (ok_s : s.Ok pend) :
    (State.completeStripe s handle).Ok pend := by
  unfold State.completeStripe
  repeat' first
    | with_reducible assumption | with_reducible refine State.ok_upd ?_ | with_reducible apply State.complete_ok | extract_lets
    | split | (dsimp only; with_reducible assumption) | intro _ | rw [State.mk_upd] | dsimp +zetaDelta only

theorem State.dropStripe_ok {pend : List Instr} (s : State) (handle : Nat) (ok_s : s.Ok pend) :
    (State.dropStripe s handle).Ok pend := by
  unfold State.dropStripe
  repeat' first
    | with_reducible assumption | with_reducible refine State.ok_upd ?_ | with_reducible apply State.complete_ok | extract_lets
    | split | (dsimp only; with_reducible assumption) | intro _ | rw [State.mk_upd] | dsimp +zetaDelta only

theorem State.setRec_ok {pend : List Instr} (s : State) (r : FaultRec) (ok_s : s.Ok pend) :
    (State.setRec s r).Ok pend := by
  unfold State.setRec
  repeat' first
    | with_reducible assumption | with_reducible refine State.ok_upd ?_ | extract_lets | split
    | (dsimp only; with_reducible assumption) | intro _ | rw [State.mk_upd] | dsimp +zetaDelta only

theorem State.tie_ok {pend : List Instr} (s : State) (p : Instr → Bool) (ok_s : s.Ok pend) :
    (State.tie s p).2.Ok pend := by
  unfold State.tie
  repeat' first
    | with_reducible assumption | with_reducible refine State.ok_upd ?_ | extract_lets | split
    | (dsimp only; with_reducible assumption) | intro _ | rw [State.mk_upd] | dsimp +zetaDelta only

theorem State.tie_ok_of {pend : List Instr} {s : State} {p : Instr → Bool} (ok_s : s.Ok pend) {r} {t : State} (e : State.tie s p = (r, t)) :
    t.Ok pend := by
  have h := State.tie_ok s p ok_s
  rw [e] at h
  exact h

theorem State.setSev_ok {pend : List Instr} (s : State) (src : Nat) (v : Nat) (ok_s : s.Ok pend) :
    (State.setSev s src v).Ok pend := by
  unfold State.setSev
  repeat' first
    | with_reducible assumption | with_reducible refine State.ok_upd ?_ | extract_lets | split
    | (dsimp only; with_reducible assumption) | intro _ | rw [State.mk_upd] | dsimp +zetaDelta only

theorem State.aliveCheck_ok {pend : List Instr} (s : State) (ok_s : s.Ok pend) :
    (State.aliveCheck s).Ok pend := by
  unfold State.aliveCheck
  repeat' first
    | with_reducible assumption | with_reducible refine State.ok_upd ?_ | with_reducible apply State.emitPin_ok | extract_lets
    | split | (dsimp only; with_reducible assumption) | intro _ | rw [State.mk_upd] | dsimp +zetaDelta only

theorem State.markOnset_ok {pend : List Instr} (s : State) (r : Raise) (ok_s : s.Ok pend) :
    (State.markOnset s r).Ok pend := by
  unfold State.markOnset
  repeat' first
    | with_reducible assumption | with_reducible refine State.ok_upd ?_ | with_reducible apply State.setRec_ok | extract_lets
    | split | (dsimp only; with_reducible assumption) | intro _ | rw [State.mk_upd] | dsimp +zetaDelta only

theorem State.mergeMore_ok {pend : List Instr} (s : State) (src : Nat) (n : Nat) (ok_s : s.Ok pend) :
    (State.mergeMore s src n).Ok pend := by
  unfold State.mergeMore
  repeat' first
    | with_reducible assumption | with_reducible refine State.ok_upd ?_ | with_reducible apply State.setRec_ok | extract_lets
    | split | (dsimp only; with_reducible assumption) | intro _ | rw [State.mk_upd] | dsimp +zetaDelta only

theorem State.record_ok {pend : List Instr} (s : State) (r : Raise) (e : Nat) (snap : Bool) (ok_s : s.Ok pend) : (s.record r e snap).Ok pend := by
  unfold State.record
  extract_lets
  split
  extract_lets
  rw [State.mk_upd]
  refine State.ok_updTab (State.setRec_ok _ _ ok_s) rfl ?_ (State.setRec_ok _ _ ok_s).jobs (State.setRec_ok _ _ ok_s).stripes (State.setRec_ok _ _ ok_s).holes
  simp only [List.length_append, List.length_cons, List.length_nil]
  have hl : ∀ l : List LogEntry, l.length ≤ 256 → (if 256 ≤ l.length then l.drop 1 else l).length + (0 + 1) ≤ 256 := by
    intro l h
    split
    · rw [List.length_drop]; omega
    · omega
  exact hl _ (State.setRec_ok _ _ ok_s).log

theorem State.countInternal_ok {pend : List Instr} (s : State) (r : Raise) (e : Nat) (ok_s : s.Ok pend) :
    (State.countInternal s r e).Ok pend := by
  unfold State.countInternal
  repeat' first
    | with_reducible assumption | with_reducible refine State.ok_upd ?_ | with_reducible apply State.count_ok | extract_lets | split
    | (dsimp only; with_reducible assumption) | intro _ | rw [State.mk_upd] | dsimp +zetaDelta only

theorem State.newSnapshot_ok {pend : List Instr} (s : State) (cause rail : Nat) (ok_s : s.Ok pend) : (s.newSnapshot cause rail).Ok pend := by
  unfold State.newSnapshot
  extract_lets head i lost e _ s1 _ s2 s3 s4 _ s5
  clear_value head i lost e
  have h1 : s1.Ok pend := by
    simp only [s1]
    rw [State.mk_upd]
    exact State.ok_upd ok_s
  clear_value s1
  have h2 : s2.Ok pend := by
    simp only [s2]
    split
    · rw [State.mk_upd]
      exact State.ok_upd h1
    · exact h1
  clear_value s2
  have h4 : s4.Ok pend := State.setFld_ok _ _ _ _ _ (State.setFld_ok _ _ _ _ _ h2)
  clear_value s4
  have h5 : s5.Ok pend := by
    simp only [s5]
    rw [State.mk_upd]
    exact State.ok_upd h4
  clear_value s5
  split
  · exact State.setFlag_ok _ _ _ _ h5
  · exact h5

theorem State.takeSnapshot_ok {pend : List Instr} (s : State) (cause : Nat) (rail : Nat) (ok_s : s.Ok pend) :
    (State.takeSnapshot s cause rail).Ok pend := by
  unfold State.takeSnapshot
  repeat' first
    | with_reducible assumption | with_reducible refine State.ok_upd ?_ | with_reducible apply State.newSnapshot_ok | extract_lets
    | split | (dsimp only; with_reducible assumption) | intro _ | rw [State.mk_upd] | dsimp +zetaDelta only

theorem State.onOneClock_ok {pend : List Instr} (s : State) (f : State → State) (ok_s : s.Ok pend) (ok_f : ∀ (x0 : State), x0.Ok pend → (f x0).Ok pend) :
    (State.onOneClock s f).Ok pend := by
  unfold State.onOneClock
  repeat' first
    | with_reducible assumption | with_reducible refine State.ok_upd ?_ | with_reducible apply ok_f | extract_lets | split
    | (dsimp only; with_reducible assumption) | intro _ | rw [State.mk_upd] | dsimp +zetaDelta only

theorem State.decidePk_ok {pend : List Instr} (s : State) (pk : Packet) (o : OpSpec) (act : State → State) (ok_s : s.Ok pend) (ok_act : ∀ (x0 : State), x0.Ok pend → (act x0).Ok pend) :
    (State.decidePk s pk o act).Ok pend := by
  unfold State.decidePk
  repeat' first
    | with_reducible assumption | with_reducible refine State.ok_upd ?_ | with_reducible apply ok_act
    | with_reducible apply State.complete_ok | with_reducible apply State.take_ok | extract_lets | split
    | (dsimp only; with_reducible assumption) | intro _ | rw [State.mk_upd] | dsimp +zetaDelta only

theorem State.setRailState_ok {pend : List Instr} (s : State) (n : Nat) (v : Nat) (ok_s : s.Ok pend) :
    (State.setRailState s n v).Ok pend := by
  unfold State.setRailState
  repeat' first
    | with_reducible assumption | with_reducible refine State.ok_upd ?_ | with_reducible apply State.setFld_ok | extract_lets
    | split | (dsimp only; with_reducible assumption) | intro _ | rw [State.mk_upd] | dsimp +zetaDelta only

theorem State.updRail_ok {pend : List Instr} (s : State) (n : Nat) (f : Rail → Rail) (ok_s : s.Ok pend) :
    (State.updRail s n f).Ok pend := by
  unfold State.updRail
  repeat' first
    | with_reducible assumption | with_reducible refine State.ok_upd ?_ | extract_lets | split
    | (dsimp only; with_reducible assumption) | intro _ | rw [State.mk_upd] | dsimp +zetaDelta only

theorem State.driveEn_ok {pend : List Instr} (s : State) (n : Nat) (b : Bool) (ok_s : s.Ok pend) :
    (State.driveEn s n b).Ok pend := by
  unfold State.driveEn
  repeat' first
    | with_reducible assumption | with_reducible refine State.ok_upd ?_ | with_reducible apply State.emit_ok
    | with_reducible apply State.setFlag_ok | extract_lets | split | (dsimp only; with_reducible assumption) | intro _
    | rw [State.mk_upd] | dsimp +zetaDelta only

theorem State.heatersLow_ok {pend : List Instr} (s : State) (ok_s : s.Ok pend) :
    (State.heatersLow s).Ok pend := by
  unfold State.heatersLow
  repeat' first
    | with_reducible assumption | with_reducible refine State.ok_upd ?_ | extract_lets | split
    | (dsimp only; with_reducible assumption) | intro _ | rw [State.mk_upd] | dsimp +zetaDelta only

theorem State.switchOff_ok {pend : List Instr} (s : State) (n : Nat) (ok_s : s.Ok pend) :
    (State.switchOff s n).Ok pend := by
  unfold State.switchOff
  repeat' first
    | with_reducible assumption | with_reducible refine State.ok_upd ?_ | with_reducible apply State.driveEn_ok
    | with_reducible apply State.heatersLow_ok | with_reducible apply State.setRailState_ok | with_reducible apply State.updRail_ok
    | extract_lets | split | (dsimp only; with_reducible assumption) | intro _ | rw [State.mk_upd] | dsimp +zetaDelta only

theorem State.permit_ok {pend : List Instr} (s : State) (ok_s : s.Ok pend) :
    (State.permit s).Ok pend := by
  unfold State.permit
  repeat' first
    | with_reducible assumption | with_reducible refine State.ok_upd ?_ | with_reducible apply State.setRailState_ok
    | with_reducible apply State.ok_foldl | extract_lets | split | (dsimp only; with_reducible assumption) | intro _
    | rw [State.mk_upd] | dsimp +zetaDelta only

theorem State.setPhase_ok {pend : List Instr} (s : State) (v : Nat) (ok_s : s.Ok pend) :
    (State.setPhase s v).Ok pend := by
  unfold State.setPhase
  repeat' first
    | with_reducible assumption | with_reducible refine State.ok_upd ?_ | with_reducible apply State.setFld_ok | extract_lets
    | split | (dsimp only; with_reducible assumption) | intro _ | rw [State.mk_upd] | dsimp +zetaDelta only

theorem State.pullSeq_ok {pend : List Instr} (s : State) (ok_s : s.Ok pend) :
    (State.pullSeq s).Ok pend := by
  unfold State.pullSeq
  repeat' first
    | with_reducible assumption | with_reducible refine State.ok_upd ?_ | with_reducible apply State.setFlag_ok | extract_lets
    | split | (dsimp only; with_reducible assumption) | intro _ | rw [State.mk_upd] | dsimp +zetaDelta only

theorem State.releaseSeq_ok {pend : List Instr} (s : State) (ok_s : s.Ok pend) :
    (State.releaseSeq s).Ok pend := by
  unfold State.releaseSeq
  repeat' first
    | with_reducible assumption | with_reducible refine State.ok_upd ?_ | with_reducible apply State.setFlag_ok | extract_lets
    | split | (dsimp only; with_reducible assumption) | intro _ | rw [State.mk_upd] | dsimp +zetaDelta only

theorem State.restartRail_ok {pend : List Instr} (s : State) (n : Nat) (ok_s : s.Ok pend) :
    (State.restartRail s n).Ok pend := by
  unfold State.restartRail
  repeat' first
    | with_reducible assumption | with_reducible refine State.ok_upd ?_ | with_reducible apply State.setFlag_ok
    | with_reducible apply State.setRailState_ok | with_reducible apply State.updRail_ok | extract_lets | split
    | (dsimp only; with_reducible assumption) | intro _ | rw [State.mk_upd] | dsimp +zetaDelta only

theorem State.holdOffNext_ok {pend : List Instr} (s : State) (ok_s : s.Ok pend) :
    (State.holdOffNext s).Ok pend := by
  unfold State.holdOffNext
  repeat' first
    | with_reducible assumption | with_reducible refine State.ok_upd ?_ | with_reducible apply State.setFlag_ok
    | with_reducible apply State.switchOff_ok | extract_lets | split | (dsimp only; with_reducible assumption) | intro _
    | rw [State.mk_upd] | dsimp +zetaDelta only

theorem State.holdRails_ok {pend : List Instr} (s : State) (ok_s : s.Ok pend) :
    (State.holdRails s).Ok pend := by
  unfold State.holdRails
  repeat' first
    | with_reducible assumption | with_reducible refine State.ok_upd ?_ | with_reducible apply State.holdOffNext_ok
    | with_reducible apply State.releaseSeq_ok | with_reducible apply State.setFlag_ok | with_reducible apply State.setRailState_ok
    | with_reducible apply State.updRail_ok | with_reducible apply State.ok_foldl | extract_lets | split
    | (dsimp only; with_reducible assumption) | intro _ | rw [State.mk_upd] | dsimp +zetaDelta only

theorem State.serviceRails_ok {pend : List Instr} (s : State) (ok_s : s.Ok pend) :
    (State.serviceRails s).Ok pend := by
  unfold State.serviceRails
  repeat' first
    | with_reducible assumption | with_reducible refine State.ok_upd ?_ | with_reducible apply State.permit_ok
    | with_reducible apply State.restartRail_ok | with_reducible apply State.ok_foldl | extract_lets | split
    | (dsimp only; with_reducible assumption) | intro _ | rw [State.mk_upd] | dsimp +zetaDelta only

theorem State.updAxis_ok {pend : List Instr} (s : State) (a : Nat) (f : Axis → Axis) (ok_s : s.Ok pend) :
    (State.updAxis s a f).Ok pend := by
  unfold State.updAxis
  repeat' first
    | with_reducible assumption | with_reducible refine State.ok_upd ?_ | extract_lets | split
    | (dsimp only; with_reducible assumption) | intro _ | rw [State.mk_upd] | dsimp +zetaDelta only

theorem State.setAxisState_ok {pend : List Instr} (s : State) (a : Nat) (v : Nat) (ok_s : s.Ok pend) :
    (State.setAxisState s a v).Ok pend := by
  unfold State.setAxisState
  repeat' first
    | with_reducible assumption | with_reducible refine State.ok_upd ?_ | with_reducible apply State.setFld_ok | extract_lets
    | split | (dsimp only; with_reducible assumption) | intro _ | rw [State.mk_upd] | dsimp +zetaDelta only

theorem State.axisReply_ok {pend : List Instr} (s : State) (a : Nat) (r : Reply) (ok_s : s.Ok pend) :
    (State.axisReply s a r).Ok pend := by
  unfold State.axisReply
  repeat' first
    | with_reducible assumption | with_reducible refine State.ok_upd ?_ | with_reducible apply State.complete_ok
    | with_reducible apply State.updAxis_ok | with_reducible apply State.ok_foldl | extract_lets | split
    | (dsimp only; with_reducible assumption) | intro _ | rw [State.mk_upd] | dsimp +zetaDelta only

theorem State.axisRests_ok {pend : List Instr} (s : State) (a : Nat) (kept : Nat) (ok_s : s.Ok pend) :
    (State.axisRests s a kept).Ok pend := by
  unfold State.axisRests
  repeat' first
    | with_reducible assumption | with_reducible refine State.ok_upd ?_ | with_reducible apply State.complete_ok
    | with_reducible apply State.setAxisState_ok | with_reducible apply State.setFlag_ok | with_reducible apply State.updAxis_ok
    | with_reducible apply State.wr_ok | with_reducible apply State.ok_foldl | extract_lets | split
    | (dsimp only; with_reducible assumption) | intro _ | rw [State.mk_upd] | dsimp +zetaDelta only

theorem State.homeLost_ok {pend : List Instr} (s : State) (a : Nat) (ok_s : s.Ok pend) :
    (State.homeLost s a).Ok pend := by
  unfold State.homeLost
  repeat' first
    | with_reducible assumption | with_reducible refine State.ok_upd ?_ | with_reducible apply State.updAxis_ok | extract_lets
    | split | (dsimp only; with_reducible assumption) | intro _ | rw [State.mk_upd] | dsimp +zetaDelta only

theorem State.moveCode_ok {pend : List Instr} (s : State) (a : Nat) (hard : Bool) (ok_s : s.Ok pend) :
    (State.moveCode s a hard).Ok pend := by
  unfold State.moveCode
  repeat' first
    | with_reducible assumption | with_reducible refine State.ok_upd ?_ | with_reducible apply State.updAxis_ok | extract_lets
    | split | (dsimp only; with_reducible assumption) | intro _ | rw [State.mk_upd] | dsimp +zetaDelta only

theorem State.stopRequest_ok {pend : List Instr} (s0 : State) (a : Nat) (ok_s0 : s0.Ok pend) :
    (State.stopRequest s0 a).Ok pend := by
  unfold State.stopRequest
  repeat' first
    | with_reducible assumption | with_reducible refine State.ok_upd ?_ | with_reducible apply State.axisRests_ok
    | with_reducible apply State.homeLost_ok | with_reducible apply State.moveCode_ok | with_reducible apply State.setAxisState_ok
    | with_reducible apply State.updAxis_ok | extract_lets | split | (dsimp only; with_reducible assumption) | intro _
    | rw [State.mk_upd] | dsimp +zetaDelta only

theorem State.faultStop_ok {pend : List Instr} (s : State) (a : Nat) (bitOf : Option Nat) (ok_s : s.Ok pend) :
    (State.faultStop s a bitOf).Ok pend := by
  unfold State.faultStop
  repeat' first
    | with_reducible assumption | with_reducible refine State.ok_upd ?_ | with_reducible apply State.axisReply_ok
    | with_reducible apply State.homeLost_ok | with_reducible apply State.setAxisState_ok | with_reducible apply State.setFlag_ok
    | with_reducible apply State.tookFree_ok | with_reducible apply State.updAxis_ok | with_reducible apply State.wr_ok
    | extract_lets | split | (dsimp only; with_reducible assumption) | intro _ | rw [State.mk_upd] | dsimp +zetaDelta only

theorem State.eachAxis_ok {pend : List Instr} (s : State) (f : State → Nat → State) (ok_s : s.Ok pend) (ok_f : ∀ (x0 : State) (x1 : Nat), x0.Ok pend → (f x0 x1).Ok pend) :
    (State.eachAxis s f).Ok pend := by
  unfold State.eachAxis
  repeat' first
    | with_reducible assumption | with_reducible refine State.ok_upd ?_ | with_reducible apply ok_f
    | with_reducible apply State.ok_foldl | extract_lets | split | (dsimp only; with_reducible assumption) | intro _
    | rw [State.mk_upd] | dsimp +zetaDelta only

theorem State.idleOn_ok {pend : List Instr} (s : State) (lanes : List Nat) (ok_s : s.Ok pend) :
    (State.idleOn s lanes).Ok pend := by
  unfold State.idleOn
  repeat' first
    | with_reducible assumption | with_reducible refine State.ok_upd ?_ | with_reducible apply State.emit_ok | extract_lets | split
    | (dsimp only; with_reducible assumption) | intro _ | rw [State.mk_upd] | dsimp +zetaDelta only

theorem State.sendFrames_ok {pend : List Instr} (s : State) (h : FrameHead) (data : Nat → List Block) (ok_s : s.Ok pend) :
    (State.sendFrames s h data).Ok pend := by
  unfold State.sendFrames
  repeat' first
    | with_reducible assumption | with_reducible refine State.ok_upd ?_ | with_reducible apply State.emit_ok
    | with_reducible apply State.idleOn_ok | extract_lets | split | (dsimp only; with_reducible assumption) | intro _
    | rw [State.mk_upd] | dsimp +zetaDelta only

theorem State.sendShot_ok {pend : List Instr} (s : State) (h : FrameHead) (values : List Byte) (ok_s : s.Ok pend) :
    (State.sendShot s h values).Ok pend := by
  unfold State.sendShot
  repeat' first
    | with_reducible assumption | with_reducible refine State.ok_upd ?_ | with_reducible apply State.count_ok
    | with_reducible apply State.sendFrames_ok | extract_lets | split | (dsimp only; with_reducible assumption) | intro _
    | rw [State.mk_upd] | dsimp +zetaDelta only

theorem State.sendIdle_ok {pend : List Instr} (s : State) (ok_s : s.Ok pend) :
    (State.sendIdle s).Ok pend := by
  unfold State.sendIdle
  repeat' first
    | with_reducible assumption | with_reducible refine State.ok_upd ?_ | with_reducible apply State.count_ok
    | with_reducible apply State.sendFrames_ok | extract_lets | split | (dsimp only; with_reducible assumption) | intro _
    | rw [State.mk_upd] | dsimp +zetaDelta only

theorem State.applySpare_ok {pend : List Instr} (s : State) (n : Nat) (ok_s : s.Ok pend) :
    (State.applySpare s n).Ok pend := by
  unfold State.applySpare
  repeat' first
    | with_reducible assumption | with_reducible refine State.ok_upd ?_ | with_reducible apply State.count_ok
    | with_reducible apply State.idleOn_ok | with_reducible apply State.setFld_ok | extract_lets | split
    | (dsimp only; with_reducible assumption) | intro _ | rw [State.mk_upd] | dsimp +zetaDelta only

theorem State.autoSpare_ok {pend : List Instr} (s : State) (lane : Nat) (ok_s : s.Ok pend) :
    (State.autoSpare s lane).Ok pend := by
  unfold State.autoSpare
  repeat' first
    | with_reducible assumption | with_reducible refine State.ok_upd ?_ | with_reducible apply State.wr_ok | extract_lets | split
    | (dsimp only; with_reducible assumption) | intro _ | rw [State.mk_upd] | dsimp +zetaDelta only

theorem State.spares_ok {pend : List Instr} (s : State) (ok_s : s.Ok pend) :
    (State.spares s).Ok pend := by
  unfold State.spares
  repeat' first
    | with_reducible assumption | with_reducible refine State.ok_upd ?_ | with_reducible apply State.applySpare_ok
    | with_reducible apply State.autoSpare_ok | with_reducible apply State.ok_foldl | extract_lets | split
    | (dsimp only; with_reducible assumption) | intro _ | rw [State.mk_upd] | dsimp +zetaDelta only

theorem State.sparesAnew_ok {pend : List Instr} (s : State) (ok_s : s.Ok pend) :
    (State.sparesAnew s).Ok pend := by
  unfold State.sparesAnew
  repeat' first
    | with_reducible assumption | with_reducible refine State.ok_upd ?_ | with_reducible apply State.spares_ok | extract_lets
    | split | (dsimp only; with_reducible assumption) | intro _ | rw [State.mk_upd] | dsimp +zetaDelta only

theorem State.boundary_ok {pend : List Instr} (s : State) (ok_s : s.Ok pend) :
    (State.boundary s).Ok pend := by
  unfold State.boundary
  repeat' first
    | with_reducible assumption | with_reducible refine State.ok_upd ?_ | with_reducible apply State.emptyFoot_ok
    | with_reducible apply State.pulse_ok | with_reducible apply State.setFld_ok | with_reducible apply State.slotBack_ok
    | with_reducible apply State.spares_ok | with_reducible apply State.ok_foldl | extract_lets | split
    | (dsimp only; with_reducible assumption) | intro _ | rw [State.mk_upd] | dsimp +zetaDelta only

theorem State.closeRun_ok {pend : List Instr} (s : State) (c : CheckRun) (ok_s : s.Ok pend) :
    (State.closeRun s c).2.Ok pend := by
  unfold State.closeRun
  repeat' first
    | with_reducible assumption | with_reducible refine State.ok_upd ?_ | with_reducible apply State.tookFree_ok | extract_lets
    | split | (dsimp only; with_reducible assumption) | intro _ | rw [State.mk_upd] | dsimp +zetaDelta only

theorem State.closeRun_ok_of {pend : List Instr} {s : State} {c : CheckRun} (ok_s : s.Ok pend) {r} {t : State} (e : State.closeRun s c = (r, t)) :
    t.Ok pend := by
  have h := State.closeRun_ok s c ok_s
  rw [e] at h
  exact h

theorem State.logHole_ok {pend : List Instr} (s : State) (x : Stripe) (h : Hole) (internal : Bool) (ok_s : s.Ok pend) :
    (State.logHole s x h internal).Ok pend := by
  unfold State.logHole
  repeat' first
    | with_reducible assumption | with_reducible refine State.ok_upd ?_ | with_reducible apply State.addHole_ok
    | with_reducible apply State.charge_ok | extract_lets | split | (dsimp only; with_reducible assumption) | intro _
    | rw [State.mk_upd] | dsimp +zetaDelta only

theorem State.logLines_ok {pend : List Instr} (s : State) (x : Stripe) (r : LineRun) (ok_s : s.Ok pend) :
    (State.logLines s x r).Ok pend := by
  unfold State.logLines
  repeat' first
    | with_reducible assumption | with_reducible refine State.ok_upd ?_ | with_reducible apply State.logHole_ok | extract_lets
    | split | (dsimp only; with_reducible assumption) | intro _ | rw [State.mk_upd] | dsimp +zetaDelta only

theorem State.logGroups_ok {pend : List Instr} (s : State) (x : Stripe) (r : GroupRun) (ok_s : s.Ok pend) :
    (State.logGroups s x r).Ok pend := by
  unfold State.logGroups
  repeat' first
    | with_reducible assumption | with_reducible refine State.ok_upd ?_ | with_reducible apply State.logHole_ok | extract_lets
    | split | (dsimp only; with_reducible assumption) | intro _ | rw [State.mk_upd] | dsimp +zetaDelta only

theorem State.noLiveLine_ok {pend : List Instr} (s : State) (x : Stripe) (j : Nat) (ok_s : s.Ok pend) :
    (State.noLiveLine s x j).Ok pend := by
  unfold State.noLiveLine
  repeat' first
    | with_reducible assumption | with_reducible refine State.ok_upd ?_ | with_reducible apply State.logLines_ok | extract_lets
    | split | (dsimp only; with_reducible assumption) | intro _ | rw [State.mk_upd] | dsimp +zetaDelta only

theorem State.noLiveUpto_ok {pend : List Instr} (s : State) (x : Stripe) (lim : Nat) (ok_s : s.Ok pend) :
    (State.noLiveUpto s x lim).Ok pend := by
  unfold State.noLiveUpto
  repeat' first
    | with_reducible assumption | with_reducible refine State.ok_upd ?_ | with_reducible apply State.noLiveLine_ok
    | with_reducible apply State.ok_foldl | extract_lets | split | (dsimp only; with_reducible assumption) | intro _
    | rw [State.mk_upd] | dsimp +zetaDelta only

theorem State.flushRuns_ok {pend : List Instr} (s0 : State) (h : Nat) (ok_s0 : s0.Ok pend) :
    (State.flushRuns s0 h).Ok pend := by
  unfold State.flushRuns
  repeat' first
    | with_reducible assumption | with_reducible refine State.ok_upd ?_ | with_reducible apply State.logGroups_ok
    | with_reducible apply State.logLines_ok | with_reducible apply State.noLiveUpto_ok | with_reducible apply State.updStripe_ok
    | with_reducible apply State.ok_foldl | extract_lets | split | (dsimp only; with_reducible assumption) | intro _
    | rw [State.mk_upd] | dsimp +zetaDelta only

theorem State.flushTail_ok {pend : List Instr} (s : State) (ok_s : s.Ok pend) :
    (State.flushTail s).Ok pend := by
  unfold State.flushTail
  repeat' first
    | with_reducible assumption | with_reducible refine State.ok_upd ?_ | with_reducible apply State.logGroups_ok | extract_lets
    | split | (dsimp only; with_reducible assumption) | intro _ | rw [State.mk_upd] | dsimp +zetaDelta only

theorem State.assertBlank_ok {pend : List Instr} (s : State) (ok_s : s.Ok pend) :
    (State.assertBlank s).Ok pend := by
  unfold State.assertBlank
  repeat' first
    | with_reducible assumption | with_reducible refine State.ok_upd ?_ | with_reducible apply State.count_ok | extract_lets | split
    | (dsimp only; with_reducible assumption) | intro _ | rw [State.mk_upd] | dsimp +zetaDelta only

theorem State.commitReady_ok {pend : List Instr} (s : State) (ok_s : s.Ok pend) :
    (State.commitReady s).Ok pend := by
  unfold State.commitReady
  repeat' first
    | with_reducible assumption | with_reducible refine State.ok_upd ?_ | extract_lets | split
    | (dsimp only; with_reducible assumption) | intro _ | rw [State.mk_upd] | dsimp +zetaDelta only

theorem State.endSpan_ok {pend : List Instr} (s : State) (ok_s : s.Ok pend) :
    (State.endSpan s).Ok pend := by
  unfold State.endSpan
  repeat' first
    | with_reducible assumption | with_reducible refine State.ok_upd ?_ | with_reducible apply State.assertBlank_ok
    | with_reducible apply State.commitReady_ok | with_reducible apply State.flushTail_ok | with_reducible apply State.sendIdle_ok
    | extract_lets | split | (dsimp only; with_reducible assumption) | intro _ | rw [State.mk_upd] | dsimp +zetaDelta only

theorem State.checkSpanEnd_ok {pend : List Instr} (s : State) (ok_s : s.Ok pend) :
    (State.checkSpanEnd s).Ok pend := by
  unfold State.checkSpanEnd
  repeat' first
    | with_reducible assumption | with_reducible refine State.ok_upd ?_ | with_reducible apply State.endSpan_ok | extract_lets
    | split | (dsimp only; with_reducible assumption) | intro _ | rw [State.mk_upd] | dsimp +zetaDelta only

theorem State.setGate_ok {pend : List Instr} (s : State) (high : Bool) (ok_s : s.Ok pend) :
    (State.setGate s high).Ok pend := by
  unfold State.setGate
  repeat' first
    | with_reducible assumption | with_reducible refine State.ok_upd ?_ | with_reducible apply State.emitPin_ok | extract_lets
    | split | (dsimp only; with_reducible assumption) | intro _ | rw [State.mk_upd] | dsimp +zetaDelta only

theorem State.cutStrobes_ok {pend : List Instr} (s : State) (ok_s : s.Ok pend) :
    (State.cutStrobes s).Ok pend := by
  unfold State.cutStrobes
  repeat' first
    | with_reducible assumption | with_reducible refine State.ok_upd ?_ | with_reducible apply State.emit_ok
    | with_reducible apply State.endSpan_ok | with_reducible apply State.ok_foldl | extract_lets | split
    | (dsimp only; with_reducible assumption) | intro _ | rw [State.mk_upd] | dsimp +zetaDelta only

theorem State.cutHole_ok {pend : List Instr} (s : State) (f : Firing) (reason : Nat) (sb : Nat) (internal : Bool) (ok_s : s.Ok pend) :
    (State.cutHole s f reason sb internal).Ok pend := by
  unfold State.cutHole
  repeat' first
    | with_reducible assumption | with_reducible refine State.ok_upd ?_ | with_reducible apply State.addHole_ok
    | with_reducible apply State.charge_ok | extract_lets | split | (dsimp only; with_reducible assumption) | intro _
    | rw [State.mk_upd] | dsimp +zetaDelta only

theorem State.blankRest_ok {pend : List Instr} (s : State) (reason : Nat) (sb : Nat) (cut : Bool) (internal : Bool) (ok_s : s.Ok pend) :
    (State.blankRest s reason sb cut internal).Ok pend := by
  unfold State.blankRest
  repeat' first
    | with_reducible assumption | with_reducible refine State.ok_upd ?_ | with_reducible apply State.addHole_ok
    | with_reducible apply State.boundary_ok | with_reducible apply State.charge_ok | with_reducible apply State.commitReady_ok
    | with_reducible apply State.completeStripe_ok | with_reducible apply State.cutHole_ok
    | with_reducible apply State.cutStrobes_ok | with_reducible apply State.endSpan_ok | with_reducible apply State.flushRuns_ok
    | with_reducible apply State.updStripe_ok | extract_lets | split | (dsimp only; with_reducible assumption) | intro _
    | rw [State.mk_upd] | dsimp +zetaDelta only

theorem State.holdStep_ok {pend : List Instr} (s : State) (committed : Bool) (c : StepCmd) (ok_s : s.Ok pend) :
    (State.holdStep s committed c).Ok pend := by
  unfold State.holdStep
  repeat' first
    | with_reducible assumption | with_reducible refine State.ok_upd ?_ | with_reducible apply State.complete_ok | extract_lets
    | split | (dsimp only; with_reducible assumption) | intro _ | rw [State.mk_upd] | dsimp +zetaDelta only

theorem State.holdRun_ok {pend : List Instr} (s : State) (ok_s : s.Ok pend) : (s.holdRun).Ok pend := by
  unfold State.holdRun
  extract_lets s1 s2
  have h1 : s1.Ok pend := by
    simp only [s1]
    split
    · exact ok_s
    · rename_i c hc
      have h0 : ∀ t : State, t.Ok pend →
          (if (c.phase == StepPhase.applied) = true then { t with applied := c.saved } else t : State).Ok pend := by
        intro t ht
        split
        · rw [State.mk_updAll]
          exact State.ok_updAll ht (ha := fun _ => ok_s.saved hc)
        · exact ht
      apply h0
      split
      · exact State.holdStep_ok _ _ _ ok_s
      · exact ok_s
  have h2 : s2.Ok pend := State.ok_foldl h1 fun t b ht => State.holdStep_ok t false b ht
  rw [State.mk_upd]
  exact State.ok_upd h2

theorem State.stopCheck_ok {pend : List Instr} (s : State) (f : ChkReply) (ok_s : s.Ok pend) :
    (State.stopCheck s f).Ok pend := by
  unfold State.stopCheck
  repeat' first
    | with_reducible assumption | with_reducible refine State.ok_upd ?_ | (refine State.closeRun_ok_of ?_ (by assumption))
    | with_reducible apply State.closeRun_ok | with_reducible apply State.checkSpanEnd_ok
    | with_reducible apply State.commitReady_ok | with_reducible apply State.complete_ok | with_reducible apply State.pulse_ok
    | with_reducible apply State.setFld_ok | with_reducible apply State.setGate_ok | with_reducible apply State.wr_ok | extract_lets
    | split | (dsimp only; with_reducible assumption) | intro _ | rw [State.mk_upd] | dsimp +zetaDelta only

theorem State.outageFrom_ok {pend : List Instr} (s : State) (ok_s : s.Ok pend) :
    (State.outageFrom s).Ok pend := by
  unfold State.outageFrom
  repeat' first
    | with_reducible assumption | with_reducible refine State.ok_upd ?_ | extract_lets | split
    | (dsimp only; with_reducible assumption) | intro _ | rw [State.mk_upd] | dsimp +zetaDelta only

theorem State.holdEntry_ok {pend : List Instr} (s : State) (cause src : Nat) (own : Option Nat) (internal : Bool) (chk : ChkReply)
    (ok_s : s.Ok pend) : (s.holdEntry cause src own internal chk).Ok pend := by
  unfold State.holdEntry
  split
  · exact ok_s
  · extract_lets s1 sb0 sb s2 s3 s4 s5 _ s6 q _ s6b s7 s8 _ s9
    have h0 : (if internal = true then s.outageFrom else s).Ok pend := by
      split
      · exact State.outageFrom_ok _ ok_s
      · exact ok_s
    have h1 : s1.Ok pend := State.eachAxis_ok _ _ h0 fun t a ht => State.stopRequest_ok t a ht
    have h2 : s2.Ok pend := State.cutStrobes_ok _ (State.blankRest_ok _ _ _ _ _ h1)
    clear_value s2
    have h3 : s3.Ok pend := State.holdRun_ok _ h2
    clear_value s3
    have h4 : s4.Ok pend := State.ok_foldl h3 fun t x ht => State.dropStripe_ok t _ ht
    clear_value s4
    have h5 : s5.Ok pend := State.ok_foldl h4 fun t w ht => State.complete_ok t _ _ ht
    clear_value s5
    have h6 : s6.Ok pend := by
      simp only [s6]
      rw [State.mk_upd]
      exact State.ok_upd h5
    clear_value s6
    have h6b : s6b.Ok pend := by
      refine State.ok_foldl ?_ fun t pk ht => State.complete_ok t _ _ ht
      rw [State.mk_upd]
      exact State.ok_upd h6
    clear_value s6b
    have h7 : s7.Ok pend := State.boundary_ok _ (State.stopCheck_ok _ _ h6b)
    clear_value s7
    have h8 : s8.Ok pend := State.setFld_ok _ _ _ _ _ (State.setFld_ok _ _ _ _ _ (State.setFld_ok _ _ _ _ _ h7))
    clear_value s8
    refine State.aliveCheck_ok _ (State.holdRails_ok _ ?_)
    simp only [s9]
    rw [State.mk_upd]
    exact State.ok_upd h8

theorem State.carryRec_ok {pend : List Instr} (s : State) (src : Nat) (ok_s : s.Ok pend) :
    (State.carryRec s src).Ok pend := by
  unfold State.carryRec
  repeat' first
    | with_reducible assumption | with_reducible refine State.ok_upd ?_ | with_reducible apply State.setRec_ok | extract_lets
    | split | (dsimp only; with_reducible assumption) | intro _ | rw [State.mk_upd] | dsimp +zetaDelta only

theorem State.actOn_ok {pend : List Instr} (s : State) (r : Raise) (e : Nat) (own : Option (Nat × Nat)) (chk : ChkReply)
    (ok_s : s.Ok pend) : (s.actOn r e own chk).Ok pend := by
  unfold State.actOn
  extract_lets internal _ s0 t1a _ t1b s1 _ ta t1 _ s2
  have h0 : s0.Ok pend := by
    simp only [s0]
    split
    · rw [State.mk_upd]
      exact State.ok_upd ok_s
    · exact ok_s
  clear_value s0
  have h1 : s1.Ok pend := by
    simp only [s1]
    split
    · have ha : t1a.Ok pend := State.eachAxis_ok _ _ h0 fun t a ht => State.faultStop_ok t a _ ht
      clear_value t1a
      have hb : t1b.Ok pend := by
        simp only [t1b]
        split
        · refine State.carryRec_ok _ _ ?_
          rw [State.mk_upd]
          exact State.ok_upd ha
        · exact ha
      clear_value t1b
      split
      · exact State.outageFrom_ok _ hb
      · exact hb
    · exact h0
  clear_value s1
  have h2 : s2.Ok pend := by
    simp only [s2]
    split
    · split
      · exact State.carryRec_ok _ _ h1
      · split
        · rw [State.mk_upd]
          exact State.ok_upd h1
        · exact State.holdEntry_ok _ _ _ _ _ _ h1
    · have h3 : ta.Ok pend := by
        simp only [ta]
        split
        · exact State.blankRest_ok _ _ _ _ _ h1
        · split
          · exact State.blankRest_ok _ _ _ _ _ h1
          · exact h1
      clear_value ta
      have h4 : t1.Ok pend := by
        simp only [t1]
        split
        · exact State.stopCheck_ok _ _ h3
        · exact h3
      clear_value t1
      split
      · rw [State.mk_upd]
        exact State.ok_upd h4
      · exact h4
  exact State.aliveCheck_ok _ h2

theorem State.raiseOne_ok {pend : List Instr} (s : State) (r : Raise) (own : Option (Nat × Nat)) (chk : ChkReply) (ok_s : s.Ok pend) :
    (State.raiseOne s r own chk).Ok pend := by
  unfold State.raiseOne
  repeat' first
    | with_reducible assumption | with_reducible refine State.ok_upd ?_ | with_reducible apply State.actOn_ok
    | with_reducible apply State.blankRest_ok | with_reducible apply State.countInternal_ok
    | with_reducible apply State.markOnset_ok | with_reducible apply State.mergeMore_ok | with_reducible apply State.record_ok
    | with_reducible apply State.takeSnapshot_ok | extract_lets | split | (dsimp only; with_reducible assumption) | intro _
    | rw [State.mk_upd] | dsimp +zetaDelta only

theorem State.homeFailOut_ok {pend : List Instr} (s : State) (a : Nat) (ok_s : s.Ok pend) :
    (State.homeFailOut s a).Ok pend := by
  unfold State.homeFailOut
  repeat' first
    | with_reducible assumption | with_reducible refine State.ok_upd ?_ | with_reducible apply State.raiseOne_ok
    | with_reducible apply State.updAxis_ok | extract_lets | split | (dsimp only; with_reducible assumption) | intro _
    | rw [State.mk_upd] | dsimp +zetaDelta only

theorem State.homeFailsOut_ok {pend : List Instr} (s : State) (ok_s : s.Ok pend) :
    (State.homeFailsOut s).Ok pend := by
  unfold State.homeFailsOut
  repeat' first
    | with_reducible assumption | with_reducible refine State.ok_upd ?_ | with_reducible apply State.eachAxis_ok
    | with_reducible apply State.homeFailOut_ok | extract_lets | split | (dsimp only; with_reducible assumption) | intro _
    | rw [State.mk_upd] | dsimp +zetaDelta only

theorem State.raiseFull_ok {pend : List Instr} (s : State) (r : Raise) (own : Option (Nat × Nat)) (chk : ChkReply) (ok_s : s.Ok pend) :
    (State.raiseFull s r own chk).Ok pend := by
  unfold State.raiseFull
  repeat' first
    | with_reducible assumption | with_reducible refine State.ok_upd ?_ | with_reducible apply State.homeFailsOut_ok
    | with_reducible apply State.onOneClock_ok | with_reducible apply State.raiseOne_ok | extract_lets | split
    | (dsimp only; with_reducible assumption) | intro _ | rw [State.mk_upd] | dsimp +zetaDelta only

theorem State.enterHold_ok {pend : List Instr} (s : State) (cause : Nat) (src : Nat) (internal : Bool) (ok_s : s.Ok pend) :
    (State.enterHold s cause src internal).Ok pend := by
  unfold State.enterHold
  repeat' first
    | with_reducible assumption | with_reducible refine State.ok_upd ?_ | with_reducible apply State.holdEntry_ok
    | with_reducible apply State.homeFailsOut_ok | extract_lets | split | (dsimp only; with_reducible assumption) | intro _
    | rw [State.mk_upd] | dsimp +zetaDelta only

theorem State.onsetOr_ok {pend : List Instr} (s : State) (src : Nat) (f : State → State) (ok_s : s.Ok pend)
    (ok_f : ∀ t : State, t.Ok pend → (f t).Ok pend) : (State.onsetOr s src f).Ok pend := by
  unfold State.onsetOr
  split
  · exact State.markOnset_ok _ _ ok_s
  · exact ok_f _ ok_s

theorem State.raise_ok {pend : List Instr} (s : State) (src : Nat) (ok_s : s.Ok pend) :
    (State.raise s src).Ok pend := by
  unfold State.raise
  repeat' first
    | with_reducible assumption | with_reducible refine State.ok_upd ?_ | with_reducible apply State.raiseFull_ok | extract_lets
    | split | (dsimp only; with_reducible assumption) | intro _ | rw [State.mk_upd] | dsimp +zetaDelta only

theorem State.raiseWith_ok {pend : List Instr} (s : State) (src : Nat) (detail : Nat) (ok_s : s.Ok pend) :
    (State.raiseWith s src detail).Ok pend := by
  unfold State.raiseWith
  repeat' first
    | with_reducible assumption | with_reducible refine State.ok_upd ?_ | with_reducible apply State.raiseFull_ok | extract_lets
    | split | (dsimp only; with_reducible assumption) | intro _ | rw [State.mk_upd] | dsimp +zetaDelta only

theorem State.raiseBlank_ok {pend : List Instr} (s : State) (src : Nat) (reason : Nat) (sb : Nat) (ok_s : s.Ok pend) :
    (State.raiseBlank s src reason sb).Ok pend := by
  unfold State.raiseBlank
  repeat' first
    | with_reducible assumption | with_reducible refine State.ok_upd ?_ | with_reducible apply State.raiseFull_ok | extract_lets
    | split | (dsimp only; with_reducible assumption) | intro _ | rw [State.mk_upd] | dsimp +zetaDelta only

theorem State.access_ok {pend : List Instr} (s : State) (off : Nat) (ok_s : s.Ok pend) :
    (State.access s off).Ok pend := by
  unfold State.access
  repeat' first
    | with_reducible assumption | with_reducible refine State.ok_upd ?_ | with_reducible apply State.raiseWith_ok | extract_lets
    | split | (dsimp only; with_reducible assumption) | intro _ | rw [State.mk_upd] | dsimp +zetaDelta only

end Sys2Proof.Machine
end

