-- ==== Sys2Proof/Laws/KeepQueues.lean ====
section
/-! SUPPORT. The operations keep the predicate State.Ok, one lemma each: the job store, register writes, packets, mailboxes and claims. -/

set_option Elab.async false
set_option linter.all false

namespace Sys2Proof.Machine

theorem State.symCorrected_ok {pend : List Instr} (s : State) (c : Nat) (k : Nat) (u : Nat) (i : Nat) (ok_s : s.Ok pend) :
    (State.symCorrected s c k u i).Ok pend := by
  unfold State.symCorrected
  repeat' first
    | with_reducible assumption | with_reducible refine State.ok_upd ?_ | with_reducible apply State.count_ok
    | with_reducible apply State.raise_ok | with_reducible apply State.setFlag_ok | extract_lets | split
    | (dsimp only; with_reducible assumption) | intro _ | rw [State.mk_upd] | dsimp +zetaDelta only

theorem State.readBeat_ok {pend : List Instr} (q : State × Bool) (b : Nat) (ok_q : q.1.Ok pend) : (State.readBeat q b).1.Ok pend := by
  unfold State.readBeat
  split
  · exact ok_q
  · exact ok_q
  · exact State.symCorrected_ok _ _ _ _ _ ok_q

theorem State.readBlock_ok {pend : List Instr} (s : State) (blk : Nat) (ok_s : s.Ok pend) : (s.readBlock blk).Ok pend := by
  have h : ∀ (l : List Nat) (q : State × Bool), q.1.Ok pend → (l.foldl State.readBeat q).1.Ok pend := by
    intro l
    induction l with
    | nil => exact fun _ hq => hq
    | cons b l ih => exact fun q hq => ih _ (State.readBeat_ok _ _ hq)
  unfold State.readBlock
  have h1 := h (s.errBeats blk) (s, false) ok_s
  split
  rename_i t bad e
  rw [e] at h1
  split
  · exact h1
  · rw [State.mk_upd]
    exact State.ok_upd h1

theorem State.readBlocks_ok {pend : List Instr} (s : State) (a : Nat) (n : Nat) (ok_s : s.Ok pend) :
    (State.readBlocks s a n).Ok pend := by
  unfold State.readBlocks
  repeat' first
    | with_reducible assumption | with_reducible refine State.ok_upd ?_ | with_reducible apply State.readBlock_ok
    | with_reducible apply State.ok_foldl | extract_lets | split | (dsimp only; with_reducible assumption) | intro _
    | rw [State.mk_upd] | dsimp +zetaDelta only

theorem State.newErrs_ok {pend : List Instr} (s : State) (l : List (Nat × Nat)) (ok_s : s.Ok pend) :
    (State.newErrs s l).Ok pend := by
  unfold State.newErrs
  repeat' first
    | with_reducible assumption | with_reducible refine State.ok_upd ?_ | with_reducible apply State.ok_foldl | extract_lets | split
    | (dsimp only; with_reducible assumption) | intro _ | rw [State.mk_upd] | dsimp +zetaDelta only

theorem State.encodeBlock_ok {pend : List Instr} (s : State) (blk : Nat) (ok_s : s.Ok pend) :
    (State.encodeBlock s blk).Ok pend := by
  unfold State.encodeBlock
  repeat' first
    | with_reducible assumption | with_reducible refine State.ok_upd ?_ | extract_lets | split
    | (dsimp only; with_reducible assumption) | intro _ | rw [State.mk_upd] | dsimp +zetaDelta only

theorem State.rewriteOver_ok {pend : List Instr} (s : State) (t : State) (blk : Nat) (ok_s : s.Ok pend) (ok_t : t.Ok pend) :
    (State.rewriteOver s t blk).Ok pend := by
  unfold State.rewriteOver
  repeat' first
    | with_reducible assumption | with_reducible refine State.ok_upd ?_ | with_reducible apply State.encodeBlock_ok
    | with_reducible apply State.memWrite_ok | extract_lets | split | (dsimp only; with_reducible assumption) | intro _
    | rw [State.mk_upd] | dsimp +zetaDelta only

theorem State.readPartial_ok {pend : List Instr} (s : State) (a : Nat) (n : Nat) (ok_s : s.Ok pend) :
    (State.readPartial s a n).Ok pend := by
  unfold State.readPartial
  repeat' first
    | with_reducible assumption | with_reducible refine State.ok_upd ?_ | with_reducible apply State.readBlock_ok
    | with_reducible apply State.rewriteOver_ok | with_reducible apply State.ok_foldl | extract_lets | split
    | (dsimp only; with_reducible assumption) | intro _ | rw [State.mk_upd] | dsimp +zetaDelta only

theorem State.portAsks_ok {pend : List Instr} (s : State) (p : Nat) (rs : List (Nat × Nat)) (ok_s : s.Ok pend) :
    (State.portAsks s p rs).Ok pend := by
  unfold State.portAsks
  repeat' first
    | with_reducible assumption | with_reducible refine State.ok_upd ?_ | extract_lets | split
    | (dsimp only; with_reducible assumption) | intro _ | rw [State.mk_upd] | dsimp +zetaDelta only

theorem State.portServed_ok {pend : List Instr} (s : State) (p : Nat) (ok_s : s.Ok pend) :
    (State.portServed s p).Ok pend := by
  unfold State.portServed
  repeat' first
    | with_reducible assumption | with_reducible refine State.ok_upd ?_ | extract_lets | split
    | (dsimp only; with_reducible assumption) | intro _ | rw [State.mk_upd] | dsimp +zetaDelta only

theorem State.memUncorr_ok {pend : List Instr} (s : State) (blk : Nat) (ok_s : s.Ok pend) :
    (State.memUncorr s blk).Ok pend := by
  unfold State.memUncorr
  repeat' first
    | with_reducible assumption | with_reducible refine State.ok_upd ?_ | with_reducible apply State.count_ok
    | with_reducible apply State.hwSet_ok | with_reducible apply State.raise_ok | with_reducible apply State.wr_ok | extract_lets
    | split | (dsimp only; with_reducible assumption) | intro _ | rw [State.mk_upd] | dsimp +zetaDelta only

theorem State.healBlocks_ok {pend : List Instr} (s : State) (a : Nat) (n : Nat) (ok_s : s.Ok pend) :
    (State.healBlocks s a n).Ok pend := by
  unfold State.healBlocks
  repeat' first
    | with_reducible assumption | with_reducible refine State.ok_upd ?_ | extract_lets | split
    | (dsimp only; with_reducible assumption) | intro _ | rw [State.mk_upd] | dsimp +zetaDelta only

theorem State.storeWrite_ok {pend : List Instr} (s : State) (a : Nat) (bs : List Byte) (ok_s : s.Ok pend) :
    (State.storeWrite s a bs).Ok pend := by
  unfold State.storeWrite
  repeat' first
    | with_reducible assumption | with_reducible refine State.ok_upd ?_ | with_reducible apply State.healBlocks_ok
    | with_reducible apply State.memWrite_ok | extract_lets | split | (dsimp only; with_reducible assumption) | intro _
    | rw [State.mk_upd] | dsimp +zetaDelta only

theorem State.throughPorts_ok {pend : List Instr} (s : State) (pk : Packet) (l : List (Nat × Nat × Nat)) (f : State → State) (ok_s : s.Ok pend) (ok_f : ∀ (x0 : State), x0.Ok pend → (f x0).Ok pend) :
    (State.throughPorts s pk l f).Ok pend := by
  unfold State.throughPorts
  repeat' first
    | with_reducible assumption | with_reducible refine State.ok_upd ?_ | with_reducible apply ok_f
    | with_reducible apply State.portAsks_ok | with_reducible apply State.portServed_ok | with_reducible apply State.untake_ok
    | with_reducible apply State.ok_foldl | extract_lets | split | (dsimp only; with_reducible assumption) | intro _
    | rw [State.mk_upd] | dsimp +zetaDelta only

theorem State.readChecked_ok {pend : List Instr} (s : State) (pk : Packet) (base : Nat) (a : Nat) (n : Nat) (f : State → List Byte → State) (ok_s : s.Ok pend) (ok_f : ∀ (x0 : State) (x1 : List Byte), x0.Ok pend → (f x0 x1).Ok pend) :
    (State.readChecked s pk base a n f).Ok pend := by
  unfold State.readChecked
  repeat' first
    | with_reducible assumption | with_reducible refine State.ok_upd ?_ | with_reducible apply ok_f
    | with_reducible apply State.complete_ok | with_reducible apply State.memUncorr_ok | with_reducible apply State.readBlocks_ok
    | extract_lets | split | (dsimp only; with_reducible assumption) | intro _ | rw [State.mk_upd] | dsimp +zetaDelta only

theorem State.movementRead_ok {pend : List Instr} (s : State) (pk : Packet) (p : Nat) (base : Nat) (a : Nat) (n : Nat) (f : State → List Byte → State) (ok_s : s.Ok pend) (ok_f : ∀ (x0 : State) (x1 : List Byte), x0.Ok pend → (f x0 x1).Ok pend) :
    (State.movementRead s pk p base a n f).Ok pend := by
  unfold State.movementRead
  repeat' first
    | with_reducible assumption | with_reducible refine State.ok_upd ?_ | with_reducible apply ok_f
    | with_reducible apply State.readChecked_ok | with_reducible apply State.throughPorts_ok | extract_lets | split
    | (dsimp only; with_reducible assumption) | intro _ | rw [State.mk_upd] | dsimp +zetaDelta only

theorem State.removeRegions_ok {pend : List Instr} (s : State) (a : Nat) (n : Nat) (ok_s : s.Ok pend) :
    (State.removeRegions s a n).Ok pend := by
  unfold State.removeRegions
  repeat' first
    | with_reducible assumption | with_reducible refine State.ok_upd ?_ | extract_lets | split
    | (dsimp only; with_reducible assumption) | intro _ | rw [State.mk_upd] | dsimp +zetaDelta only

theorem State.enterRegion_ok {pend : List Instr} (s : State) (r : Region) (ok_s : s.Ok pend) :
    (State.enterRegion s r).Ok pend := by
  unfold State.enterRegion
  repeat' first
    | with_reducible assumption | with_reducible refine State.ok_upd ?_ | extract_lets | split
    | (dsimp only; with_reducible assumption) | intro _ | rw [State.mk_upd] | dsimp +zetaDelta only

theorem State.resident_ok {pend : List Instr} (s : State) (a : Nat) (bs : List Byte) (ok_s : s.Ok pend) :
    (State.resident s a bs).Ok pend := by
  unfold State.resident
  repeat' first
    | with_reducible assumption | with_reducible refine State.ok_upd ?_ | with_reducible apply State.enterRegion_ok
    | with_reducible apply State.removeRegions_ok | with_reducible apply State.storeWrite_ok | extract_lets | split
    | (dsimp only; with_reducible assumption) | intro _ | rw [State.mk_upd] | dsimp +zetaDelta only

theorem State.residentReply_ok {pend : List Instr} (s : State) (pk : Packet) (a : Nat) (bs : List Byte) (ok : Reply) (ok_s : s.Ok pend) :
    (s.residentReply pk a bs ok).Ok pend := by
  unfold State.residentReply
  generalize s.destRefused a bs.length = d
  cases d with
  | some r => exact State.complete_ok _ _ _ ok_s
  | none => exact State.complete_ok _ _ _ (State.resident_ok _ _ _ ok_s)

theorem State.rle1Fail_ok {pend : List Instr} (s : State) (ok_s : s.Ok pend) :
    (State.rle1Fail s).Ok pend := by
  unfold State.rle1Fail
  repeat' first
    | with_reducible assumption | with_reducible refine State.ok_upd ?_ | with_reducible apply State.count_ok
    | with_reducible apply State.raise_ok | extract_lets | split | (dsimp only; with_reducible assumption) | intro _
    | rw [State.mk_upd] | dsimp +zetaDelta only

theorem State.pushJob_ok {pend : List Instr} (s : State) (j : Job) (ok_s : s.Ok pend) : (s.pushJob j).Ok pend := by
  unfold State.pushJob
  rw [State.mk_upd]
  refine State.ok_updTab ok_s rfl ok_s.log ?_ ok_s.stripes ok_s.holes
  exact List.length_take_le _ _

theorem State.jobOpen_ok {pend : List Instr} (s : State) (pk : Packet) (ok_s : s.Ok pend) :
    (State.jobOpen s pk).Ok pend := by
  unfold State.jobOpen
  repeat' first
    | with_reducible assumption | with_reducible refine State.ok_upd ?_ | with_reducible apply State.complete_ok
    | with_reducible apply State.pushJob_ok | with_reducible apply State.readChecked_ok | with_reducible apply State.rle1Fail_ok
    | with_reducible apply State.throughPorts_ok | extract_lets | split | (dsimp only; with_reducible assumption) | intro _
    | rw [State.mk_upd] | dsimp +zetaDelta only

theorem State.readRecs_ok {pend : List Instr} (s : State) (l : List (Nat × List Byte)) (ok_s : s.Ok pend) :
    (State.readRecs s l).Ok pend := by
  unfold State.readRecs
  repeat' first
    | with_reducible assumption | with_reducible refine State.ok_upd ?_ | with_reducible apply State.readBlocks_ok
    | with_reducible apply State.ok_foldl | extract_lets | split | (dsimp only; with_reducible assumption) | intro _
    | rw [State.mk_upd] | dsimp +zetaDelta only

theorem State.admitStripe_ok {pend : List Instr} (s : State) (pk : Packet) (x : Stripe) (after : State → Packet → Nat → State) (ok_s : s.Ok pend)
    (ok_after : ∀ (x0 : State) (x1 : Packet) (x2 : Nat), x0.Ok pend → (after x0 x1 x2).Ok pend) : (s.admitStripe pk x after).Ok pend := by
  unfold State.admitStripe
  split
  · exact State.complete_ok _ _ _ ok_s
  · split
    · exact State.complete_ok _ _ _ ok_s
    · extract_lets
      apply ok_after
      dsimp +zetaDelta only
      rw [State.mk_upd]
      refine State.ok_updTab ok_s rfl ok_s.log ok_s.jobs ?_ ok_s.holes
      simp only [List.length_append, List.length_cons, List.length_nil]
      omega

theorem State.admitReply_ok {pend : List Instr} (s : State) (pk : Packet) (h : Nat) (ok_s : s.Ok pend) :
    (State.admitReply s pk h).Ok pend := by
  unfold State.admitReply
  repeat' first
    | with_reducible assumption | with_reducible refine State.ok_upd ?_ | with_reducible apply State.complete_ok | extract_lets
    | split | (dsimp only; with_reducible assumption) | intro _ | rw [State.mk_upd] | dsimp +zetaDelta only

theorem State.admitGen_ok {pend : List Instr} (s : State) (pk : Packet) (x : Stripe) (kind : Nat) (wait : Nat) (after : State → Packet → Nat → State) (ok_s : s.Ok pend) (ok_after : ∀ (x0 : State) (x1 : Packet) (x2 : Nat), x0.Ok pend → (after x0 x1 x2).Ok pend) :
    (State.admitGen s pk x kind wait after).Ok pend := by
  unfold State.admitGen
  repeat' first
    | with_reducible assumption | with_reducible refine State.ok_upd ?_ | with_reducible apply ok_after
    | with_reducible apply State.admitStripe_ok | with_reducible apply State.complete_ok | extract_lets | split
    | (dsimp only; with_reducible assumption) | intro _ | rw [State.mk_upd] | dsimp +zetaDelta only

theorem State.stripeAdmit_ok {pend : List Instr} (s : State) (pk : Packet) (wait : Nat) (fx : Bool) (after : State → Packet → Nat → State) (ok_s : s.Ok pend) (ok_after : ∀ (x0 : State) (x1 : Packet) (x2 : Nat), x0.Ok pend → (after x0 x1 x2).Ok pend) :
    (State.stripeAdmit s pk wait fx after).Ok pend := by
  unfold State.stripeAdmit
  repeat' first
    | with_reducible assumption | with_reducible refine State.ok_upd ?_ | with_reducible apply ok_after
    | with_reducible apply State.admitGen_ok | with_reducible apply State.complete_ok | with_reducible apply State.memUncorr_ok
    | with_reducible apply State.readRecs_ok | with_reducible apply State.throughPorts_ok | extract_lets | split
    | (dsimp only; with_reducible assumption) | intro _ | rw [State.mk_upd] | dsimp +zetaDelta only

theorem State.replyRecords_ok {pend : List Instr} (s : State) (pk : Packet) (unit : Nat) (data : List Byte) (ok_s : s.Ok pend) :
    (State.replyRecords s pk unit data).Ok pend := by
  unfold State.replyRecords
  repeat' first
    | with_reducible assumption | with_reducible refine State.ok_upd ?_ | with_reducible apply State.complete_ok | extract_lets
    | split | (dsimp only; with_reducible assumption) | intro _ | rw [State.mk_upd] | dsimp +zetaDelta only

theorem State.holeRead_ok {pend : List Instr} (s : State) (pk : Packet) (consume : Bool) (ok_s : s.Ok pend) :
    (State.holeRead s pk consume).Ok pend := by
  unfold State.holeRead
  repeat' first
    | with_reducible assumption | with_reducible refine State.ok_upd ?_ | with_reducible apply State.complete_ok | extract_lets
    | split | (dsimp only; with_reducible assumption) | intro _ | rw [State.mk_upd] | dsimp +zetaDelta only

theorem State.touch_ok {pend : List Instr} (s : State) (ok_s : s.Ok pend) :
    (State.touch s).Ok pend := by
  unfold State.touch
  repeat' first
    | with_reducible assumption | with_reducible refine State.ok_upd ?_ | extract_lets | split
    | (dsimp only; with_reducible assumption) | intro _ | rw [State.mk_upd] | dsimp +zetaDelta only

theorem State.regCmd_ok {pend : List Instr} (s : State) (m : Master) (off : Nat) (f : State → State) (ok_s : s.Ok pend) (ok_f : ∀ (x0 : State), x0.Ok pend → (f x0).Ok pend) :
    Outcome.Keeps pend (State.regCmd s m off f) := by
  unfold State.regCmd
  repeat' first
    | with_reducible assumption | with_reducible refine State.ok_upd ?_ | with_reducible apply ok_f
    | with_reducible apply State.access_ok | with_reducible apply State.touch_ok | with_reducible apply Outcome.keeps_next
    | with_reducible exact Outcome.keeps_fault | extract_lets | split | (dsimp only; with_reducible assumption) | intro _
    | rw [State.mk_upd] | dsimp +zetaDelta only

theorem State.sourceCheck_ok {pend : List Instr} (s : State) (old : Nat) (ok_s : s.Ok pend) :
    (State.sourceCheck s old).Ok pend := by
  unfold State.sourceCheck
  repeat' first
    | with_reducible assumption | with_reducible refine State.ok_upd ?_ | with_reducible apply State.setFlag_ok | extract_lets
    | split | (dsimp only; with_reducible assumption) | intro _ | rw [State.mk_upd] | dsimp +zetaDelta only

theorem State.applyRegs_ok {pend : List Instr} (s : State) (ok_s : s.Ok pend) : (s.applyRegs).Ok pend := by
  unfold State.applyRegs
  apply State.sourceCheck_ok
  rw [State.mk_updAll]
  exact State.ok_updAll ok_s (ha := fun h => storeWf_foldl_put resetValue (fun o => o) (fun o => BitVec.ofNat 32 (s.rd o)) _ _ h.applied)

theorem State.applyNow_ok {pend : List Instr} (s : State) (off : Nat) (ok_s : s.Ok pend) : (s.applyNow off).Ok pend := by
  unfold State.applyNow
  split
  · apply State.sourceCheck_ok
    rw [State.mk_updAll]
    exact State.ok_updAll ok_s (ha := fun h => storeWf_put _ _ _ _ h.applied)
  · exact ok_s

theorem State.writeByType_ok {pend : List Instr} (s : State) (load : Bool) (off : Nat) (v : Nat) (ok_s : s.Ok pend) :
    (State.writeByType s load off v).Ok pend := by
  unfold State.writeByType
  repeat' first
    | with_reducible assumption | with_reducible refine State.ok_upd ?_ | with_reducible apply State.access_ok
    | with_reducible apply State.applyNow_ok | with_reducible apply State.wr_ok | extract_lets | split
    | (dsimp only; with_reducible assumption) | intro _ | rw [State.mk_upd] | dsimp +zetaDelta only

theorem State.haltQueue_ok {pend : List Instr} (s : State) (q : Nat) (err : Nat) (ok_s : s.Ok pend) :
    (State.haltQueue s q err).Ok pend := by
  unfold State.haltQueue
  repeat' first
    | with_reducible assumption | with_reducible refine State.ok_upd ?_ | with_reducible apply State.setFlag_ok
    | with_reducible apply State.setFld_ok | extract_lets | split | (dsimp only; with_reducible assumption) | intro _
    | rw [State.mk_upd] | dsimp +zetaDelta only

theorem State.disableQueue_ok {pend : List Instr} (s : State) (q : Nat) (ok_s : s.Ok pend) :
    (State.disableQueue s q).Ok pend := by
  unfold State.disableQueue
  repeat' first
    | with_reducible assumption | with_reducible refine State.ok_upd ?_ | with_reducible apply State.setFlag_ok
    | with_reducible apply State.wr_ok | extract_lets | split | (dsimp only; with_reducible assumption) | intro _
    | rw [State.mk_upd] | dsimp +zetaDelta only

theorem State.enableQueue_ok {pend : List Instr} (s : State) (q : Nat) (ok_s : s.Ok pend) :
    (State.enableQueue s q).Ok pend := by
  unfold State.enableQueue
  repeat' first
    | with_reducible assumption | with_reducible refine State.ok_upd ?_ | extract_lets | split
    | (dsimp only; with_reducible assumption) | intro _ | rw [State.mk_upd] | dsimp +zetaDelta only

theorem State.start_ok {pend : List Instr} (s : State) (org : Origin) (fn : Master) (bs : List Byte) (ok_s : s.Ok pend) :
    (State.start s org fn bs).1.Ok pend := by
  unfold State.start
  repeat' first
    | with_reducible assumption | with_reducible refine State.ok_upd ?_ | extract_lets | split
    | (dsimp only; with_reducible assumption) | intro _ | rw [State.mk_upd] | dsimp +zetaDelta only

theorem State.start_ok_of {pend : List Instr} {s : State} {org : Origin} {fn : Master} {bs : List Byte} (ok_s : s.Ok pend) {t : State} {r} (e : State.start s org fn bs = (t, r)) :
    t.Ok pend := by
  have h := State.start_ok s org fn bs ok_s
  rw [e] at h
  exact h

theorem State.checkHeader_ok {pend : List Instr} (s : State) (pk : Packet) (qbyte : Nat) (ok_s : s.Ok pend) :
    (State.checkHeader s pk qbyte).Ok pend := by
  unfold State.checkHeader
  repeat' first
    | with_reducible assumption | with_reducible refine State.ok_upd ?_ | with_reducible apply State.complete_ok | extract_lets
    | split | (dsimp only; with_reducible assumption) | intro _ | rw [State.mk_upd] | dsimp +zetaDelta only

theorem State.fetch_ok {pend : List Instr} (s : State) (q : Nat) (rd : HostRead) (ok_s : s.Ok pend) :
    (State.fetch s q rd).Ok pend := by
  unfold State.fetch
  repeat' first
    | with_reducible assumption | with_reducible refine State.ok_upd ?_ | (refine State.start_ok_of ?_ (by assumption))
    | with_reducible apply State.start_ok | with_reducible apply State.checkHeader_ok | with_reducible apply State.complete_ok
    | with_reducible apply State.haltQueue_ok | with_reducible apply State.setFld_ok | extract_lets | split
    | (dsimp only; with_reducible assumption) | intro _ | rw [State.mk_upd] | dsimp +zetaDelta only

theorem State.finish_ok {pend : List Instr} (s : State) (pk : Packet) (ok_s : s.Ok pend) :
    (State.finish s pk).Ok pend := by
  unfold State.finish
  repeat' first
    | with_reducible assumption | with_reducible refine State.ok_upd ?_ | extract_lets | split
    | (dsimp only; with_reducible assumption) | intro _ | rw [State.mk_upd] | dsimp +zetaDelta only

theorem State.putReply_ok {pend : List Instr} (s : State) (q : Nat) (h : Held) (ok_s : s.Ok pend) :
    (State.putReply s q h).Ok pend := by
  unfold State.putReply
  repeat' first
    | with_reducible assumption | with_reducible refine State.ok_upd ?_ | with_reducible apply State.finish_ok
    | with_reducible apply State.haltQueue_ok | with_reducible apply State.hostWrite_ok | with_reducible apply State.signal_ok
    | extract_lets | split | (dsimp only; with_reducible assumption) | intro _ | rw [State.mk_upd] | dsimp +zetaDelta only

theorem State.queueCmd_ok {pend : List Instr} (s : State) (m : Master) (q : Nat) (off : Nat) (f : State → State) (ok_s : s.Ok pend) (ok_f : ∀ (x0 : State), x0.Ok pend → (f x0).Ok pend) :
    Outcome.Keeps pend (State.queueCmd s m q off f) := by
  unfold State.queueCmd
  repeat' first
    | with_reducible assumption | with_reducible refine State.ok_upd ?_ | with_reducible apply ok_f
    | with_reducible apply State.access_ok | with_reducible apply State.regCmd_ok | with_reducible apply Outcome.keeps_next
    | with_reducible exact Outcome.keeps_fault | extract_lets | split | (dsimp only; with_reducible assumption) | intro _
    | rw [State.mk_upd] | dsimp +zetaDelta only

theorem execCmdSqTailWrite_ok {pend : List Instr} (m : Master) (q : Fin 16) (v : Word) (s : State) (ok_s : s.Ok pend) :
    Outcome.Keeps pend (execCmdSqTailWrite m q v s) := by
  unfold execCmdSqTailWrite
  repeat' first
    | with_reducible assumption | with_reducible refine State.ok_upd ?_ | with_reducible apply State.access_ok
    | with_reducible apply State.haltQueue_ok | with_reducible apply State.queueCmd_ok | with_reducible apply State.wr_ok
    | with_reducible apply Outcome.keeps_next | with_reducible exact Outcome.keeps_fault | extract_lets | split
    | (dsimp only; with_reducible assumption) | intro _ | rw [State.mk_upd] | dsimp +zetaDelta only

theorem execCmdCqHeadWrite_ok {pend : List Instr} (m : Master) (q : Fin 16) (v : Word) (s : State) (ok_s : s.Ok pend) :
    Outcome.Keeps pend (execCmdCqHeadWrite m q v s) := by
  unfold execCmdCqHeadWrite
  repeat' first
    | with_reducible assumption | with_reducible refine State.ok_upd ?_ | with_reducible apply State.access_ok
    | with_reducible apply State.haltQueue_ok | with_reducible apply State.queueCmd_ok | with_reducible apply State.wr_ok
    | with_reducible apply Outcome.keeps_next | with_reducible exact Outcome.keeps_fault | extract_lets | split
    | (dsimp only; with_reducible assumption) | intro _ | rw [State.mk_upd] | dsimp +zetaDelta only

theorem State.writeQctl_ok {pend : List Instr} (s : State) (q : Nat) (v : Nat) (load : Bool) (ok_s : s.Ok pend) :
    (State.writeQctl s q v load).Ok pend := by
  unfold State.writeQctl
  repeat' first
    | with_reducible assumption | with_reducible refine State.ok_upd ?_ | with_reducible apply State.disableQueue_ok
    | with_reducible apply State.enableQueue_ok | with_reducible apply State.writeByType_ok | extract_lets | split
    | (dsimp only; with_reducible assumption) | intro _ | rw [State.mk_upd] | dsimp +zetaDelta only

theorem State.sramStops_ok {pend : List Instr} (s0 : State) (a : Nat) (ok_s0 : s0.Ok pend) :
    (State.sramStops s0 a).Ok pend := by
  unfold State.sramStops
  repeat' first
    | with_reducible assumption | with_reducible refine State.ok_upd ?_ | with_reducible apply State.emptyFoot_ok | extract_lets
    | split | (dsimp only; with_reducible assumption) | intro _ | rw [State.mk_upd] | dsimp +zetaDelta only

theorem State.raiseInput_ok {pend : List Instr} (s : State) (src : Nat) (inj : Bool) (ok_s : s.Ok pend) :
    (State.raiseInput s src inj).Ok pend := by
  unfold State.raiseInput
  repeat' first
    | with_reducible assumption | with_reducible refine State.ok_upd ?_ | with_reducible apply State.markOnset_ok
    | with_reducible apply State.raiseFull_ok | with_reducible apply State.sramStops_ok | extract_lets | split
    | (dsimp only; with_reducible assumption) | intro _ | rw [State.mk_upd] | dsimp +zetaDelta only

theorem State.injLook_ok {pend : List Instr} (s : State) (src : Nat) (ok_s : s.Ok pend) :
    (State.injLook s src).Ok pend := by
  unfold State.injLook
  repeat' first
    | with_reducible assumption | with_reducible refine State.ok_upd ?_ | with_reducible apply State.raiseInput_ok | extract_lets
    | split | (dsimp only; with_reducible assumption) | intro _ | rw [State.mk_upd] | dsimp +zetaDelta only

theorem State.injCheck_ok {pend : List Instr} (s : State) (ok_s : s.Ok pend) :
    (State.injCheck s).Ok pend := by
  unfold State.injCheck
  repeat' first
    | with_reducible assumption | with_reducible refine State.ok_upd ?_ | with_reducible apply State.injLook_ok
    | with_reducible apply State.onOneClock_ok | with_reducible apply State.ok_foldl | extract_lets | split
    | (dsimp only; with_reducible assumption) | intro _ | rw [State.mk_upd] | dsimp +zetaDelta only

theorem State.waitOut_ok {pend : List Instr} (s : State) (src : Nat) (ok_s : s.Ok pend) :
    (State.waitOut s src).Ok pend := by
  unfold State.waitOut
  repeat' first
    | with_reducible assumption | with_reducible refine State.ok_upd ?_ | with_reducible apply State.raiseInput_ok | extract_lets
    | split | (dsimp only; with_reducible assumption) | intro _ | rw [State.mk_upd] | dsimp +zetaDelta only

theorem State.doorbellMsix_ok {pend : List Instr} (s : State) (code : Nat) (w : Nat) (ok_s : s.Ok pend) :
    (State.doorbellMsix s code w).Ok pend := by
  unfold State.doorbellMsix
  repeat' first
    | with_reducible assumption | with_reducible refine State.ok_upd ?_ | with_reducible apply State.signal_ok
    | with_reducible apply State.ok_foldl | extract_lets | split | (dsimp only; with_reducible assumption) | intro _
    | rw [State.mk_upd] | dsimp +zetaDelta only

theorem State.ringBits_ok {pend : List Instr} (s : State) (code : Nat) (w : Nat) (ok_s : s.Ok pend) :
    (State.ringBits s code w).Ok pend := by
  unfold State.ringBits
  repeat' first
    | with_reducible assumption | with_reducible refine State.ok_upd ?_ | with_reducible apply State.doorbellMsix_ok
    | with_reducible apply State.hwSet_ok | with_reducible apply State.wr_ok | extract_lets | split
    | (dsimp only; with_reducible assumption) | intro _ | rw [State.mk_upd] | dsimp +zetaDelta only

theorem State.updShm_ok {pend : List Instr} (s : State) (k : Nat) (f : Shm → Shm) (ok_s : s.Ok pend) :
    (State.updShm s k f).Ok pend := by
  unfold State.updShm
  repeat' first
    | with_reducible assumption | with_reducible refine State.ok_upd ?_ | extract_lets | split
    | (dsimp only; with_reducible assumption) | intro _ | rw [State.mk_upd] | dsimp +zetaDelta only

theorem State.bumpEpoch_ok {pend : List Instr} (s : State) (code : Nat) (ok_s : s.Ok pend) :
    (State.bumpEpoch s code).Ok pend := by
  unfold State.bumpEpoch
  repeat' first
    | with_reducible assumption | with_reducible refine State.ok_upd ?_ | with_reducible apply State.setW1c_ok
    | with_reducible apply State.updShm_ok | with_reducible apply State.wr_ok | with_reducible apply State.ok_foldl | extract_lets
    | split | (dsimp only; with_reducible assumption) | intro _ | rw [State.mk_upd] | dsimp +zetaDelta only

theorem State.updChan_ok {pend : List Instr} (s : State) (ch : Nat) (f : MbxChan → MbxChan) (ok_s : s.Ok pend) :
    (State.updChan s ch f).Ok pend := by
  unfold State.updChan
  repeat' first
    | with_reducible assumption | with_reducible refine State.ok_upd ?_ | extract_lets | split
    | (dsimp only; with_reducible assumption) | intro _ | rw [State.mk_upd] | dsimp +zetaDelta only

theorem State.postMsg_ok {pend : List Instr} (s : State) (m : Master) (ch : Nat) (v : Nat) (ok_s : s.Ok pend) :
    (State.postMsg s m ch v).Ok pend := by
  unfold State.postMsg
  repeat' first
    | with_reducible assumption | with_reducible refine State.ok_upd ?_ | with_reducible apply State.ringBits_ok
    | with_reducible apply State.setFld_ok | with_reducible apply State.updChan_ok | extract_lets | split
    | (dsimp only; with_reducible assumption) | intro _ | rw [State.mk_upd] | dsimp +zetaDelta only

theorem execMbxPost_ok {pend : List Instr} (m : Master) (ch : Fin 48) (v : Word) (s : State) (ok_s : s.Ok pend) :
    Outcome.Keeps pend (execMbxPost m ch v s) := by
  unfold execMbxPost
  repeat' first
    | with_reducible assumption | with_reducible refine State.ok_upd ?_ | with_reducible apply State.access_ok
    | with_reducible apply State.postMsg_ok | with_reducible apply State.regCmd_ok | with_reducible apply State.setW1c_ok
    | with_reducible apply Outcome.keeps_next | with_reducible exact Outcome.keeps_fault | extract_lets | split
    | (dsimp only; with_reducible assumption) | intro _ | rw [State.mk_upd] | dsimp +zetaDelta only

theorem execMbxDone_ok {pend : List Instr} (m : Master) (ch : Fin 48) (v : Word) (s : State) (ok_s : s.Ok pend) :
    Outcome.Keeps pend (execMbxDone m ch v s) := by
  unfold execMbxDone
  repeat' first
    | with_reducible assumption | with_reducible refine State.ok_upd ?_ | with_reducible apply State.access_ok
    | with_reducible apply State.regCmd_ok | with_reducible apply State.setFld_ok | with_reducible apply State.updChan_ok
    | with_reducible apply Outcome.keeps_next | with_reducible exact Outcome.keeps_fault | extract_lets | split
    | (dsimp only; with_reducible assumption) | intro _ | rw [State.mk_upd] | dsimp +zetaDelta only

theorem execMbxRing_ok {pend : List Instr} (m : Master) (r : Fin 11) (v : Word) (s : State) (ok_s : s.Ok pend) :
    Outcome.Keeps pend (execMbxRing m r v s) := by
  unfold execMbxRing
  repeat' first
    | with_reducible assumption | with_reducible refine State.ok_upd ?_ | with_reducible apply State.access_ok
    | with_reducible apply State.regCmd_ok | with_reducible apply State.ringBits_ok | with_reducible apply Outcome.keeps_next
    | with_reducible exact Outcome.keeps_fault | extract_lets | split | (dsimp only; with_reducible assumption) | intro _
    | rw [State.mk_upd] | dsimp +zetaDelta only

theorem execMbxAliveWrite_ok {pend : List Instr} (m : Master) (v : Word) (s : State) (ok_s : s.Ok pend) :
    Outcome.Keeps pend (execMbxAliveWrite m v s) := by
  unfold execMbxAliveWrite
  repeat' first
    | with_reducible assumption | with_reducible refine State.ok_upd ?_ | with_reducible apply State.access_ok
    | with_reducible apply State.regCmd_ok | with_reducible apply Outcome.keeps_next | with_reducible exact Outcome.keeps_fault
    | extract_lets | split | (dsimp only; with_reducible assumption) | intro _ | rw [State.mk_upd] | dsimp +zetaDelta only

theorem State.setMbxLock_ok {pend : List Instr} (s : State) (ok_s : s.Ok pend) :
    (State.setMbxLock s).Ok pend := by
  unfold State.setMbxLock
  repeat' first
    | with_reducible assumption | with_reducible refine State.ok_upd ?_ | with_reducible apply State.setFlag_ok | extract_lets
    | split | (dsimp only; with_reducible assumption) | intro _ | rw [State.mk_upd] | dsimp +zetaDelta only

theorem execMbxLockWrite_ok {pend : List Instr} (m : Master) (v : Word) (s : State) (ok_s : s.Ok pend) :
    Outcome.Keeps pend (execMbxLockWrite m v s) := by
  unfold execMbxLockWrite
  repeat' first
    | with_reducible assumption | with_reducible refine State.ok_upd ?_ | with_reducible apply State.regCmd_ok
    | with_reducible apply State.setMbxLock_ok | with_reducible apply Outcome.keeps_next | with_reducible exact Outcome.keeps_fault
    | extract_lets | split | (dsimp only; with_reducible assumption) | intro _ | rw [State.mk_upd] | dsimp +zetaDelta only

theorem execMbxDbmaskWrite_ok {pend : List Instr} (m : Master) (i : Fin 11) (v : Word) (s : State) (ok_s : s.Ok pend) :
    Outcome.Keeps pend (execMbxDbmaskWrite m i v s) := by
  unfold execMbxDbmaskWrite
  repeat' first
    | with_reducible assumption | with_reducible refine State.ok_upd ?_ | with_reducible apply State.access_ok
    | with_reducible apply State.doorbellMsix_ok | with_reducible apply State.regCmd_ok | with_reducible apply State.wr_ok
    | with_reducible apply Outcome.keeps_next | with_reducible exact Outcome.keeps_fault | extract_lets | split
    | (dsimp only; with_reducible assumption) | intro _ | rw [State.mk_upd] | dsimp +zetaDelta only

theorem State.holdCore_ok {pend : List Instr} (s : State) (c : Nat) (ok_s : s.Ok pend) :
    (State.holdCore s c).Ok pend := by
  unfold State.holdCore
  repeat' first
    | with_reducible assumption | with_reducible refine State.ok_upd ?_ | with_reducible apply State.bumpEpoch_ok | extract_lets
    | split | (dsimp only; with_reducible assumption) | intro _ | rw [State.mk_upd] | dsimp +zetaDelta only

theorem execMbxShmLockRelease_ok {pend : List Instr} (m : Master) (k : Fin 4) (v : Word) (s : State) (ok_s : s.Ok pend) :
    Outcome.Keeps pend (execMbxShmLockRelease m k v s) := by
  unfold execMbxShmLockRelease
  repeat' first
    | with_reducible assumption | with_reducible refine State.ok_upd ?_ | with_reducible apply State.access_ok
    | with_reducible apply State.regCmd_ok | with_reducible apply State.updShm_ok | with_reducible apply Outcome.keeps_next
    | with_reducible exact Outcome.keeps_fault | extract_lets | split | (dsimp only; with_reducible assumption) | intro _
    | rw [State.mk_upd] | dsimp +zetaDelta only

theorem execMbxShmGo_ok {pend : List Instr} (m : Master) (k : Fin 4) (v : Word) (s : State) (ok_s : s.Ok pend) :
    Outcome.Keeps pend (execMbxShmGo m k v s) := by
  unfold execMbxShmGo
  repeat' first
    | with_reducible assumption | with_reducible refine State.ok_upd ?_ | (refine State.start_ok_of ?_ (by assumption))
    | with_reducible apply State.start_ok | with_reducible apply State.access_ok | with_reducible apply State.checkHeader_ok
    | with_reducible apply State.complete_ok | with_reducible apply State.regCmd_ok | with_reducible apply State.setFlag_ok
    | with_reducible apply State.updShm_ok | with_reducible apply Outcome.keeps_next | with_reducible exact Outcome.keeps_fault
    | extract_lets | split | (dsimp only; with_reducible assumption) | intro _ | rw [State.mk_upd] | dsimp +zetaDelta only

theorem State.grant_ok {pend : List Instr} (s : State) (master : Nat) (owner : Nat) (r : Nat) (ok_s : s.Ok pend) :
    (State.grant s master owner r).Ok pend := by
  unfold State.grant
  repeat' first
    | with_reducible assumption | with_reducible refine State.ok_upd ?_ | with_reducible apply State.wr_ok | extract_lets | split
    | (dsimp only; with_reducible assumption) | intro _ | rw [State.mk_upd] | dsimp +zetaDelta only

theorem State.refusedClaim_ok {pend : List Instr} (s : State) (master : Nat) (owner : Nat) (r : Nat) (ok_s : s.Ok pend) :
    (State.refusedClaim s master owner r).Ok pend := by
  unfold State.refusedClaim
  repeat' first
    | with_reducible assumption | with_reducible refine State.ok_upd ?_ | with_reducible apply State.countIn_ok
    | with_reducible apply State.wr_ok | extract_lets | split | (dsimp only; with_reducible assumption) | intro _
    | rw [State.mk_upd] | dsimp +zetaDelta only

theorem State.claimAhead_ok {pend : List Instr} (s : State) (r : Nat) (entry : Nat) (ok_s : s.Ok pend) :
    (State.claimAhead s r entry).Ok pend := by
  unfold State.claimAhead
  repeat' first
    | with_reducible assumption | with_reducible refine State.ok_upd ?_ | extract_lets | split
    | (dsimp only; with_reducible assumption) | intro _ | rw [State.mk_upd] | dsimp +zetaDelta only

theorem State.claim_ok {pend : List Instr} (s : State) (master : Nat) (owner : Nat) (r : Nat) (ok_s : s.Ok pend) :
    (State.claim s master owner r).2.Ok pend := by
  unfold State.claim
  repeat' first
    | with_reducible assumption | with_reducible refine State.ok_upd ?_ | with_reducible apply State.claimAhead_ok
    | with_reducible apply State.grant_ok | with_reducible apply State.refusedClaim_ok | extract_lets | split
    | (dsimp only; with_reducible assumption) | intro _ | rw [State.mk_upd] | dsimp +zetaDelta only

theorem State.claim_ok_of {pend : List Instr} {s : State} {master : Nat} {owner : Nat} {r : Nat} (ok_s : s.Ok pend) {r} {t : State} (e : State.claim s master owner r = (r, t)) :
    t.Ok pend := by
  have h := State.claim_ok s master owner r ok_s
  rw [e] at h
  exact h

theorem State.release_ok {pend : List Instr} (s : State) (master : Nat) (owner : Nat) (r : Nat) (ok_s : s.Ok pend) :
    (State.release s master owner r).2.Ok pend := by
  unfold State.release
  repeat' first
    | with_reducible assumption | with_reducible refine State.ok_upd ?_ | with_reducible apply State.refusedClaim_ok
    | with_reducible apply State.wr_ok | extract_lets | split | (dsimp only; with_reducible assumption) | intro _
    | rw [State.mk_upd] | dsimp +zetaDelta only

theorem State.release_ok_of {pend : List Instr} {s : State} {master : Nat} {owner : Nat} {r : Nat} (ok_s : s.Ok pend) {r} {t : State} (e : State.release s master owner r = (r, t)) :
    t.Ok pend := by
  have h := State.release_ok s master owner r ok_s
  rw [e] at h
  exact h

theorem State.clmRequest_ok {pend : List Instr} (s : State) (m : Master) (n r : Nat) (f : State → Nat × State) (ok_s : s.Ok pend)
    (ok_f : ∀ (x0 : State), x0.Ok pend → (f x0).2.Ok pend) : Outcome.Keeps pend (s.clmRequest m n r f) := by
  unfold State.clmRequest
  apply State.regCmd_ok _ _ _ _ ok_s
  intro t ht
  split
  · exact State.access_ok _ _ ht
  · split
    · exact State.wr_ok _ _ _ ht
    · exact State.wr_ok _ _ _ (ok_f t ht)

theorem State.clmIgnored_ok {pend : List Instr} (s : State) (m : Master) (n : Nat) (ok_s : s.Ok pend) :
    Outcome.Keeps pend (State.clmIgnored s m n) := by
  unfold State.clmIgnored
  repeat' first
    | with_reducible assumption | with_reducible refine State.ok_upd ?_ | with_reducible apply State.access_ok
    | with_reducible apply State.regCmd_ok | with_reducible apply State.setFlag_ok | with_reducible apply Outcome.keeps_next
    | with_reducible exact Outcome.keeps_fault | extract_lets | split | (dsimp only; with_reducible assumption) | intro _
    | rw [State.mk_upd] | dsimp +zetaDelta only

theorem execClmClaim_ok {pend : List Instr} (m : Master) (n : Fin 5) (owner : Byte) (res : Byte) (s : State) (ok_s : s.Ok pend) :
    Outcome.Keeps pend (execClmClaim m n owner res s) := by
  unfold execClmClaim
  repeat' first
    | with_reducible assumption | with_reducible refine State.ok_upd ?_ | (refine State.claim_ok_of ?_ (by assumption))
    | with_reducible apply State.claim_ok | with_reducible apply State.clmRequest_ok | with_reducible apply Outcome.keeps_next
    | with_reducible exact Outcome.keeps_fault | extract_lets | split | (dsimp only; with_reducible assumption) | intro _
    | rw [State.mk_upd] | dsimp +zetaDelta only

theorem execClmRelease_ok {pend : List Instr} (m : Master) (n : Fin 5) (owner : Byte) (res : Byte) (s : State) (ok_s : s.Ok pend) :
    Outcome.Keeps pend (execClmRelease m n owner res s) := by
  unfold execClmRelease
  repeat' first
    | with_reducible assumption | with_reducible refine State.ok_upd ?_ | (refine State.release_ok_of ?_ (by assumption))
    | with_reducible apply State.release_ok | with_reducible apply State.clmRequest_ok | with_reducible apply Outcome.keeps_next
    | with_reducible exact Outcome.keeps_fault | extract_lets | split | (dsimp only; with_reducible assumption) | intro _
    | rw [State.mk_upd] | dsimp +zetaDelta only

end Sys2Proof.Machine
end

