-- ==== Sys2Proof/Laws/KeepExpose.lean ====
section
/-! SUPPORT. The operations keep the predicate State.Ok, one lemma each: RUN_SYNC, rendering, dose, time, the beam array, beam checks and tracking. -/

set_option Elab.async false
set_option linter.all false

namespace Sys2Proof.Machine

theorem State.showFit_ok {pend : List Instr} (s : State) (ok_s : s.Ok pend) :
    (State.showFit s).Ok pend := by
  unfold State.showFit
  repeat' first
    | with_reducible assumption | with_reducible refine State.ok_upd ?_ | with_reducible apply State.setFlag_ok | extract_lets
    | split | (dsimp only; with_reducible assumption) | intro _ | rw [State.mk_upd] | dsimp +zetaDelta only

theorem State.keepHome_ok {pend : List Instr} (s : State) (ok_s : s.Ok pend) :
    (State.keepHome s).Ok pend := by
  unfold State.keepHome
  repeat' first
    | with_reducible assumption | with_reducible refine State.ok_upd ?_ | extract_lets | split
    | (dsimp only; with_reducible assumption) | intro _ | rw [State.mk_upd] | dsimp +zetaDelta only

theorem State.restDone_ok {pend : List Instr} (s : State) (ok_s : s.Ok pend) :
    (State.restDone s).Ok pend := by
  unfold State.restDone
  repeat' first
    | with_reducible assumption | with_reducible refine State.ok_upd ?_ | extract_lets | split
    | (dsimp only; with_reducible assumption) | intro _ | rw [State.mk_upd] | dsimp +zetaDelta only

theorem State.setChan_ok {pend : List Instr} (s : State) (n : Nat) (c : DmaChan) (ok_s : s.Ok pend) :
    (State.setChan s n c).Ok pend := by
  unfold State.setChan
  repeat' first
    | with_reducible assumption | with_reducible refine State.ok_upd ?_ | extract_lets | split
    | (dsimp only; with_reducible assumption) | intro _ | rw [State.mk_upd] | dsimp +zetaDelta only

theorem State.freshChan_ok {pend : List Instr} (s : State) (n : Nat) (ok_s : s.Ok pend) :
    (State.freshChan s n).Ok pend := by
  unfold State.freshChan
  repeat' first
    | with_reducible assumption | with_reducible refine State.ok_upd ?_ | with_reducible apply State.setChan_ok | extract_lets
    | split | (dsimp only; with_reducible assumption) | intro _ | rw [State.mk_upd] | dsimp +zetaDelta only

theorem State.settleCredit_ok {pend : List Instr} (s : State) (n : Nat) (b : Nat) (ok_s : s.Ok pend) :
    (State.settleCredit s n b).Ok pend := by
  unfold State.settleCredit
  repeat' first
    | with_reducible assumption | with_reducible refine State.ok_upd ?_ | with_reducible apply State.setChan_ok | extract_lets
    | split | (dsimp only; with_reducible assumption) | intro _ | rw [State.mk_upd] | dsimp +zetaDelta only

theorem State.loadBegins_ok {pend : List Instr} (s : State) (n : Nat) (pk : Packet) (ok_s : s.Ok pend) :
    (State.loadBegins s n pk).Ok pend := by
  unfold State.loadBegins
  repeat' first
    | with_reducible assumption | with_reducible refine State.ok_upd ?_ | with_reducible apply State.freshChan_ok
    | with_reducible apply State.setFlag_ok | with_reducible apply State.setFld_ok | with_reducible apply State.settleCredit_ok
    | with_reducible apply State.wr_ok | with_reducible apply State.ok_foldl | extract_lets | split
    | (dsimp only; with_reducible assumption) | intro _ | rw [State.mk_upd] | dsimp +zetaDelta only

theorem State.loadNext_ok {pend : List Instr} (s : State) (ok_s : s.Ok pend) :
    (State.loadNext s).Ok pend := by
  unfold State.loadNext
  repeat' first
    | with_reducible assumption | with_reducible refine State.ok_upd ?_ | with_reducible apply State.loadBegins_ok | extract_lets
    | split | (dsimp only; with_reducible assumption) | intro _ | rw [State.mk_upd] | dsimp +zetaDelta only

theorem State.loadAsks_ok {pend : List Instr} (s : State) (n : Nat) (pk : Packet) (ok_s : s.Ok pend) :
    (State.loadAsks s n pk).Ok pend := by
  unfold State.loadAsks
  repeat' first
    | with_reducible assumption | with_reducible refine State.ok_upd ?_ | with_reducible apply State.loadBegins_ok | extract_lets
    | split | (dsimp only; with_reducible assumption) | intro _ | rw [State.mk_upd] | dsimp +zetaDelta only

theorem State.loadEnds_ok {pend : List Instr} (s : State) (n : Nat) (done : Bool) (ok_s : s.Ok pend) :
    (State.loadEnds s n done).Ok pend := by
  unfold State.loadEnds
  repeat' first
    | with_reducible assumption | with_reducible refine State.ok_upd ?_ | with_reducible apply State.freshChan_ok
    | with_reducible apply State.loadNext_ok | with_reducible apply State.setFld_ok | extract_lets | split
    | (dsimp only; with_reducible assumption) | intro _ | rw [State.mk_upd] | dsimp +zetaDelta only

theorem State.absent_ok {pend : List Instr} (s : State) (kind : Nat) (gen : Nat) (ok_s : s.Ok pend) :
    (State.absent s kind gen).Ok pend := by
  unfold State.absent
  repeat' first
    | with_reducible assumption | with_reducible refine State.ok_upd ?_ | with_reducible apply State.complete_ok
    | with_reducible apply State.ok_foldl | extract_lets | split | (dsimp only; with_reducible assumption) | intro _
    | rw [State.mk_upd] | dsimp +zetaDelta only

theorem State.loadHalts_ok {pend : List Instr} (s : State) (cause : Nat) (addr : Nat) (ok_s : s.Ok pend) :
    (State.loadHalts s cause addr).Ok pend := by
  unfold State.loadHalts
  repeat' first
    | with_reducible assumption | with_reducible refine State.ok_upd ?_ | with_reducible apply State.absent_ok
    | with_reducible apply State.complete_ok | with_reducible apply State.freeSlot_ok | with_reducible apply State.loadEnds_ok
    | extract_lets | split | (dsimp only; with_reducible assumption) | intro _ | rw [State.mk_upd] | dsimp +zetaDelta only

theorem State.haltChan_ok {pend : List Instr} (s : State) (n : Nat) (wr : Bool) (cause : Nat) (addr : Nat) (ok_s : s.Ok pend) :
    (State.haltChan s n wr cause addr).Ok pend := by
  unfold State.haltChan
  repeat' first
    | with_reducible assumption | with_reducible refine State.ok_upd ?_ | with_reducible apply State.portServed_ok
    | with_reducible apply State.pulse_ok | with_reducible apply State.raise_ok | with_reducible apply State.setFlag_ok
    | with_reducible apply State.setFld_ok | with_reducible apply State.wr_ok | extract_lets | split
    | (dsimp only; with_reducible assumption) | intro _ | rw [State.mk_upd] | dsimp +zetaDelta only

theorem State.dmaHaltAt_ok {pend : List Instr} (s : State) (n : Nat) (wr : Bool) (cause : Nat) (addr : Nat) (ok_s : s.Ok pend) :
    (State.dmaHaltAt s n wr cause addr).Ok pend := by
  unfold State.dmaHaltAt
  repeat' first
    | with_reducible assumption | with_reducible refine State.ok_upd ?_ | with_reducible apply State.haltChan_ok
    | with_reducible apply State.loadHalts_ok | extract_lets | split | (dsimp only; with_reducible assumption) | intro _
    | rw [State.mk_upd] | dsimp +zetaDelta only

theorem State.scnHalves_ok {pend : List Instr} (s : State) (n : Nat) (ok_s : s.Ok pend) :
    (State.scnHalves s n).Ok pend := by
  unfold State.scnHalves
  repeat' first
    | with_reducible assumption | with_reducible refine State.ok_upd ?_ | with_reducible apply State.wr_ok | extract_lets | split
    | (dsimp only; with_reducible assumption) | intro _ | rw [State.mk_upd] | dsimp +zetaDelta only

theorem State.beginDesc_ok {pend : List Instr} (s : State) (n : Nat) (ok_s : s.Ok pend) :
    (State.beginDesc s n).Ok pend := by
  unfold State.beginDesc
  repeat' first
    | with_reducible assumption | with_reducible refine State.ok_upd ?_ | with_reducible apply State.dmaHaltAt_ok
    | with_reducible apply State.freshChan_ok | with_reducible apply State.scnHalves_ok | with_reducible apply State.setFld_ok
    | with_reducible apply State.settleCredit_ok | extract_lets | split | (dsimp only; with_reducible assumption) | intro _
    | rw [State.mk_upd] | dsimp +zetaDelta only

theorem State.startChan_ok {pend : List Instr} (s : State) (n : Nat) (ok_s : s.Ok pend) :
    (State.startChan s n).Ok pend := by
  unfold State.startChan
  repeat' first
    | with_reducible assumption | with_reducible refine State.ok_upd ?_ | with_reducible apply State.beginDesc_ok
    | with_reducible apply State.wr_ok | extract_lets | split | (dsimp only; with_reducible assumption) | intro _
    | rw [State.mk_upd] | dsimp +zetaDelta only

theorem State.dmaStart_ok {pend : List Instr} (s : State) (n : Nat) (byPulse : Bool) (ok_s : s.Ok pend) :
    (State.dmaStart s n byPulse).Ok pend := by
  unfold State.dmaStart
  repeat' first
    | with_reducible assumption | with_reducible refine State.ok_upd ?_ | with_reducible apply State.setChan_ok
    | with_reducible apply State.setFlag_ok | with_reducible apply State.startChan_ok | extract_lets | split
    | (dsimp only; with_reducible assumption) | intro _ | rw [State.mk_upd] | dsimp +zetaDelta only

theorem State.dmaIdle_ok {pend : List Instr} (s : State) (n : Nat) (ok_s : s.Ok pend) :
    (State.dmaIdle s n).Ok pend := by
  unfold State.dmaIdle
  repeat' first
    | with_reducible assumption | with_reducible refine State.ok_upd ?_ | with_reducible apply State.freshChan_ok
    | with_reducible apply State.setFld_ok | with_reducible apply State.startChan_ok | extract_lets | split
    | (dsimp only; with_reducible assumption) | intro _ | rw [State.mk_upd] | dsimp +zetaDelta only

theorem State.dmaStop_ok {pend : List Instr} (s : State) (n : Nat) (ok_s : s.Ok pend) :
    (State.dmaStop s n).Ok pend := by
  unfold State.dmaStop
  repeat' first
    | with_reducible assumption | with_reducible refine State.ok_upd ?_ | with_reducible apply State.freshChan_ok
    | with_reducible apply State.portServed_ok | with_reducible apply State.setFld_ok | extract_lets | split
    | (dsimp only; with_reducible assumption) | intro _ | rw [State.mk_upd] | dsimp +zetaDelta only

theorem State.uploadRan_ok {pend : List Instr} (s : State) (pk : Packet) (crc : Nat) (ok_s : s.Ok pend) :
    (State.uploadRan s pk crc).Ok pend := by
  unfold State.uploadRan
  repeat' first
    | with_reducible assumption | with_reducible refine State.ok_upd ?_ | with_reducible apply State.duty_ok | extract_lets | split
    | (dsimp only; with_reducible assumption) | intro _ | rw [State.mk_upd] | dsimp +zetaDelta only

theorem State.upload_ok {pend : List Instr} (s : State) (pk : Packet) (host : HostRead) (ok_s : s.Ok pend) :
    (State.upload s pk host).Ok pend := by
  unfold State.upload
  repeat' first
    | with_reducible assumption | with_reducible refine State.ok_upd ?_ | with_reducible apply State.complete_ok
    | with_reducible apply State.dmaStop_ok | with_reducible apply State.haltChan_ok | with_reducible apply State.removeRegions_ok
    | with_reducible apply State.resident_ok | with_reducible apply State.storeWrite_ok | with_reducible apply State.throughPorts_ok
    | with_reducible apply State.uploadRan_ok | with_reducible apply State.wr_ok | with_reducible apply State.ok_foldl
    | extract_lets | split | (dsimp only; with_reducible assumption) | intro _ | rw [State.mk_upd] | dsimp +zetaDelta only

theorem State.scnSetup_ok {pend : List Instr} (s : State) (x : Stripe) (ok_s : s.Ok pend) :
    (State.scnSetup s x).Ok pend := by
  unfold State.scnSetup
  repeat' first
    | with_reducible assumption | with_reducible refine State.ok_upd ?_ | with_reducible apply State.dmaStart_ok
    | with_reducible apply State.dmaStop_ok | with_reducible apply State.settleCredit_ok | with_reducible apply State.wr_ok
    | with_reducible apply State.ok_foldl | extract_lets | split | (dsimp only; with_reducible assumption) | intro _
    | rw [State.mk_upd] | dsimp +zetaDelta only

theorem State.stopSpread_ok {pend : List Instr} (s : State) (ok_s : s.Ok pend) :
    (State.stopSpread s).Ok pend := by
  unfold State.stopSpread
  repeat' first
    | with_reducible assumption | with_reducible refine State.ok_upd ?_ | with_reducible apply State.emit_ok
    | with_reducible apply State.setFlag_ok | extract_lets | split | (dsimp only; with_reducible assumption) | intro _
    | rw [State.mk_upd] | dsimp +zetaDelta only

theorem State.startSpread_ok {pend : List Instr} (s : State) (ok_s : s.Ok pend) :
    (State.startSpread s).Ok pend := by
  unfold State.startSpread
  repeat' first
    | with_reducible assumption | with_reducible refine State.ok_upd ?_ | with_reducible apply State.emit_ok
    | with_reducible apply State.setFlag_ok | with_reducible apply State.stopSpread_ok | extract_lets | split
    | (dsimp only; with_reducible assumption) | intro _ | rw [State.mk_upd] | dsimp +zetaDelta only

theorem State.enterService_ok {pend : List Instr} (s : State) (ok_s : s.Ok pend) :
    (State.enterService s).Ok pend := by
  unfold State.enterService
  repeat' first
    | with_reducible assumption | with_reducible refine State.ok_upd ?_ | with_reducible apply State.aliveCheck_ok
    | with_reducible apply State.charge_ok | with_reducible apply State.serviceRails_ok | with_reducible apply State.setFld_ok
    | with_reducible apply State.startSpread_ok | with_reducible apply State.wr_ok | extract_lets | split
    | (dsimp only; with_reducible assumption) | intro _ | rw [State.mk_upd] | dsimp +zetaDelta only

theorem State.openStep_ok {pend : List Instr} (s : State) (c : StepCmd) (ok_s : s.Ok pend) : (s.openStep c).Ok pend := by
  unfold State.openStep
  extract_lets bad o s1
  have h1 : s1.Ok pend := by
    simp only [s1]
    split
    · exact State.updStripe_ok _ _ _ ok_s
    · exact ok_s
  rw [State.mk_upd]
  exact State.ok_upd h1 (hr := fun _ => Or.inr fun c hc => by cases hc; rfl)

theorem State.openNext_ok {pend : List Instr} (s : State) (ok_s : s.Ok pend) :
    (State.openNext s).Ok pend := by
  unfold State.openNext
  repeat' first
    | with_reducible assumption | with_reducible refine State.ok_upd ?_ | with_reducible apply State.openStep_ok | extract_lets
    | split | (dsimp only; with_reducible assumption) | intro _ | rw [State.mk_upd] | dsimp +zetaDelta only

theorem State.closeStep_ok {pend : List Instr} (s : State) (ok_s : s.Ok pend) :
    (State.closeStep s).Ok pend := by
  unfold State.closeStep
  repeat' first
    | with_reducible assumption | with_reducible refine State.ok_upd ?_ | with_reducible apply State.openNext_ok | extract_lets
    | split | (dsimp only; with_reducible assumption) | intro _ | rw [State.mk_upd] | dsimp +zetaDelta only

theorem State.startStripe_ok {pend : List Instr} (s : State) (h : Nat) (pk : Packet) (ok_s : s.Ok pend) :
    (State.startStripe s h pk).Ok pend := by
  unfold State.startStripe
  repeat' first
    | with_reducible assumption | with_reducible refine State.ok_upd ?_ | with_reducible apply State.flushTail_ok
    | with_reducible apply State.footFor_ok | with_reducible apply State.scnSetup_ok | with_reducible apply State.setFld_ok
    | with_reducible apply State.sparesAnew_ok | with_reducible apply State.updStripe_ok | with_reducible apply State.wr_ok
    | extract_lets | split | (dsimp only; with_reducible assumption) | intro _ | rw [State.mk_upd] | dsimp +zetaDelta only

theorem State.changeMode_ok {pend : List Instr} (s : State) (target : Nat) (ok_s : s.Ok pend) :
    (State.changeMode s target).Ok pend := by
  unfold State.changeMode
  repeat' first
    | with_reducible assumption | with_reducible refine State.ok_upd ?_ | with_reducible apply State.aliveCheck_ok
    | with_reducible apply State.complete_ok | with_reducible apply State.enterService_ok | with_reducible apply State.keepHome_ok
    | with_reducible apply State.restDone_ok | with_reducible apply State.setFld_ok | with_reducible apply State.stopSpread_ok
    | with_reducible apply State.ok_foldl | extract_lets | split | (dsimp only; with_reducible assumption) | intro _
    | rw [State.mk_upd] | dsimp +zetaDelta only

theorem State.queueStep_ok {pend : List Instr} (s : State) (pk : Packet) (handle : Nat) (target : Nat) (ok_s : s.Ok pend) :
    (State.queueStep s pk handle target).Ok pend := by
  unfold State.queueStep
  repeat' first
    | with_reducible assumption | with_reducible refine State.ok_upd ?_ | with_reducible apply State.complete_ok | extract_lets
    | split | (dsimp only; with_reducible assumption) | intro _ | rw [State.mk_upd] | dsimp +zetaDelta only

theorem State.logReason_ok {pend : List Instr} (s : State) (r : Nat) (ok_s : s.Ok pend) :
    (State.logReason s r).Ok pend := by
  unfold State.logReason
  repeat' first
    | with_reducible assumption | with_reducible refine State.ok_upd ?_ | extract_lets | split
    | (dsimp only; with_reducible assumption) | intro _ | rw [State.mk_upd] | dsimp +zetaDelta only

theorem execHold_ok {pend : List Instr} (pk : Packet) (s : State) (ok_s : s.Ok pend) :
    Outcome.Keeps pend (execHold pk s) := by
  unfold execHold
  repeat' first
    | with_reducible assumption | with_reducible refine State.ok_upd ?_ | with_reducible apply State.complete_ok
    | with_reducible apply State.decidePk_ok | with_reducible apply State.enterHold_ok | with_reducible apply State.logReason_ok
    | with_reducible apply Outcome.keeps_next | with_reducible exact Outcome.keeps_fault | extract_lets | split
    | (dsimp only; with_reducible assumption) | intro _ | rw [State.mk_upd] | dsimp +zetaDelta only

theorem State.mapReads_ok {pend : List Instr} (s : State) (x : Stripe) (p : Nat) (w : Nat) (j : Nat) (ok_s : s.Ok pend) :
    (State.mapReads s x p w j).Ok pend := by
  unfold State.mapReads
  repeat' first
    | with_reducible assumption | with_reducible refine State.ok_upd ?_ | with_reducible apply State.readBlocks_ok
    | with_reducible apply State.ok_foldl | extract_lets | split | (dsimp only; with_reducible assumption) | intro _
    | rw [State.mk_upd] | dsimp +zetaDelta only

theorem State.layStat_ok {pend : List Instr} (s : State) (ok_s : s.Ok pend) :
    (State.layStat s).Ok pend := by
  unfold State.layStat
  repeat' first
    | with_reducible assumption | with_reducible refine State.ok_upd ?_ | with_reducible apply State.wr_ok | extract_lets | split
    | (dsimp only; with_reducible assumption) | intro _ | rw [State.mk_upd] | dsimp +zetaDelta only

theorem State.raiseBin_ok {pend : List Instr} (s : State) (h : Nat) (src : Nat) (bin : Nat) (ok_s : s.Ok pend) :
    (State.raiseBin s h src bin).Ok pend := by
  unfold State.raiseBin
  repeat' first
    | with_reducible assumption | with_reducible refine State.ok_upd ?_ | with_reducible apply State.raise_ok | extract_lets | split
    | (dsimp only; with_reducible assumption) | intro _ | rw [State.mk_upd] | dsimp +zetaDelta only

theorem State.updBin_ok {pend : List Instr} (s : State) (h : Nat) (idx : Nat) (f : Bin → Bin) (ok_s : s.Ok pend) :
    (State.updBin s h idx f).Ok pend := by
  unfold State.updBin
  repeat' first
    | with_reducible assumption | with_reducible refine State.ok_upd ?_ | extract_lets | split
    | (dsimp only; with_reducible assumption) | intro _ | rw [State.mk_upd] | dsimp +zetaDelta only

theorem State.layErr_ok {pend : List Instr} (s : State) (cause : Nat) (bin : Nat) (ok_s : s.Ok pend) :
    (State.layErr s cause bin).Ok pend := by
  unfold State.layErr
  repeat' first
    | with_reducible assumption | with_reducible refine State.ok_upd ?_ | with_reducible apply State.hwSet_ok
    | with_reducible apply State.wr_ok | extract_lets | split | (dsimp only; with_reducible assumption) | intro _
    | rw [State.mk_upd] | dsimp +zetaDelta only

theorem State.binError_ok {pend : List Instr} (s : State) (h : Nat) (bin : Nat) (cause : Nat) (ok_s : s.Ok pend) :
    (State.binError s h bin cause).Ok pend := by
  unfold State.binError
  repeat' first
    | with_reducible assumption | with_reducible refine State.ok_upd ?_ | with_reducible apply State.layErr_ok
    | with_reducible apply State.raiseBin_ok | with_reducible apply State.updBin_ok | extract_lets | split
    | (dsimp only; with_reducible assumption) | intro _ | rw [State.mk_upd] | dsimp +zetaDelta only

theorem State.addBin_ok {pend : List Instr} (s : State) (x : Stripe) (b : Bin) (ok_s : s.Ok pend) :
    (State.addBin s x b).Ok pend := by
  unfold State.addBin
  repeat' first
    | with_reducible assumption | with_reducible refine State.ok_upd ?_ | extract_lets | split
    | (dsimp only; with_reducible assumption) | intro _ | rw [State.mk_upd] | dsimp +zetaDelta only

theorem State.addBad_ok {pend : List Instr} (s : State) (x : Stripe) (idx : Nat) (cause : Nat) (ok_s : s.Ok pend) :
    (State.addBad s x idx cause).Ok pend := by
  unfold State.addBad
  repeat' first
    | with_reducible assumption | with_reducible refine State.ok_upd ?_ | with_reducible apply State.addBin_ok
    | with_reducible apply State.layErr_ok | with_reducible apply State.raiseBin_ok | extract_lets | split
    | (dsimp only; with_reducible assumption) | intro _ | rw [State.mk_upd] | dsimp +zetaDelta only

theorem State.binFetch_ok {pend : List Instr} (s : State) (x : Stripe) (j : Job) (idx : Nat) (ok_s : s.Ok pend) :
    (State.binFetch s x j idx).Ok pend := by
  unfold State.binFetch
  repeat' first
    | with_reducible assumption | with_reducible refine State.ok_upd ?_ | with_reducible apply State.addBad_ok
    | with_reducible apply State.addBin_ok | with_reducible apply State.layErr_ok | with_reducible apply State.memUncorr_ok
    | with_reducible apply State.portAsks_ok | with_reducible apply State.portServed_ok | with_reducible apply State.raiseBin_ok
    | with_reducible apply State.readBlocks_ok | extract_lets | split | (dsimp only; with_reducible assumption) | intro _
    | rw [State.mk_upd] | dsimp +zetaDelta only

theorem State.aheadFor_ok {pend : List Instr} (s : State) (h : Nat) (ok_s : s.Ok pend) :
    (State.aheadFor s h).Ok pend := by
  unfold State.aheadFor
  repeat' first
    | with_reducible assumption | with_reducible refine State.ok_upd ?_ | extract_lets | split
    | (dsimp only; with_reducible assumption) | intro _ | rw [State.mk_upd] | dsimp +zetaDelta only

theorem State.primeFetch_ok {pend : List Instr} (s : State) (h : Nat) (ok_s : s.Ok pend) :
    (State.primeFetch s h).Ok pend := by
  unfold State.primeFetch
  repeat' first
    | with_reducible assumption | with_reducible refine State.ok_upd ?_ | with_reducible apply State.aheadFor_ok
    | with_reducible apply State.binFetch_ok | extract_lets | split | (dsimp only; with_reducible assumption) | intro _
    | rw [State.mk_upd] | dsimp +zetaDelta only

theorem State.dropBins_ok {pend : List Instr} (s : State) (chans : Nat) (ok_s : s.Ok pend) :
    (State.dropBins s chans).Ok pend := by
  unfold State.dropBins
  repeat' first
    | with_reducible assumption | with_reducible refine State.ok_upd ?_ | extract_lets | split
    | (dsimp only; with_reducible assumption) | intro _ | rw [State.mk_upd] | dsimp +zetaDelta only

theorem State.renderLine_ok {pend : List Instr} (s : State) (x : Stripe) (j : Job) (b : Bin) (l : Nat) (ok_s : s.Ok pend) :
    (State.renderLine s x j b l).1.Ok pend := by
  unfold State.renderLine
  repeat' first
    | with_reducible assumption | with_reducible refine State.ok_upd ?_ | with_reducible apply State.count_ok
    | with_reducible apply State.mapReads_ok | with_reducible apply State.memUncorr_ok | with_reducible apply State.raiseBin_ok
    | with_reducible apply State.updStripe_ok | extract_lets | split | (dsimp only; with_reducible assumption) | intro _
    | rw [State.mk_upd] | dsimp +zetaDelta only

theorem State.renderLine_ok_of {pend : List Instr} {s : State} {x : Stripe} {j : Job} {b : Bin} {l : Nat} (ok_s : s.Ok pend) {t : State} {r} (e : State.renderLine s x j b l = (t, r)) :
    t.Ok pend := by
  have h := State.renderLine_ok s x j b l ok_s
  rw [e] at h
  exact h

theorem State.finishInterval_ok {pend : List Instr} (s : State) (x : Stripe) (j : Job) (n : Nat) (ok_s : s.Ok pend) :
    (State.finishInterval s x j n).Ok pend := by
  unfold State.finishInterval
  repeat' first
    | with_reducible assumption | with_reducible refine State.ok_upd ?_ | with_reducible apply State.count_ok
    | with_reducible apply State.pulse_ok | with_reducible apply State.updStripe_ok | extract_lets | split
    | (dsimp only; with_reducible assumption) | intro _ | rw [State.mk_upd] | dsimp +zetaDelta only

theorem State.takeHalf_ok {pend : List Instr} (s : State) (k : Nat) (ok_s : s.Ok pend) :
    (State.takeHalf s k).1.Ok pend := by
  unfold State.takeHalf
  repeat' first
    | with_reducible assumption | with_reducible refine State.ok_upd ?_ | extract_lets | split
    | (dsimp only; with_reducible assumption) | intro _ | rw [State.mk_upd] | dsimp +zetaDelta only

theorem State.takeHalf_ok_of {pend : List Instr} {s : State} {k : Nat} (ok_s : s.Ok pend) {t : State} {r} (e : State.takeHalf s k = (t, r)) :
    t.Ok pend := by
  have h := State.takeHalf_ok s k ok_s
  rw [e] at h
  exact h

theorem State.skipLost_ok {pend : List Instr} (s : State) (j : Job) (ok_s : s.Ok pend) :
    (State.skipLost s j).Ok pend := by
  unfold State.skipLost
  repeat' first
    | with_reducible assumption | with_reducible refine State.ok_upd ?_ | extract_lets | split
    | (dsimp only; with_reducible assumption) | intro _ | rw [State.mk_upd] | dsimp +zetaDelta only

theorem State.placeLine_ok {pend : List Instr} (s : State) (x : Stripe) (j : Job) (l : Nat) (line : StagedLine) (ok_s : s.Ok pend) :
    (State.placeLine s x j l line).Ok pend := by
  unfold State.placeLine
  repeat' first
    | with_reducible assumption | with_reducible refine State.ok_upd ?_ | with_reducible apply State.finishInterval_ok
    | extract_lets | split | (dsimp only; with_reducible assumption) | intro _ | rw [State.mk_upd] | dsimp +zetaDelta only

theorem State.decideLine_ok {pend : List Instr} (s : State) (x : Stripe) (j : Nat) (reason : Option (Nat × Bool)) (ok_s : s.Ok pend) :
    (State.decideLine s x j reason).Ok pend := by
  unfold State.decideLine
  repeat' first
    | with_reducible assumption | with_reducible refine State.ok_upd ?_ | with_reducible apply State.logLines_ok | extract_lets
    | split | (dsimp only; with_reducible assumption) | intro _ | rw [State.mk_upd] | dsimp +zetaDelta only

theorem State.storeLine_ok {pend : List Instr} (s : State) (l : StoredLine) (ok_s : s.Ok pend) :
    (State.storeLine s l).Ok pend := by
  unfold State.storeLine
  repeat' first
    | with_reducible assumption | with_reducible refine State.ok_upd ?_ | with_reducible apply State.setFld_ok
    | with_reducible apply State.wr_ok | extract_lets | split | (dsimp only; with_reducible assumption) | intro _
    | rw [State.mk_upd] | dsimp +zetaDelta only

theorem State.freeLine_ok {pend : List Instr} (s : State) (j : Nat) (ok_s : s.Ok pend) :
    (State.freeLine s j).Ok pend := by
  unfold State.freeLine
  repeat' first
    | with_reducible assumption | with_reducible refine State.ok_upd ?_ | with_reducible apply State.wr_ok | extract_lets | split
    | (dsimp only; with_reducible assumption) | intro _ | rw [State.mk_upd] | dsimp +zetaDelta only

theorem State.storeBlank_ok {pend : List Instr} (s : State) (x : Stripe) (j : Nat) (m : Nat) (reason : Nat) (internal : Bool) (ok_s : s.Ok pend) :
    (State.storeBlank s x j m reason internal).Ok pend := by
  unfold State.storeBlank
  repeat' first
    | with_reducible assumption | with_reducible refine State.ok_upd ?_ | with_reducible apply State.decideLine_ok
    | with_reducible apply State.storeLine_ok | extract_lets | split | (dsimp only; with_reducible assumption) | intro _
    | rw [State.mk_upd] | dsimp +zetaDelta only

theorem State.commitLine_ok {pend : List Instr} (s : State) (x : Stripe) (m : Nat) (l : StagedLine) (fp : Nat) (verifyOk : Bool) (ok_s : s.Ok pend) :
    (State.commitLine s x m l fp verifyOk).Ok pend := by
  unfold State.commitLine
  repeat' first
    | with_reducible assumption | with_reducible refine State.ok_upd ?_ | with_reducible apply State.count_ok
    | with_reducible apply State.decideLine_ok | with_reducible apply State.raiseBin_ok | with_reducible apply State.storeBlank_ok
    | with_reducible apply State.storeLine_ok | with_reducible apply State.wr_ok | extract_lets | split
    | (dsimp only; with_reducible assumption) | intro _ | rw [State.mk_upd] | dsimp +zetaDelta only

theorem State.raiseLate_ok {pend : List Instr} (s : State) (x : Stripe) (j : Nat) (lines : Nat) (edges : Nat) (ok_s : s.Ok pend) :
    (State.raiseLate s x j lines edges).Ok pend := by
  unfold State.raiseLate
  repeat' first
    | with_reducible assumption | with_reducible refine State.ok_upd ?_ | with_reducible apply State.count_ok
    | with_reducible apply State.onOneClock_ok | with_reducible apply State.raiseBin_ok | extract_lets | split
    | (dsimp only; with_reducible assumption) | intro _ | rw [State.mk_upd] | dsimp +zetaDelta only

theorem State.lateCheck_ok {pend : List Instr} (s : State) (x : Stripe) (j : Nat) (ok_s : s.Ok pend) :
    (State.lateCheck s x j).Ok pend := by
  unfold State.lateCheck
  repeat' first
    | with_reducible assumption | with_reducible refine State.ok_upd ?_ | with_reducible apply State.dropBins_ok
    | with_reducible apply State.layStat_ok | with_reducible apply State.raiseLate_ok | with_reducible apply State.storeBlank_ok
    | extract_lets | split | (dsimp only; with_reducible assumption) | intro _ | rw [State.mk_upd] | dsimp +zetaDelta only

theorem State.showKernel_ok {pend : List Instr} (s : State) (ok_s : s.Ok pend) :
    (State.showKernel s).Ok pend := by
  unfold State.showKernel
  repeat' first
    | with_reducible assumption | with_reducible refine State.ok_upd ?_ | with_reducible apply State.setFlag_ok
    | with_reducible apply State.setFld_ok | extract_lets | split | (dsimp only; with_reducible assumption) | intro _
    | rw [State.mk_upd] | dsimp +zetaDelta only

theorem State.settleRetires_ok {pend : List Instr} (s : State) (g : Nat) (ok_s : s.Ok pend) :
    (State.settleRetires s g).Ok pend := by
  unfold State.settleRetires
  repeat' first
    | with_reducible assumption | with_reducible refine State.ok_upd ?_ | with_reducible apply State.complete_ok
    | with_reducible apply State.ok_foldl | extract_lets | split | (dsimp only; with_reducible assumption) | intro _
    | rw [State.mk_upd] | dsimp +zetaDelta only

theorem State.kernelOut_ok {pend : List Instr} (s : State) (n : Nat) (ok_s : s.Ok pend) :
    (State.kernelOut s n).Ok pend := by
  unfold State.kernelOut
  repeat' first
    | with_reducible assumption | with_reducible refine State.ok_upd ?_ | with_reducible apply State.freeSlot_ok
    | with_reducible apply State.setFld_ok | with_reducible apply State.settleRetires_ok | extract_lets | split
    | (dsimp only; with_reducible assumption) | intro _ | rw [State.mk_upd] | dsimp +zetaDelta only

theorem State.swapKernel_ok {pend : List Instr} (s : State) (ok_s : s.Ok pend) :
    (State.swapKernel s).Ok pend := by
  unfold State.swapKernel
  repeat' first
    | with_reducible assumption | with_reducible refine State.ok_upd ?_ | with_reducible apply State.kernelOut_ok
    | with_reducible apply State.setFld_ok | with_reducible apply State.showKernel_ok | with_reducible apply State.ok_foldl
    | extract_lets | split | (dsimp only; with_reducible assumption) | intro _ | rw [State.mk_upd] | dsimp +zetaDelta only

theorem State.probe_ok {pend : List Instr} (s : State) (hs : List Hit) (qs : List Int) (shot : Nat) (ok_s : s.Ok pend) :
    (State.probe s hs qs shot).Ok pend := by
  unfold State.probe
  repeat' first
    | with_reducible assumption | with_reducible refine State.ok_upd ?_ | with_reducible apply State.setFlag_ok
    | with_reducible apply State.wr_ok | extract_lets | split | (dsimp only; with_reducible assumption) | intro _
    | rw [State.mk_upd] | dsimp +zetaDelta only

theorem State.dosCount_ok {pend : List Instr} (s : State) (n : Nat) (k : Nat) (ok_s : s.Ok pend) :
    (State.dosCount s n k).Ok pend := by
  unfold State.dosCount
  repeat' first
    | with_reducible assumption | with_reducible refine State.ok_upd ?_ | with_reducible apply State.count_ok | extract_lets | split
    | (dsimp only; with_reducible assumption) | intro _ | rw [State.mk_upd] | dsimp +zetaDelta only

theorem State.computeShot_ok {pend : List Instr} (s : State) (x : Stripe) (shot : Nat) (ok_s : s.Ok pend) :
    (State.computeShot s x shot).Ok pend := by
  unfold State.computeShot
  repeat' first
    | with_reducible assumption | with_reducible refine State.ok_upd ?_ | with_reducible apply State.dosCount_ok
    | with_reducible apply State.freeLine_ok | with_reducible apply State.noLiveUpto_ok | with_reducible apply State.probe_ok
    | with_reducible apply State.updStripe_ok | with_reducible apply State.ok_foldl | extract_lets | split
    | (dsimp only; with_reducible assumption) | intro _ | rw [State.mk_upd] | dsimp +zetaDelta only

theorem State.beginShot_ok {pend : List Instr} (s : State) (x : Stripe) (shot : Nat) (ok_s : s.Ok pend) :
    (State.beginShot s x shot).Ok pend := by
  unfold State.beginShot
  repeat' first
    | with_reducible assumption | with_reducible refine State.ok_upd ?_ | with_reducible apply State.computeShot_ok
    | with_reducible apply State.lateCheck_ok | extract_lets | split | (dsimp only; with_reducible assumption) | intro _
    | rw [State.mk_upd] | dsimp +zetaDelta only

theorem State.heatUpdate_ok {pend : List Instr} (s : State) (ok_s : s.Ok pend) :
    (State.heatUpdate s).Ok pend := by
  unfold State.heatUpdate
  repeat' first
    | with_reducible assumption | with_reducible refine State.ok_upd ?_ | with_reducible apply State.dosCount_ok
    | with_reducible apply State.ok_foldl | extract_lets | split | (dsimp only; with_reducible assumption) | intro _
    | rw [State.mk_upd] | dsimp +zetaDelta only

theorem State.emitShot_ok {pend : List Instr} (s : State) (x : Stripe) (shot : Nat) (ok_s : s.Ok pend) :
    (State.emitShot s x shot).Ok pend := by
  unfold State.emitShot
  repeat' first
    | with_reducible assumption | with_reducible refine State.ok_upd ?_ | with_reducible apply State.sendShot_ok | extract_lets
    | split | (dsimp only; with_reducible assumption) | intro _ | rw [State.mk_upd] | dsimp +zetaDelta only

theorem execDosProbeArm_ok {pend : List Instr} (m : Master) (v : Word) (s : State) (ok_s : s.Ok pend) :
    Outcome.Keeps pend (execDosProbeArm m v s) := by
  unfold execDosProbeArm
  repeat' first
    | with_reducible assumption | with_reducible refine State.ok_upd ?_ | with_reducible apply State.regCmd_ok
    | with_reducible apply State.setFlag_ok | with_reducible apply State.writeByType_ok | with_reducible apply Outcome.keeps_next
    | with_reducible exact Outcome.keeps_fault | extract_lets | split | (dsimp only; with_reducible assumption) | intro _
    | rw [State.mk_upd] | dsimp +zetaDelta only

theorem State.beginFill_ok {pend : List Instr} (s : State) (n : Nat) (gen : Nat) (mlog : Nat) (t : Table) (f : Fill) (ok_s : s.Ok pend) :
    (State.beginFill s n gen mlog t f).Ok pend := by
  unfold State.beginFill
  repeat' first
    | with_reducible assumption | with_reducible refine State.ok_upd ?_ | with_reducible apply State.wr_ok | extract_lets | split
    | (dsimp only; with_reducible assumption) | intro _ | rw [State.mk_upd] | dsimp +zetaDelta only

theorem State.slotFor_ok {pend : List Instr} (s : State) (pk : Packet) (kind : Nat) (genOff : Nat) (f : Nat → State) (ok_s : s.Ok pend) (ok_f : ∀ (x0 : Nat), (f x0).Ok pend) :
    (State.slotFor s pk kind genOff f).Ok pend := by
  unfold State.slotFor
  repeat' first
    | with_reducible assumption | with_reducible refine State.ok_upd ?_ | with_reducible apply ok_f
    | with_reducible apply State.complete_ok | extract_lets | split | (dsimp only; with_reducible assumption) | intro _
    | rw [State.mk_upd] | dsimp +zetaDelta only

theorem State.genLoad_ok {pend : List Instr} (s : State) (pk : Packet) (kind : Nat) (len : Nat) (f : Nat → State) (ok_s : s.Ok pend) (ok_f : ∀ (x0 : Nat), (f x0).Ok pend) :
    (State.genLoad s pk kind len f).Ok pend := by
  unfold State.genLoad
  repeat' first
    | with_reducible assumption | with_reducible refine State.ok_upd ?_ | with_reducible apply ok_f
    | with_reducible apply State.complete_ok | with_reducible apply State.slotFor_ok | extract_lets | split
    | (dsimp only; with_reducible assumption) | intro _ | rw [State.mk_upd] | dsimp +zetaDelta only

theorem State.fillDone_ok {pend : List Instr} (s : State) (n : Nat) (ok_s : s.Ok pend) :
    (State.fillDone s n).Ok pend := by
  unfold State.fillDone
  repeat' first
    | with_reducible assumption | with_reducible refine State.ok_upd ?_ | with_reducible apply State.absent_ok
    | with_reducible apply State.complete_ok | with_reducible apply State.freeSlot_ok | with_reducible apply State.loadEnds_ok
    | with_reducible apply State.setFld_ok | extract_lets | split | (dsimp only; with_reducible assumption) | intro _
    | rw [State.mk_upd] | dsimp +zetaDelta only

theorem State.loadSlot_ok {pend : List Instr} (s : State) (n : Nat) (pk : Packet) (ok_s : s.Ok pend) :
    (State.loadSlot s n pk).Ok pend := by
  unfold State.loadSlot
  repeat' first
    | with_reducible assumption | with_reducible refine State.ok_upd ?_ | with_reducible apply State.fillDone_ok
    | with_reducible apply State.loadAsks_ok | extract_lets | split | (dsimp only; with_reducible assumption) | intro _
    | rw [State.mk_upd] | dsimp +zetaDelta only

theorem State.channelError_ok {pend : List Instr} (s : State) (pk : Packet) (ch : Nat) (base : Nat) (blk : Nat) (ok_s : s.Ok pend) :
    (State.channelError s pk ch base blk).Ok pend := by
  unfold State.channelError
  repeat' first
    | with_reducible assumption | with_reducible refine State.ok_upd ?_ | with_reducible apply State.complete_ok
    | with_reducible apply State.dmaStop_ok | with_reducible apply State.haltChan_ok | with_reducible apply State.memUncorr_ok
    | extract_lets | split | (dsimp only; with_reducible assumption) | intro _ | rw [State.mk_upd] | dsimp +zetaDelta only

theorem State.recordLoad_ok {pend : List Instr} (s : State) (pk : Packet) (kind : Nat) (len : Nat) (bad : List Byte → Option Nat) (ok_s : s.Ok pend) :
    (State.recordLoad s pk kind len bad).Ok pend := by
  unfold State.recordLoad
  repeat' first
    | with_reducible assumption | with_reducible refine State.ok_upd ?_ | with_reducible apply State.beginFill_ok
    | with_reducible apply State.channelError_ok | with_reducible apply State.complete_ok | with_reducible apply State.genLoad_ok
    | with_reducible apply State.loadSlot_ok | with_reducible apply State.readBlocks_ok | with_reducible apply State.throughPorts_ok
    | extract_lets | split | (dsimp only; with_reducible assumption) | intro _ | rw [State.mk_upd] | dsimp +zetaDelta only

theorem State.retire_ok {pend : List Instr} (s : State) (pk : Packet) (n : Nat) (ok_s : s.Ok pend) :
    (State.retire s pk n).Ok pend := by
  unfold State.retire
  repeat' first
    | with_reducible assumption | with_reducible refine State.ok_upd ?_ | with_reducible apply State.absent_ok
    | with_reducible apply State.complete_ok | with_reducible apply State.freeSlot_ok | with_reducible apply State.loadEnds_ok
    | with_reducible apply State.settleRetires_ok | with_reducible apply State.showKernel_ok
    | with_reducible apply State.tookFree_ok | extract_lets | split | (dsimp only; with_reducible assumption) | intro _
    | rw [State.mk_upd] | dsimp +zetaDelta only

theorem State.withEnded_ok {pend : List Instr} (s : State) (x : FaultRec) (ok_s : s.Ok pend) :
    (State.withEnded s x).Ok pend := by
  unfold State.withEnded
  repeat' first
    | with_reducible assumption | with_reducible refine State.ok_upd ?_ | with_reducible apply State.aliveCheck_ok
    | with_reducible apply State.setRec_ok | extract_lets | split | (dsimp only; with_reducible assumption) | intro _
    | rw [State.mk_upd] | dsimp +zetaDelta only

theorem State.condEnd_ok {pend : List Instr} (s : State) (src : Nat) (ok_s : s.Ok pend) :
    (State.condEnd s src).Ok pend := by
  unfold State.condEnd
  repeat' first
    | with_reducible assumption | with_reducible refine State.ok_upd ?_ | with_reducible apply State.withEnded_ok | extract_lets
    | split | (dsimp only; with_reducible assumption) | intro _ | rw [State.mk_upd] | dsimp +zetaDelta only

theorem State.injEnd_ok {pend : List Instr} (s : State) (src : Nat) (ok_s : s.Ok pend) :
    (State.injEnd s src).Ok pend := by
  unfold State.injEnd
  repeat' first
    | with_reducible assumption | with_reducible refine State.ok_upd ?_ | with_reducible apply State.withEnded_ok | extract_lets
    | split | (dsimp only; with_reducible assumption) | intro _ | rw [State.mk_upd] | dsimp +zetaDelta only

theorem State.wireEnd_ok {pend : List Instr} (s : State) (src : Nat) (ok_s : s.Ok pend) :
    (State.wireEnd s src).Ok pend := by
  unfold State.wireEnd
  repeat' first
    | with_reducible assumption | with_reducible refine State.ok_upd ?_ | with_reducible apply State.withEnded_ok | extract_lets
    | split | (dsimp only; with_reducible assumption) | intro _ | rw [State.mk_upd] | dsimp +zetaDelta only

theorem State.quietEnd_ok {pend : List Instr} (s : State) (src : Nat) (ok_s : s.Ok pend) :
    (State.quietEnd s src).Ok pend := by
  unfold State.quietEnd
  repeat' first
    | with_reducible assumption | with_reducible refine State.ok_upd ?_ | with_reducible apply State.withEnded_ok | extract_lets
    | split | (dsimp only; with_reducible assumption) | intro _ | rw [State.mk_upd] | dsimp +zetaDelta only

theorem State.tookFreeN_ok {pend : List Instr} (s : State) (n : Nat) (ok_s : s.Ok pend) :
    (State.tookFreeN s n).Ok pend := by
  unfold State.tookFreeN
  repeat' first
    | with_reducible assumption | with_reducible refine State.ok_upd ?_ | extract_lets | split
    | (dsimp only; with_reducible assumption) | intro _ | rw [State.mk_upd] | dsimp +zetaDelta only

theorem State.tick_ok {pend : List Instr} (s : State) (ok_s : s.Ok pend) :
    (State.tick s).Ok pend := by
  unfold State.tick
  repeat' first
    | with_reducible assumption | with_reducible refine State.ok_upd ?_ | extract_lets | split
    | (dsimp only; with_reducible assumption) | intro _ | rw [State.mk_upd] | dsimp +zetaDelta only

theorem State.ppsFall_ok {pend : List Instr} (s : State) (ok_s : s.Ok pend) :
    (State.ppsFall s).Ok pend := by
  unfold State.ppsFall
  repeat' first
    | with_reducible assumption | with_reducible refine State.ok_upd ?_ | with_reducible apply State.emitPin_ok
    | with_reducible apply State.ok_foldl | extract_lets | split | (dsimp only; with_reducible assumption) | intro _
    | rw [State.mk_upd] | dsimp +zetaDelta only

theorem State.shotClocks_ok {pend : List Instr} (s : State) (ok_s : s.Ok pend) :
    (State.shotClocks s).Ok pend := by
  unfold State.shotClocks
  repeat' first
    | with_reducible assumption | with_reducible refine State.ok_upd ?_ | extract_lets | split
    | (dsimp only; with_reducible assumption) | intro _ | rw [State.mk_upd] | dsimp +zetaDelta only

theorem State.dieSensors_ok {pend : List Instr} (old : State) (s : State) (ok_old : old.Ok pend) (ok_s : s.Ok pend) :
    (State.dieSensors old s).Ok pend := by
  unfold State.dieSensors
  repeat' first
    | with_reducible assumption | with_reducible refine State.ok_upd ?_ | with_reducible apply State.setFld_ok
    | with_reducible apply State.tookFree_ok | with_reducible apply State.wr_ok | extract_lets | split
    | (dsimp only; with_reducible assumption) | intro _ | rw [State.mk_upd] | dsimp +zetaDelta only

theorem State.toCoarse_ok {pend : List Instr} (s : State) (ok_s : s.Ok pend) :
    (State.toCoarse s).Ok pend := by
  unfold State.toCoarse
  repeat' first
    | with_reducible assumption | with_reducible refine State.ok_upd ?_ | extract_lets | split
    | (dsimp only; with_reducible assumption) | intro _ | rw [State.mk_upd] | dsimp +zetaDelta only

theorem State.fromCoarse_ok {pend : List Instr} (s : State) (ok_s : s.Ok pend) :
    (State.fromCoarse s).Ok pend := by
  unfold State.fromCoarse
  repeat' first
    | with_reducible assumption | with_reducible refine State.ok_upd ?_ | with_reducible apply State.setFlag_ok | extract_lets
    | split | (dsimp only; with_reducible assumption) | intro _ | rw [State.mk_upd] | dsimp +zetaDelta only

theorem State.setKey_ok {pend : List Instr} (s : State) (k : KeyState) (ok_s : s.Ok pend) :
    (State.setKey s k).Ok pend := by
  unfold State.setKey
  repeat' first
    | with_reducible assumption | with_reducible refine State.ok_upd ?_ | with_reducible apply State.setFlag_ok | extract_lets
    | split | (dsimp only; with_reducible assumption) | intro _ | rw [State.mk_upd] | dsimp +zetaDelta only

theorem State.timTouched_ok {pend : List Instr} (s : State) (m : Master) (off : Nat) (ok_s : s.Ok pend) :
    (State.timTouched s m off).Ok pend := by
  unfold State.timTouched
  repeat' first
    | with_reducible assumption | with_reducible refine State.ok_upd ?_ | with_reducible apply State.setKey_ok | extract_lets
    | split | (dsimp only; with_reducible assumption) | intro _ | rw [State.mk_upd] | dsimp +zetaDelta only

theorem execTimKeyWrite_ok {pend : List Instr} (m : Master) (v : Word) (s : State) (ok_s : s.Ok pend) :
    Outcome.Keeps pend (execTimKeyWrite m v s) := by
  unfold execTimKeyWrite
  repeat' first
    | with_reducible assumption | with_reducible refine State.ok_upd ?_ | with_reducible apply State.regCmd_ok
    | with_reducible apply State.setKey_ok | with_reducible apply Outcome.keeps_next | with_reducible exact Outcome.keeps_fault
    | extract_lets | split | (dsimp only; with_reducible assumption) | intro _ | rw [State.mk_upd] | dsimp +zetaDelta only

theorem State.setIncr_ok {pend : List Instr} (s : State) (v : Nat) (ok_s : s.Ok pend) :
    (State.setIncr s v).Ok pend := by
  unfold State.setIncr
  repeat' first
    | with_reducible assumption | with_reducible refine State.ok_upd ?_ | with_reducible apply State.wr_ok | extract_lets | split
    | (dsimp only; with_reducible assumption) | intro _ | rw [State.mk_upd] | dsimp +zetaDelta only

theorem execTimIncrHiWrite_ok {pend : List Instr} (m : Master) (v : Word) (s : State) (ok_s : s.Ok pend) :
    Outcome.Keeps pend (execTimIncrHiWrite m v s) := by
  unfold execTimIncrHiWrite
  repeat' first
    | with_reducible assumption | with_reducible refine State.ok_upd ?_ | with_reducible apply State.regCmd_ok
    | with_reducible apply State.setIncr_ok | with_reducible apply State.timTouched_ok | with_reducible apply Outcome.keeps_next
    | with_reducible exact Outcome.keeps_fault | extract_lets | split | (dsimp only; with_reducible assumption) | intro _
    | rw [State.mk_upd] | dsimp +zetaDelta only

theorem State.setRate_ok {pend : List Instr} (s : State) (v : Nat) (ok_s : s.Ok pend) :
    (State.setRate s v).Ok pend := by
  unfold State.setRate
  repeat' first
    | with_reducible assumption | with_reducible refine State.ok_upd ?_ | with_reducible apply State.setIncr_ok | extract_lets
    | split | (dsimp only; with_reducible assumption) | intro _ | rw [State.mk_upd] | dsimp +zetaDelta only

theorem State.applyStep_ok {pend : List Instr} (s : State) (r : TimeStepReq) (ok_s : s.Ok pend) :
    (State.applyStep s r).Ok pend := by
  unfold State.applyStep
  repeat' first
    | with_reducible assumption | with_reducible refine State.ok_upd ?_ | with_reducible apply State.complete_ok
    | with_reducible apply State.raise_ok | with_reducible apply State.setFlag_ok | with_reducible apply State.setFld_ok
    | with_reducible apply State.setW1c_ok | extract_lets | split | (dsimp only; with_reducible assumption) | intro _
    | rw [State.mk_upd] | dsimp +zetaDelta only

theorem State.settleStep_ok {pend : List Instr} (s : State) (ok_s : s.Ok pend) :
    (State.settleStep s).Ok pend := by
  unfold State.settleStep
  repeat' first
    | with_reducible assumption | with_reducible refine State.ok_upd ?_ | with_reducible apply State.applyStep_ok | extract_lets
    | split | (dsimp only; with_reducible assumption) | intro _ | rw [State.mk_upd] | dsimp +zetaDelta only

theorem State.commitTime_ok {pend : List Instr} (s : State) (m : Master) (pk : Option Packet) (force : Bool) (ok_s : s.Ok pend) :
    (State.commitTime s m pk force).Ok pend := by
  unfold State.commitTime
  repeat' first
    | with_reducible assumption | with_reducible refine State.ok_upd ?_ | with_reducible apply State.setFlag_ok
    | with_reducible apply State.setKey_ok | extract_lets | split | (dsimp only; with_reducible assumption) | intro _
    | rw [State.mk_upd] | dsimp +zetaDelta only

theorem State.moveStep_ok {pend : List Instr} (s : State) (lo : Nat) (hi : Nat) (ns : Nat) (pk : Option Packet) (force : Bool) (ok_s : s.Ok pend) :
    (State.moveStep s lo hi ns pk force).Ok pend := by
  unfold State.moveStep
  repeat' first
    | with_reducible assumption | with_reducible refine State.ok_upd ?_ | with_reducible apply State.commitTime_ok
    | with_reducible apply State.timTouched_ok | with_reducible apply State.wr_ok | extract_lets | split
    | (dsimp only; with_reducible assumption) | intro _ | rw [State.mk_upd] | dsimp +zetaDelta only

theorem execTimStepNsWrite_ok {pend : List Instr} (m : Master) (v : Word) (s : State) (ok_s : s.Ok pend) :
    Outcome.Keeps pend (execTimStepNsWrite m v s) := by
  unfold execTimStepNsWrite
  repeat' first
    | with_reducible assumption | with_reducible refine State.ok_upd ?_ | with_reducible apply State.access_ok
    | with_reducible apply State.commitTime_ok | with_reducible apply State.regCmd_ok | with_reducible apply State.settleStep_ok
    | with_reducible apply State.timTouched_ok | with_reducible apply State.wr_ok | with_reducible apply Outcome.keeps_next
    | with_reducible exact Outcome.keeps_fault | extract_lets | split | (dsimp only; with_reducible assumption) | intro _
    | rw [State.mk_upd] | dsimp +zetaDelta only

theorem State.setClk_ok {pend : List Instr} (s : State) (g : Nat) (v : Nat) (ok_s : s.Ok pend) :
    (State.setClk s g v).Ok pend := by
  unfold State.setClk
  repeat' first
    | with_reducible assumption | with_reducible refine State.ok_upd ?_ | with_reducible apply State.setFld_ok | extract_lets
    | split | (dsimp only; with_reducible assumption) | intro _ | rw [State.mk_upd] | dsimp +zetaDelta only

theorem State.setCoastAt_ok {pend : List Instr} (s : State) (g : Nat) (t : Option T16) (ok_s : s.Ok pend) :
    (State.setCoastAt s g t).Ok pend := by
  unfold State.setCoastAt
  repeat' first
    | with_reducible assumption | with_reducible refine State.ok_upd ?_ | extract_lets | split
    | (dsimp only; with_reducible assumption) | intro _ | rw [State.mk_upd] | dsimp +zetaDelta only

theorem State.setWaiting_ok {pend : List Instr} (s : State) (g : Nat) (b : Bool) (ok_s : s.Ok pend) :
    (State.setWaiting s g b).Ok pend := by
  unfold State.setWaiting
  repeat' first
    | with_reducible assumption | with_reducible refine State.ok_upd ?_ | extract_lets | split
    | (dsimp only; with_reducible assumption) | intro _ | rw [State.mk_upd] | dsimp +zetaDelta only

theorem State.clkOutSet_ok {pend : List Instr} (s : State) (n : Nat) (ok_s : s.Ok pend) :
    (State.clkOutSet s n).Ok pend := by
  unfold State.clkOutSet
  repeat' first
    | with_reducible assumption | with_reducible refine State.ok_upd ?_ | with_reducible apply State.access_ok
    | with_reducible apply State.emitPin_ok | extract_lets | split | (dsimp only; with_reducible assumption) | intro _
    | rw [State.mk_upd] | dsimp +zetaDelta only

theorem State.shotFull_ok {pend : List Instr} (s : State) (shot : Nat) (ok_s : s.Ok pend) :
    (State.shotFull s shot).Ok pend := by
  unfold State.shotFull
  repeat' first
    | with_reducible assumption | with_reducible refine State.ok_upd ?_ | extract_lets | split
    | (dsimp only; with_reducible assumption) | intro _ | rw [State.mk_upd] | dsimp +zetaDelta only

theorem State.groupFell_ok {pend : List Instr} (s : State) (g : Nat) (shot : Nat) (ok_s : s.Ok pend) :
    (State.groupFell s g shot).Ok pend := by
  unfold State.groupFell
  repeat' first
    | with_reducible assumption | with_reducible refine State.ok_upd ?_ | with_reducible apply State.shotFull_ok | extract_lets
    | split | (dsimp only; with_reducible assumption) | intro _ | rw [State.mk_upd] | dsimp +zetaDelta only

theorem State.strobeUp_ok {pend : List Instr} (s : State) (g : Nat) (shot : Nat) (ok_s : s.Ok pend) :
    (State.strobeUp s g shot).Ok pend := by
  unfold State.strobeUp
  repeat' first
    | with_reducible assumption | with_reducible refine State.ok_upd ?_ | with_reducible apply State.emit_ok
    | with_reducible apply State.groupFell_ok | extract_lets | split | (dsimp only; with_reducible assumption) | intro _
    | rw [State.mk_upd] | dsimp +zetaDelta only

theorem State.fireShot_ok {pend : List Instr} (s : State) (x : ShotTime) (reading : Nat) (again : Bool) (ok_s : s.Ok pend) :
    (State.fireShot s x reading again).Ok pend := by
  unfold State.fireShot
  repeat' first
    | with_reducible assumption | with_reducible refine State.ok_upd ?_ | with_reducible apply State.strobeUp_ok | extract_lets
    | split | (dsimp only; with_reducible assumption) | intro _ | rw [State.mk_upd] | dsimp +zetaDelta only

theorem State.spanCheck_ok {pend : List Instr} (s : State) (ok_s : s.Ok pend) :
    (State.spanCheck s).Ok pend := by
  unfold State.spanCheck
  repeat' first
    | with_reducible assumption | with_reducible refine State.ok_upd ?_ | with_reducible apply State.boundary_ok
    | with_reducible apply State.checkSpanEnd_ok | with_reducible apply State.completeStripe_ok
    | with_reducible apply State.endSpan_ok | with_reducible apply State.flushRuns_ok | with_reducible apply State.updStripe_ok
    | extract_lets | split | (dsimp only; with_reducible assumption) | intro _ | rw [State.mk_upd] | dsimp +zetaDelta only

theorem State.tristateIf_ok {pend : List Instr} (s : State) (g : Nat) (stays : Bool) (ok_s : s.Ok pend) :
    (State.tristateIf s g stays).Ok pend := by
  unfold State.tristateIf
  repeat' first
    | with_reducible assumption | with_reducible refine State.ok_upd ?_ | with_reducible apply State.emit_ok | extract_lets | split
    | (dsimp only; with_reducible assumption) | intro _ | rw [State.mk_upd] | dsimp +zetaDelta only

theorem State.groupBlanked_ok {pend : List Instr} (s : State) (x : Stripe) (shot : Nat) (mask : Nat) (internal : Bool) (ok_s : s.Ok pend) :
    (State.groupBlanked s x shot mask internal).Ok pend := by
  unfold State.groupBlanked
  repeat' first
    | with_reducible assumption | with_reducible refine State.ok_upd ?_ | with_reducible apply State.logGroups_ok | extract_lets
    | split | (dsimp only; with_reducible assumption) | intro _ | rw [State.mk_upd] | dsimp +zetaDelta only

theorem State.groupClean_ok {pend : List Instr} (s : State) (x : Stripe) (shot : Nat) (ok_s : s.Ok pend) :
    (State.groupClean s x shot).Ok pend := by
  unfold State.groupClean
  repeat' first
    | with_reducible assumption | with_reducible refine State.ok_upd ?_ | with_reducible apply State.logGroups_ok | extract_lets
    | split | (dsimp only; with_reducible assumption) | intro _ | rw [State.mk_upd] | dsimp +zetaDelta only

theorem State.laneDamaged_ok {pend : List Instr} (s : State) (l : Nat) (ok_s : s.Ok pend) :
    (State.laneDamaged s l).Ok pend := by
  unfold State.laneDamaged
  repeat' first
    | with_reducible assumption | with_reducible refine State.ok_upd ?_ | with_reducible apply State.countIn_ok
    | with_reducible apply State.count_ok | with_reducible apply State.raise_ok | extract_lets | split
    | (dsimp only; with_reducible assumption) | intro _ | rw [State.mk_upd] | dsimp +zetaDelta only

theorem State.stuckOn_ok {pend : List Instr} (s : State) (k : Nat) (ok_s : s.Ok pend) :
    (State.stuckOn s k).Ok pend := by
  unfold State.stuckOn
  repeat' first
    | with_reducible assumption | with_reducible refine State.ok_upd ?_ | with_reducible apply State.count_ok
    | with_reducible apply State.raiseFull_ok | extract_lets | split | (dsimp only; with_reducible assumption) | intro _
    | rw [State.mk_upd] | dsimp +zetaDelta only

theorem State.rereadFails_ok {pend : List Instr} (s : State) (ok_s : s.Ok pend) :
    (State.rereadFails s).Ok pend := by
  unfold State.rereadFails
  repeat' first
    | with_reducible assumption | with_reducible refine State.ok_upd ?_ | with_reducible apply State.stopCheck_ok
    | with_reducible apply State.tookFree_ok | extract_lets | split | (dsimp only; with_reducible assumption) | intro _
    | rw [State.mk_upd] | dsimp +zetaDelta only

theorem State.damagedShot_ok {pend : List Instr} (s : State) (r : Nat) (again : Bool) (ok_s : s.Ok pend) :
    (State.damagedShot s r again).Ok pend := by
  unfold State.damagedShot
  repeat' first
    | with_reducible assumption | with_reducible refine State.ok_upd ?_ | with_reducible apply State.rereadFails_ok | extract_lets
    | split | (dsimp only; with_reducible assumption) | intro _ | rw [State.mk_upd] | dsimp +zetaDelta only

theorem State.statusGroups_ok {pend : List Instr} (s : State) (a : AwaitStatus) (mask : Nat) (whole : Bool) (ok_s : s.Ok pend) :
    (State.statusGroups s a mask whole).Ok pend := by
  unfold State.statusGroups
  repeat' first
    | with_reducible assumption | with_reducible refine State.ok_upd ?_ | with_reducible apply State.damagedShot_ok
    | with_reducible apply State.groupBlanked_ok | with_reducible apply State.groupClean_ok | extract_lets | split
    | (dsimp only; with_reducible assumption) | intro _ | rw [State.mk_upd] | dsimp +zetaDelta only

theorem State.statusIn_ok {pend : List Instr} (s : State) (a : AwaitStatus) (n : Nat) (ok_s : s.Ok pend) :
    (State.statusIn s a n).Ok pend := by
  unfold State.statusIn
  repeat' first
    | with_reducible assumption | with_reducible refine State.ok_upd ?_ | extract_lets | split
    | (dsimp only; with_reducible assumption) | intro _ | rw [State.mk_upd] | dsimp +zetaDelta only

theorem State.shotStatus_ok {pend : List Instr} (s : State) (n : Nat) (w : Nat) (ok_s : s.Ok pend) :
    (State.shotStatus s n w).Ok pend := by
  unfold State.shotStatus
  repeat' first
    | with_reducible assumption | with_reducible refine State.ok_upd ?_ | with_reducible apply State.count_ok
    | with_reducible apply State.flushTail_ok | with_reducible apply State.laneDamaged_ok | with_reducible apply State.raise_ok
    | with_reducible apply State.statusGroups_ok | with_reducible apply State.statusIn_ok | with_reducible apply State.stuckOn_ok
    | with_reducible apply State.ok_foldl | extract_lets | split | (dsimp only; with_reducible assumption) | intro _
    | rw [State.mk_upd] | dsimp +zetaDelta only

theorem State.plateLevel_ok {pend : List Instr} (s : State) (src : Nat) (on : Bool) (off : Bool) (ok_s : s.Ok pend) :
    (State.plateLevel s src on off).Ok pend := by
  unfold State.plateLevel
  repeat' first
    | with_reducible assumption | with_reducible refine State.ok_upd ?_ | with_reducible apply State.condEnd_ok
    | with_reducible apply State.onsetOr_ok | with_reducible apply State.raise_ok | extract_lets | split
    | (dsimp only; with_reducible assumption) | intro _ | rw [State.mk_upd] | dsimp +zetaDelta only

theorem State.healthBlock_ok {pend : List Instr} (s : State) (n : Nat) (w : Nat) (ok_s : s.Ok pend) :
    (State.healthBlock s n w).Ok pend := by
  unfold State.healthBlock
  repeat' first
    | with_reducible assumption | with_reducible refine State.ok_upd ?_ | with_reducible apply State.plateLevel_ok
    | with_reducible apply State.setFlag_ok | with_reducible apply State.wr_ok | extract_lets | split
    | (dsimp only; with_reducible assumption) | intro _ | rw [State.mk_upd] | dsimp +zetaDelta only

theorem State.backBlock_ok {pend : List Instr} (s : State) (n : Nat) (w : Nat) (ok_s : s.Ok pend) :
    (State.backBlock s n w).Ok pend := by
  unfold State.backBlock
  repeat' first
    | with_reducible assumption | with_reducible refine State.ok_upd ?_ | with_reducible apply State.count_ok
    | with_reducible apply State.healthBlock_ok | with_reducible apply State.setFlag_ok | with_reducible apply State.shotStatus_ok
    | extract_lets | split | (dsimp only; with_reducible assumption) | intro _ | rw [State.mk_upd] | dsimp +zetaDelta only

theorem State.backchLoss_ok {pend : List Instr} (s : State) (ok_s : s.Ok pend) :
    (State.backchLoss s).Ok pend := by
  unfold State.backchLoss
  repeat' first
    | with_reducible assumption | with_reducible refine State.ok_upd ?_ | with_reducible apply State.raiseBlank_ok | extract_lets
    | split | (dsimp only; with_reducible assumption) | intro _ | rw [State.mk_upd] | dsimp +zetaDelta only

theorem State.laneOutputs_ok {pend : List Instr} (s : State) (old : State) (ok_s : s.Ok pend) (ok_old : old.Ok pend) :
    (State.laneOutputs s old).Ok pend := by
  unfold State.laneOutputs
  repeat' first
    | with_reducible assumption | with_reducible refine State.ok_upd ?_ | with_reducible apply State.emit_ok
    | with_reducible apply State.idleOn_ok | extract_lets | split | (dsimp only; with_reducible assumption) | intro _
    | rw [State.mk_upd] | dsimp +zetaDelta only

theorem execBalCfgWrite_ok {pend : List Instr} (m : Master) (v : Word) (s : State) (ok_s : s.Ok pend) :
    Outcome.Keeps pend (execBalCfgWrite m v s) := by
  unfold execBalCfgWrite
  refine State.regCmd_ok _ _ _ _ ok_s fun t ht => ?_
  extract_lets t1 _ t2
  have h1 : t1.Ok pend := State.writeByType_ok _ _ _ _ ht
  clear_value t1
  have h2 : t2.Ok pend := by
    simp only [t2]
    split
    · exact h1
    · rw [State.mk_upd]
      exact State.ok_upd h1
  split
  · exact State.access_ok _ _ ht
  · exact State.laneOutputs_ok _ _ h2 ht

theorem execBalSpareWrite_ok {pend : List Instr} (m : Master) (n : Fin 4) (v : Word) (s : State) (ok_s : s.Ok pend) :
    Outcome.Keeps pend (execBalSpareWrite m n v s) := by
  unfold execBalSpareWrite
  repeat' first
    | with_reducible assumption | with_reducible refine State.ok_upd ?_ | with_reducible apply State.access_ok
    | with_reducible apply State.regCmd_ok | with_reducible apply State.wr_ok | with_reducible apply Outcome.keeps_next
    | with_reducible exact Outcome.keeps_fault | extract_lets | split | (dsimp only; with_reducible assumption) | intro _
    | rw [State.mk_upd] | dsimp +zetaDelta only

theorem execBalCutClear_ok {pend : List Instr} (m : Master) (v : Word) (s : State) (ok_s : s.Ok pend) :
    Outcome.Keeps pend (execBalCutClear m v s) := by
  unfold execBalCutClear
  repeat' first
    | with_reducible assumption | with_reducible refine State.ok_upd ?_ | with_reducible apply State.access_ok
    | with_reducible apply State.regCmd_ok | with_reducible apply State.writeByType_ok | with_reducible apply Outcome.keeps_next
    | with_reducible exact Outcome.keeps_fault | extract_lets | split | (dsimp only; with_reducible assumption) | intro _
    | rw [State.mk_upd] | dsimp +zetaDelta only

theorem execEscSlipPeakClr_ok {pend : List Instr} (m : Master) (v : Word) (s : State) (ok_s : s.Ok pend) :
    Outcome.Keeps pend (execEscSlipPeakClr m v s) := by
  unfold execEscSlipPeakClr
  repeat' first
    | with_reducible assumption | with_reducible refine State.ok_upd ?_ | with_reducible apply State.regCmd_ok
    | with_reducible apply State.setFld_ok | with_reducible apply Outcome.keeps_next | with_reducible exact Outcome.keeps_fault
    | extract_lets | split | (dsimp only; with_reducible assumption) | intro _ | rw [State.mk_upd] | dsimp +zetaDelta only

theorem execRasFpPeakClr_ok {pend : List Instr} (m : Master) (v : Word) (s : State) (ok_s : s.Ok pend) :
    Outcome.Keeps pend (execRasFpPeakClr m v s) := by
  unfold execRasFpPeakClr
  repeat' first
    | with_reducible assumption | with_reducible refine State.ok_upd ?_ | with_reducible apply State.regCmd_ok
    | with_reducible apply State.setFld_ok | with_reducible apply Outcome.keeps_next | with_reducible exact Outcome.keeps_fault
    | extract_lets | split | (dsimp only; with_reducible assumption) | intro _ | rw [State.mk_upd] | dsimp +zetaDelta only

theorem State.deflCount_ok {pend : List Instr} (s : State) (a : Bool) (b : Bool) (ok_s : s.Ok pend) :
    (State.deflCount s a b).Ok pend := by
  unfold State.deflCount
  repeat' first
    | with_reducible assumption | with_reducible refine State.ok_upd ?_ | with_reducible apply State.count_ok | extract_lets | split
    | (dsimp only; with_reducible assumption) | intro _ | rw [State.mk_upd] | dsimp +zetaDelta only

theorem State.checkDefl_ok {pend : List Instr} (s : State) (shot : Nat) (flags : Nat) (ok_s : s.Ok pend) :
    (State.checkDefl s shot flags).Ok pend := by
  unfold State.checkDefl
  repeat' first
    | with_reducible assumption | with_reducible refine State.ok_upd ?_ | with_reducible apply State.deflCount_ok
    | with_reducible apply State.emitPin_ok | with_reducible apply State.tookFree_ok | extract_lets | split
    | (dsimp only; with_reducible assumption) | intro _ | rw [State.mk_upd] | dsimp +zetaDelta only

theorem State.startCheck_ok {pend : List Instr} (s : State) (ok_s : s.Ok pend) : (s.startCheck).Ok pend := by
  unfold State.startCheck
  split
  · split
    · exact ok_s
    · extract_lets s'
      have h' : s'.Ok pend := State.sparesAnew_ok _ (State.flushTail_ok _ ok_s)
      clear_value s'
      split
      rename_i q s0 hq
      have h0 : s0.Ok pend := by
        split at hq
        · cases hq; exact h'
        · cases hq; exact State.tookFree_ok _ h'
      extract_lets c
      have h1 := State.wr_ok _ rBmhRunId 0 (State.wr_ok _ rBmhRun 0 h0)
      rw [State.mk_upd]
      exact State.ok_upd h1
  · exact ok_s

theorem State.setRun_ok {pend : List Instr} (s : State) (c : CheckRun) (ok_s : s.Ok pend) :
    (State.setRun s c).Ok pend := by
  unfold State.setRun
  repeat' first
    | with_reducible assumption | with_reducible refine State.ok_upd ?_ | extract_lets | split
    | (dsimp only; with_reducible assumption) | intro _ | rw [State.mk_upd] | dsimp +zetaDelta only

theorem State.patternLate_ok {pend : List Instr} (s : State) (c : CheckRun) (ok_s : s.Ok pend) :
    (State.patternLate s c).Ok pend := by
  unfold State.patternLate
  repeat' first
    | with_reducible assumption | with_reducible refine State.ok_upd ?_ | with_reducible apply State.damagedShot_ok
    | with_reducible apply State.raiseFull_ok | extract_lets | split | (dsimp only; with_reducible assumption) | intro _
    | rw [State.mk_upd] | dsimp +zetaDelta only

theorem State.patternShot_ok {pend : List Instr} (s : State) (c : CheckRun) (ok_s : s.Ok pend) :
    (State.patternShot s c).Ok pend := by
  unfold State.patternShot
  repeat' first
    | with_reducible assumption | with_reducible refine State.ok_upd ?_ | with_reducible apply State.assertBlank_ok
    | with_reducible apply State.checkDefl_ok | with_reducible apply State.fireShot_ok | with_reducible apply State.patternLate_ok
    | with_reducible apply State.sendShot_ok | with_reducible apply State.setFld_ok | with_reducible apply State.setGate_ok
    | with_reducible apply State.setRun_ok | extract_lets | split | (dsimp only; with_reducible assumption) | intro _
    | rw [State.mk_upd] | dsimp +zetaDelta only

theorem State.showDet_ok {pend : List Instr} (s : State) (q : List Nat) (ok_s : s.Ok pend) :
    (State.showDet s q).Ok pend := by
  unfold State.showDet
  repeat' first
    | with_reducible assumption | with_reducible refine State.ok_upd ?_ | with_reducible apply State.wr_ok
    | with_reducible apply State.ok_foldl | extract_lets | split | (dsimp only; with_reducible assumption) | intro _
    | rw [State.mk_upd] | dsimp +zetaDelta only

theorem State.showReading_ok {pend : List Instr} (s : State) (c : CheckRun) (q : List Nat) (ok_s : s.Ok pend) :
    (State.showReading s c q).Ok pend := by
  unfold State.showReading
  repeat' first
    | with_reducible assumption | with_reducible refine State.ok_upd ?_ | with_reducible apply State.setFld_ok
    | with_reducible apply State.ok_foldl | extract_lets | split | (dsimp only; with_reducible assumption) | intro _
    | rw [State.mk_upd] | dsimp +zetaDelta only

theorem State.readingSat_ok {pend : List Instr} (s : State) (sat : Bool) (q : List Nat) (ok_s : s.Ok pend) :
    (State.readingSat s sat q).Ok pend := by
  unfold State.readingSat
  repeat' first
    | with_reducible assumption | with_reducible refine State.ok_upd ?_ | with_reducible apply State.count_ok
    | with_reducible apply State.raise_ok | with_reducible apply State.setRun_ok | extract_lets | split
    | (dsimp only; with_reducible assumption) | intro _ | rw [State.mk_upd] | dsimp +zetaDelta only

theorem State.storeReading_ok {pend : List Instr} (s : State) (c : CheckRun) (q : List Nat) (ok_s : s.Ok pend) :
    (State.storeReading s c q).Ok pend := by
  unfold State.storeReading
  repeat' first
    | with_reducible assumption | with_reducible refine State.ok_upd ?_ | with_reducible apply State.checkSpanEnd_ok
    | with_reducible apply State.readingSat_ok | with_reducible apply State.setRun_ok | with_reducible apply State.showReading_ok
    | with_reducible apply State.stuckOn_ok | extract_lets | split | (dsimp only; with_reducible assumption) | intro _
    | rw [State.mk_upd] | dsimp +zetaDelta only

theorem State.deadBeams_ok {pend : List Instr} (s : State) (seen : Bool) (n : Nat) (ok_s : s.Ok pend) :
    (State.deadBeams s seen n).Ok pend := by
  unfold State.deadBeams
  repeat' first
    | with_reducible assumption | with_reducible refine State.ok_upd ?_ | with_reducible apply State.mergeMore_ok
    | with_reducible apply State.raise_ok | extract_lets | split | (dsimp only; with_reducible assumption) | intro _
    | rw [State.mk_upd] | dsimp +zetaDelta only

theorem State.checkEnd_ok {pend : List Instr} (s : State) (c : CheckRun) (ok_s : s.Ok pend) :
    (State.checkEnd s c).Ok pend := by
  unfold State.checkEnd
  repeat' first
    | with_reducible assumption | with_reducible refine State.ok_upd ?_ | (refine State.closeRun_ok_of ?_ (by assumption))
    | with_reducible apply State.closeRun_ok | with_reducible apply State.checkSpanEnd_ok
    | with_reducible apply State.commitReady_ok | with_reducible apply State.complete_ok | with_reducible apply State.count_ok
    | with_reducible apply State.deadBeams_ok | with_reducible apply State.pulse_ok | with_reducible apply State.setFld_ok
    | with_reducible apply State.startCheck_ok | with_reducible apply State.wr_ok | extract_lets | split
    | (dsimp only; with_reducible assumption) | intro _ | rw [State.mk_upd] | dsimp +zetaDelta only

theorem State.loseFit_ok {pend : List Instr} (s : State) (ok_s : s.Ok pend) :
    (State.loseFit s).Ok pend := by
  unfold State.loseFit
  repeat' first
    | with_reducible assumption | with_reducible refine State.ok_upd ?_ | with_reducible apply State.setFlag_ok | extract_lets
    | split | (dsimp only; with_reducible assumption) | intro _ | rw [State.mk_upd] | dsimp +zetaDelta only

theorem State.losePos_ok {pend : List Instr} (s : State) (src : Nat) (ok_s : s.Ok pend) :
    (State.losePos s src).Ok pend := by
  unfold State.losePos
  repeat' first
    | with_reducible assumption | with_reducible refine State.ok_upd ?_ | with_reducible apply State.loseFit_ok
    | with_reducible apply State.raiseBlank_ok | extract_lets | split | (dsimp only; with_reducible assumption) | intro _
    | rw [State.mk_upd] | dsimp +zetaDelta only

theorem State.enterSample_ok {pend : List Instr} (s : State) (x : Sample) (t : T16) (ok_s : s.Ok pend) :
    (State.enterSample s x t).Ok pend := by
  unfold State.enterSample
  repeat' first
    | with_reducible assumption | with_reducible refine State.ok_upd ?_ | extract_lets | split
    | (dsimp only; with_reducible assumption) | intro _ | rw [State.mk_upd] | dsimp +zetaDelta only

theorem State.takeSample_ok {pend : List Instr} (s : State) (x : Sample) (t : T16) (ok_s : s.Ok pend) :
    (State.takeSample s x t).Ok pend := by
  unfold State.takeSample
  repeat' first
    | with_reducible assumption | with_reducible refine State.ok_upd ?_ | with_reducible apply State.count_ok
    | with_reducible apply State.enterSample_ok | with_reducible apply State.raiseBlank_ok | extract_lets | split
    | (dsimp only; with_reducible assumption) | intro _ | rw [State.mk_upd] | dsimp +zetaDelta only

theorem State.intake_ok {pend : List Instr} (s : State) (ok_s : s.Ok pend) :
    (State.intake s).Ok pend := by
  unfold State.intake
  repeat' first
    | with_reducible assumption | with_reducible refine State.ok_upd ?_ | with_reducible apply State.takeSample_ok
    | with_reducible apply State.ok_foldl | extract_lets | split | (dsimp only; with_reducible assumption) | intro _
    | rw [State.mk_upd] | dsimp +zetaDelta only

theorem State.stampSample_ok {pend : List Instr} (s : State) (x : Sample) (t : T16) (stamp : T16) (ok_s : s.Ok pend) :
    (State.stampSample s x t stamp).Ok pend := by
  unfold State.stampSample
  repeat' first
    | with_reducible assumption | with_reducible refine State.ok_upd ?_ | extract_lets | split
    | (dsimp only; with_reducible assumption) | intro _ | rw [State.mk_upd] | dsimp +zetaDelta only

theorem State.setFiring_ok {pend : List Instr} (s : State) (f : Firing) (ok_s : s.Ok pend) :
    (State.setFiring s f).Ok pend := by
  unfold State.setFiring
  repeat' first
    | with_reducible assumption | with_reducible refine State.ok_upd ?_ | extract_lets | split
    | (dsimp only; with_reducible assumption) | intro _ | rw [State.mk_upd] | dsimp +zetaDelta only

theorem State.commitStripe_ok {pend : List Instr} (s : State) (f : Firing) (x : Stripe) (now : T16) (ok_s : s.Ok pend) :
    (State.commitStripe s f x now).Ok pend := by
  unfold State.commitStripe
  repeat' first
    | with_reducible assumption | with_reducible refine State.ok_upd ?_ | with_reducible apply State.beginShot_ok
    | with_reducible apply State.setFiring_ok | extract_lets | split | (dsimp only; with_reducible assumption) | intro _
    | rw [State.mk_upd] | dsimp +zetaDelta only

theorem State.showSlip_ok {pend : List Instr} (s : State) (num : Int) (den : Nat) (slipmax : Nat) (fast : Bool) (ok_s : s.Ok pend) :
    (State.showSlip s num den slipmax fast).Ok pend := by
  unfold State.showSlip
  repeat' first
    | with_reducible assumption | with_reducible refine State.ok_upd ?_ | with_reducible apply State.setFld_ok | extract_lets
    | split | (dsimp only; with_reducible assumption) | intro _ | rw [State.mk_upd] | dsimp +zetaDelta only

theorem State.beginSpan_ok {pend : List Instr} (s : State) (h : Nat) (ok_s : s.Ok pend) :
    (State.beginSpan s h).Ok pend := by
  unfold State.beginSpan
  repeat' first
    | with_reducible assumption | with_reducible refine State.ok_upd ?_ | with_reducible apply State.updStripe_ok | extract_lets
    | split | (dsimp only; with_reducible assumption) | intro _ | rw [State.mk_upd] | dsimp +zetaDelta only

theorem State.lockShot_ok {pend : List Instr} (s : State) (f : Firing) (x : Stripe) (tp : Int) (ts : Int) (ok_s : s.Ok pend) :
    (State.lockShot s f x tp ts).Ok pend := by
  unfold State.lockShot
  repeat' first
    | with_reducible assumption | with_reducible refine State.ok_upd ?_ | with_reducible apply State.beginSpan_ok
    | with_reducible apply State.count_ok | with_reducible apply State.deflCount_ok | with_reducible apply State.emitPin_ok
    | with_reducible apply State.raiseBlank_ok | with_reducible apply State.setFiring_ok | with_reducible apply State.showSlip_ok
    | extract_lets | split | (dsimp only; with_reducible assumption) | intro _ | rw [State.mk_upd] | dsimp +zetaDelta only

theorem State.decideShot_ok {pend : List Instr} (s : State) (now : T16) (ok_s : s.Ok pend) :
    (State.decideShot s now).Ok pend := by
  unfold State.decideShot
  repeat' first
    | with_reducible assumption | with_reducible refine State.ok_upd ?_ | with_reducible apply State.commitStripe_ok
    | with_reducible apply State.lockShot_ok | extract_lets | split | (dsimp only; with_reducible assumption) | intro _
    | rw [State.mk_upd] | dsimp +zetaDelta only

theorem State.genInForce_ok {pend : List Instr} (s : State) (kind : Nat) (gen : Nat) (ok_s : s.Ok pend) :
    (State.genInForce s kind gen).Ok pend := by
  unfold State.genInForce
  repeat' first
    | with_reducible assumption | with_reducible refine State.ok_upd ?_ | with_reducible apply State.setFld_ok | extract_lets
    | split | (dsimp only; with_reducible assumption) | intro _ | rw [State.mk_upd] | dsimp +zetaDelta only

theorem State.shotFired_ok {pend : List Instr} (s : State) (x : Stripe) (l : Lock) (ok_s : s.Ok pend) :
    (State.shotFired s x l).Ok pend := by
  unfold State.shotFired
  repeat' first
    | with_reducible assumption | with_reducible refine State.ok_upd ?_ | with_reducible apply State.count_ok
    | with_reducible apply State.fireShot_ok | with_reducible apply State.updStripe_ok | with_reducible apply State.wr_ok
    | extract_lets | split | (dsimp only; with_reducible assumption) | intro _ | rw [State.mk_upd] | dsimp +zetaDelta only

theorem State.showFacet_ok {pend : List Instr} (s : State) (ok_s : s.Ok pend) :
    (State.showFacet s).Ok pend := by
  unfold State.showFacet
  repeat' first
    | with_reducible assumption | with_reducible refine State.ok_upd ?_ | with_reducible apply State.wr_ok | extract_lets | split
    | (dsimp only; with_reducible assumption) | intro _ | rw [State.mk_upd] | dsimp +zetaDelta only

theorem State.facetStep_ok {pend : List Instr} (s : State) (ok_s : s.Ok pend) :
    (State.facetStep s).1.Ok pend := by
  unfold State.facetStep
  repeat' first
    | with_reducible assumption | with_reducible refine State.ok_upd ?_ | extract_lets | split
    | (dsimp only; with_reducible assumption) | intro _ | rw [State.mk_upd] | dsimp +zetaDelta only

theorem State.facetStep_ok_of {pend : List Instr} {s : State} (ok_s : s.Ok pend) {t : State} {r} (e : State.facetStep s = (t, r)) :
    t.Ok pend := by
  have h := State.facetStep_ok s ok_s
  rw [e] at h
  exact h

theorem State.trackEdge_ok {pend : List Instr} (s : State) (t : T16) (ok_s : s.Ok pend) :
    (State.trackEdge s t).Ok pend := by
  unfold State.trackEdge
  repeat' first
    | with_reducible assumption | with_reducible refine State.ok_upd ?_ | extract_lets | split
    | (dsimp only; with_reducible assumption) | intro _ | rw [State.mk_upd] | dsimp +zetaDelta only

theorem State.trackValid_ok {pend : List Instr} (s : State) (ok_s : s.Ok pend) :
    (State.trackValid s).Ok pend := by
  unfold State.trackValid
  repeat' first
    | with_reducible assumption | with_reducible refine State.ok_upd ?_ | with_reducible apply State.setFlag_ok | extract_lets
    | split | (dsimp only; with_reducible assumption) | intro _ | rw [State.mk_upd] | dsimp +zetaDelta only

theorem State.trackLost_ok {pend : List Instr} (s : State) (ok_s : s.Ok pend) :
    (State.trackLost s).Ok pend := by
  unfold State.trackLost
  repeat' first
    | with_reducible assumption | with_reducible refine State.ok_upd ?_ | with_reducible apply State.setFlag_ok
    | with_reducible apply State.setFld_ok | extract_lets | split | (dsimp only; with_reducible assumption) | intro _
    | rw [State.mk_upd] | dsimp +zetaDelta only

theorem State.blankLine_ok {pend : List Instr} (s : State) (t : T16) (j : Option Job) (ok_s : s.Ok pend) :
    (State.blankLine s t j).Ok pend := by
  unfold State.blankLine
  repeat' first
    | with_reducible assumption | with_reducible refine State.ok_upd ?_ | with_reducible apply State.emitPin_ok
    | with_reducible apply State.setFld_ok | with_reducible apply State.tookFree_ok | extract_lets | split
    | (dsimp only; with_reducible assumption) | intro _ | rw [State.mk_upd] | dsimp +zetaDelta only

theorem State.decideInterval_ok {pend : List Instr} (s : State) (x : Stripe) (n : Nat) (reason : Option (Nat × Bool)) (ok_s : s.Ok pend) :
    (State.decideInterval s x n reason).Ok pend := by
  unfold State.decideInterval
  repeat' first
    | with_reducible assumption | with_reducible refine State.ok_upd ?_ | with_reducible apply State.logLines_ok | extract_lets
    | split | (dsimp only; with_reducible assumption) | intro _ | rw [State.mk_upd] | dsimp +zetaDelta only

theorem State.passInterval_ok {pend : List Instr} (s : State) (j : Job) (n : Nat) (ok_s : s.Ok pend) :
    (State.passInterval s j n).Ok pend := by
  unfold State.passInterval
  repeat' first
    | with_reducible assumption | with_reducible refine State.ok_upd ?_ | with_reducible apply State.dropBins_ok
    | with_reducible apply State.layStat_ok | with_reducible apply State.setFlag_ok | extract_lets | split
    | (dsimp only; with_reducible assumption) | intro _ | rw [State.mk_upd] | dsimp +zetaDelta only

theorem State.advance_ok {pend : List Instr} (s : State) (x : Stripe) (j : Job) (n : Nat) (blank : Bool) (ok_s : s.Ok pend) :
    (State.advance s x j n blank).Ok pend := by
  unfold State.advance
  repeat' first
    | with_reducible assumption | with_reducible refine State.ok_upd ?_ | with_reducible apply State.boundary_ok
    | with_reducible apply State.commitReady_ok | with_reducible apply State.completeStripe_ok | with_reducible apply State.count_ok
    | with_reducible apply State.flushRuns_ok | with_reducible apply State.passInterval_ok | with_reducible apply State.updStripe_ok
    | with_reducible apply State.wr_ok | extract_lets | split | (dsimp only; with_reducible assumption) | intro _
    | rw [State.mk_upd] | dsimp +zetaDelta only

theorem State.writeInterval_ok {pend : List Instr} (s : State) (x : Stripe) (j : Job) (n : Nat) (t : T16) (ok_s : s.Ok pend) :
    (State.writeInterval s x j n t).Ok pend := by
  unfold State.writeInterval
  repeat' first
    | with_reducible assumption | with_reducible refine State.ok_upd ?_ | with_reducible apply State.advance_ok
    | with_reducible apply State.blankLine_ok | with_reducible apply State.count_ok | with_reducible apply State.decideInterval_ok
    | with_reducible apply State.emitPin_ok | with_reducible apply State.genInForce_ok | with_reducible apply State.raiseBlank_ok
    | with_reducible apply State.raiseLate_ok | with_reducible apply State.showSlip_ok | extract_lets | split
    | (dsimp only; with_reducible assumption) | intro _ | rw [State.mk_upd] | dsimp +zetaDelta only

theorem State.sosWrite_ok {pend : List Instr} (s : State) (t : T16) (ok_s : s.Ok pend) :
    (State.sosWrite s t).Ok pend := by
  unfold State.sosWrite
  repeat' first
    | with_reducible assumption | with_reducible refine State.ok_upd ?_ | with_reducible apply State.blankLine_ok
    | with_reducible apply State.writeInterval_ok | extract_lets | split | (dsimp only; with_reducible assumption) | intro _
    | rw [State.mk_upd] | dsimp +zetaDelta only

theorem State.facetFault_ok {pend : List Instr} (s : State) (ok_s : s.Ok pend) :
    (State.facetFault s).Ok pend := by
  unfold State.facetFault
  repeat' first
    | with_reducible assumption | with_reducible refine State.ok_upd ?_ | with_reducible apply State.raiseBlank_ok | extract_lets
    | split | (dsimp only; with_reducible assumption) | intro _ | rw [State.mk_upd] | dsimp +zetaDelta only

theorem State.missInterval_ok {pend : List Instr} (s : State) (x : Stripe) (j : Job) (n : Nat) (t : T16) (ok_s : s.Ok pend) :
    (State.missInterval s x j n t).Ok pend := by
  unfold State.missInterval
  repeat' first
    | with_reducible assumption | with_reducible refine State.ok_upd ?_ | with_reducible apply State.advance_ok
    | with_reducible apply State.decideInterval_ok | with_reducible apply State.emitPin_ok | with_reducible apply State.logLines_ok
    | with_reducible apply State.raise_ok | extract_lets | split | (dsimp only; with_reducible assumption) | intro _
    | rw [State.mk_upd] | dsimp +zetaDelta only

theorem State.windowWrite_ok {pend : List Instr} (s : State) (n : Nat) (o : Nat) (bs : List Byte) (ok_s : s.Ok pend) :
    (State.windowWrite s n o bs).Ok pend := by
  unfold State.windowWrite
  repeat' first
    | with_reducible assumption | with_reducible refine State.ok_upd ?_ | extract_lets | split
    | (dsimp only; with_reducible assumption) | intro _ | rw [State.mk_upd] | dsimp +zetaDelta only

end Sys2Proof.Machine
end

