-- ==== Sys2Proof/Laws/KeepUnits.lean ====
section
/-! SUPPORT. The operations keep the predicate State.Ok, one lemma each: the engines, the job store memory, axes, power, heaters and the timing ports. -/

set_option Elab.async false
set_option linter.all false

namespace Sys2Proof.Machine

theorem State.dmaCrcAdd_ok {pend : List Instr} (s : State) (n : Nat) (bs : List Byte) (ok_s : s.Ok pend) :
    (State.dmaCrcAdd s n bs).Ok pend := by
  unfold State.dmaCrcAdd
  repeat' first
    | with_reducible assumption | with_reducible refine State.ok_upd ?_ | with_reducible apply State.wr_ok | extract_lets | split
    | (dsimp only; with_reducible assumption) | intro _ | rw [State.mk_upd] | dsimp +zetaDelta only

theorem State.dmaTake_ok {pend : List Instr} (s : State) (n : Nat) (bs : List Byte) (ok_s : s.Ok pend) :
    (State.dmaTake s n bs).Ok pend := by
  unfold State.dmaTake
  repeat' first
    | with_reducible assumption | with_reducible refine State.ok_upd ?_ | with_reducible apply State.dmaCrcAdd_ok
    | with_reducible apply State.setChan_ok | extract_lets | split | (dsimp only; with_reducible assumption) | intro _
    | rw [State.mk_upd] | dsimp +zetaDelta only

theorem State.readBurst_ok {pend : List Instr} (s : State) (n : Nat) (len : Nat) (host : HostRead) (ok_s : s.Ok pend) :
    (State.readBurst s n len host).Ok pend := by
  unfold State.readBurst
  repeat' first
    | with_reducible assumption | with_reducible refine State.ok_upd ?_ | with_reducible apply State.dmaHaltAt_ok
    | with_reducible apply State.dmaTake_ok | with_reducible apply State.memUncorr_ok | with_reducible apply State.readBlocks_ok
    | extract_lets | split | (dsimp only; with_reducible assumption) | intro _ | rw [State.mk_upd] | dsimp +zetaDelta only

theorem State.burstWrite_ok {pend : List Instr} (s : State) (space : Nat) (a : Nat) (bs : List Byte) (ok_s : s.Ok pend) :
    (State.burstWrite s space a bs).Ok pend := by
  unfold State.burstWrite
  repeat' first
    | with_reducible assumption | with_reducible refine State.ok_upd ?_ | with_reducible apply State.hostWrite_ok
    | with_reducible apply State.storeWrite_ok | with_reducible apply State.windowWrite_ok | extract_lets | split
    | (dsimp only; with_reducible assumption) | intro _ | rw [State.mk_upd] | dsimp +zetaDelta only

theorem State.writeBurst_ok {pend : List Instr} (s : State) (n : Nat) (len : Nat) (ok_s : s.Ok pend) :
    (State.writeBurst s n len).Ok pend := by
  unfold State.writeBurst
  repeat' first
    | with_reducible assumption | with_reducible refine State.ok_upd ?_ | with_reducible apply State.burstWrite_ok
    | with_reducible apply State.dmaHaltAt_ok | with_reducible apply State.memUncorr_ok | with_reducible apply State.readPartial_ok
    | with_reducible apply State.setChan_ok | extract_lets | split | (dsimp only; with_reducible assumption) | intro _
    | rw [State.mk_upd] | dsimp +zetaDelta only

theorem State.burstIssues_ok {pend : List Instr} (s : State) (k : Nat) (wr : Bool) (len : Nat) (ok_s : s.Ok pend) :
    (State.burstIssues s k wr len).Ok pend := by
  unfold State.burstIssues
  repeat' first
    | with_reducible assumption | with_reducible refine State.ok_upd ?_ | with_reducible apply State.portServed_ok
    | with_reducible apply State.settleCredit_ok | extract_lets | split | (dsimp only; with_reducible assumption) | intro _
    | rw [State.mk_upd] | dsimp +zetaDelta only

theorem State.chainHalts_ok {pend : List Instr} (s : State) (n : Nat) (cause : Nat) (addr : Nat) (ok_s : s.Ok pend) :
    (State.chainHalts s n cause addr).Ok pend := by
  unfold State.chainHalts
  repeat' first
    | with_reducible assumption | with_reducible refine State.ok_upd ?_ | with_reducible apply State.dmaHaltAt_ok
    | with_reducible apply State.setChan_ok | extract_lets | split | (dsimp only; with_reducible assumption) | intro _
    | rw [State.mk_upd] | dsimp +zetaDelta only

theorem State.chainNext_ok {pend : List Instr} (s : State) (n : Nat) (ok_s : s.Ok pend) :
    (State.chainNext s n).Ok pend := by
  unfold State.chainNext
  repeat' first
    | with_reducible assumption | with_reducible refine State.ok_upd ?_ | with_reducible apply State.beginDesc_ok
    | with_reducible apply State.chainHalts_ok | with_reducible apply State.memUncorr_ok | with_reducible apply State.portServed_ok
    | with_reducible apply State.readBlocks_ok | with_reducible apply State.settleCredit_ok | with_reducible apply State.wr_ok
    | with_reducible apply State.ok_foldl | extract_lets | split | (dsimp only; with_reducible assumption) | intro _
    | rw [State.mk_upd] | dsimp +zetaDelta only

theorem State.chainAsks_ok {pend : List Instr} (s : State) (n : Nat) (ok_s : s.Ok pend) :
    (State.chainAsks s n).Ok pend := by
  unfold State.chainAsks
  repeat' first
    | with_reducible assumption | with_reducible refine State.ok_upd ?_ | with_reducible apply State.portAsks_ok | extract_lets
    | split | (dsimp only; with_reducible assumption) | intro _ | rw [State.mk_upd] | dsimp +zetaDelta only

theorem State.scnMoved_ok {pend : List Instr} (s : State) (n : Nat) (ok_s : s.Ok pend) :
    (State.scnMoved s n).Ok pend := by
  unfold State.scnMoved
  repeat' first
    | with_reducible assumption | with_reducible refine State.ok_upd ?_ | with_reducible apply State.ok_foldl | extract_lets | split
    | (dsimp only; with_reducible assumption) | intro _ | rw [State.mk_upd] | dsimp +zetaDelta only

theorem State.runLoad_ok {pend : List Instr} (n : Nat) (s : State) (ok_s : s.Ok pend) : (State.runLoad n s).Ok pend := by
  induction n generalizing s with
  | zero => exact ok_s
  | succ n ih =>
    unfold State.runLoad
    split
    · exact ok_s
    · split
      · exact ok_s
      · split
        · exact State.portAsks_ok _ _ _ ok_s
        · extract_lets t
          have ht : t.Ok pend := State.burstIssues_ok _ _ _ _ ok_s
          refine ih _ ?_
          split
          · exact State.readBurst_ok _ _ _ _ ht
          · split
            · exact State.dmaHaltAt_ok _ _ _ _ _ ht
            · exact State.writeBurst_ok _ _ _ ht

theorem State.haltBlock_ok {pend : List Instr} (s : State) (cause : Nat) (addr : Nat) (ok_s : s.Ok pend) :
    (State.haltBlock s cause addr).Ok pend := by
  unfold State.haltBlock
  repeat' first
    | with_reducible assumption | with_reducible refine State.ok_upd ?_ | with_reducible apply State.memUncorr_ok | extract_lets
    | split | (dsimp only; with_reducible assumption) | intro _ | rw [State.mk_upd] | dsimp +zetaDelta only

theorem State.dmaCmd_ok {pend : List Instr} (s : State) (m : Master) (n : Nat) (f : State → State) (ok_s : s.Ok pend) (ok_f : ∀ (x0 : State), x0.Ok pend → (f x0).Ok pend) :
    Outcome.Keeps pend (State.dmaCmd s m n f) := by
  unfold State.dmaCmd
  repeat' first
    | with_reducible assumption | with_reducible refine State.ok_upd ?_ | with_reducible apply ok_f
    | with_reducible apply State.access_ok | with_reducible apply State.regCmd_ok | with_reducible apply Outcome.keeps_next
    | with_reducible exact Outcome.keeps_fault | extract_lets | split | (dsimp only; with_reducible assumption) | intro _
    | rw [State.mk_upd] | dsimp +zetaDelta only

theorem State.dmaGoesOn_ok {pend : List Instr} (s : State) (n : Nat) (ok_s : s.Ok pend) :
    (State.dmaGoesOn s n).Ok pend := by
  unfold State.dmaGoesOn
  repeat' first
    | with_reducible assumption | with_reducible refine State.ok_upd ?_ | with_reducible apply State.beginDesc_ok
    | with_reducible apply State.chainAsks_ok | with_reducible apply State.chainNext_ok | with_reducible apply State.setChan_ok
    | with_reducible apply State.setFld_ok | extract_lets | split | (dsimp only; with_reducible assumption) | intro _
    | rw [State.mk_upd] | dsimp +zetaDelta only

theorem execDmaEvmSw_ok {pend : List Instr} (m : Master) (v : Word) (s : State) (ok_s : s.Ok pend) :
    Outcome.Keeps pend (execDmaEvmSw m v s) := by
  unfold execDmaEvmSw
  repeat' first
    | with_reducible assumption | with_reducible refine State.ok_upd ?_ | with_reducible apply State.pulse_ok
    | with_reducible apply State.regCmd_ok | with_reducible apply Outcome.keeps_next | with_reducible exact Outcome.keeps_fault
    | extract_lets | split | (dsimp only; with_reducible assumption) | intro _ | rw [State.mk_upd] | dsimp +zetaDelta only

theorem State.dropPulse_ok {pend : List Instr} (s : State) (k : Nat) (src : Nat) (ok_s : s.Ok pend) :
    (State.dropPulse s k src).Ok pend := by
  unfold State.dropPulse
  repeat' first
    | with_reducible assumption | with_reducible refine State.ok_upd ?_ | with_reducible apply State.raise_ok
    | with_reducible apply State.setW1c_ok | extract_lets | split | (dsimp only; with_reducible assumption) | intro _
    | rw [State.mk_upd] | dsimp +zetaDelta only

theorem State.swapSink_ok {pend : List Instr} (s : State) (kind : Nat) (src : Nat) (ok_s : s.Ok pend) :
    (State.swapSink s kind src).Ok pend := by
  unfold State.swapSink
  repeat' first
    | with_reducible assumption | with_reducible refine State.ok_upd ?_ | with_reducible apply State.dropPulse_ok
    | with_reducible apply State.fillDone_ok | extract_lets | split | (dsimp only; with_reducible assumption) | intro _
    | rw [State.mk_upd] | dsimp +zetaDelta only

theorem State.sink_ok {pend : List Instr} (s : State) (k : Nat) (src : Nat) (ok_s : s.Ok pend) :
    (State.sink s k src).Ok pend := by
  unfold State.sink
  repeat' first
    | with_reducible assumption | with_reducible refine State.ok_upd ?_ | with_reducible apply State.dmaStart_ok
    | with_reducible apply State.dropPulse_ok | with_reducible apply State.swapSink_ok | extract_lets | split
    | (dsimp only; with_reducible assumption) | intro _ | rw [State.mk_upd] | dsimp +zetaDelta only

theorem State.noteWait_ok {pend : List Instr} (s : State) (since : T16) (ok_s : s.Ok pend) :
    (State.noteWait s since).Ok pend := by
  unfold State.noteWait
  repeat' first
    | with_reducible assumption | with_reducible refine State.ok_upd ?_ | with_reducible apply State.setFld_ok | extract_lets
    | split | (dsimp only; with_reducible assumption) | intro _ | rw [State.mk_upd] | dsimp +zetaDelta only

theorem State.updSnap_ok {pend : List Instr} (s : State) (i : Nat) (f : Snapshot → Snapshot) (ok_s : s.Ok pend) :
    (State.updSnap s i f).Ok pend := by
  unfold State.updSnap
  repeat' first
    | with_reducible assumption | with_reducible refine State.ok_upd ?_ | extract_lets | split
    | (dsimp only; with_reducible assumption) | intro _ | rw [State.mk_upd] | dsimp +zetaDelta only

theorem State.snapRaw_ok {pend : List Instr} (s : State) (i : Nat) (ok_s : s.Ok pend) :
    (State.snapRaw s i).Ok pend := by
  unfold State.snapRaw
  repeat' first
    | with_reducible assumption | with_reducible refine State.ok_upd ?_ | with_reducible apply State.count_ok
    | with_reducible apply State.updSnap_ok | extract_lets | split | (dsimp only; with_reducible assumption) | intro _
    | rw [State.mk_upd] | dsimp +zetaDelta only

theorem State.encodeSnap_ok {pend : List Instr} (s : State) (w : SnapWait) (verifyOk : Bool) (ok_s : s.Ok pend) :
    (State.encodeSnap s w verifyOk).Ok pend := by
  unfold State.encodeSnap
  repeat' first
    | with_reducible assumption | with_reducible refine State.ok_upd ?_ | with_reducible apply State.noteWait_ok
    | with_reducible apply State.rle1Fail_ok | with_reducible apply State.snapRaw_ok | with_reducible apply State.updSnap_ok
    | extract_lets | split | (dsimp only; with_reducible assumption) | intro _ | rw [State.mk_upd] | dsimp +zetaDelta only

theorem State.decodeTile_ok {pend : List Instr} (s : State) (w : TileWait) (verifyOk : Bool) (ok_s : s.Ok pend) :
    (State.decodeTile s w verifyOk).Ok pend := by
  unfold State.decodeTile
  repeat' first
    | with_reducible assumption | with_reducible refine State.ok_upd ?_ | with_reducible apply State.binError_ok
    | with_reducible apply State.count_ok | with_reducible apply State.rle1Fail_ok | with_reducible apply State.updBin_ok
    | extract_lets | split | (dsimp only; with_reducible assumption) | intro _ | rw [State.mk_upd] | dsimp +zetaDelta only

theorem State.updComp_ok {pend : List Instr} (s : State) (pk : Packet) (f : Compress → Compress) (ok_s : s.Ok pend) :
    (State.updComp s pk f).Ok pend := by
  unfold State.updComp
  repeat' first
    | with_reducible assumption | with_reducible refine State.ok_upd ?_ | extract_lets | split
    | (dsimp only; with_reducible assumption) | intro _ | rw [State.mk_upd] | dsimp +zetaDelta only

theorem execRlePoolClr_ok {pend : List Instr} (m : Master) (v : Word) (s : State) (ok_s : s.Ok pend) :
    Outcome.Keeps pend (execRlePoolClr m v s) := by
  unfold execRlePoolClr
  repeat' first
    | with_reducible assumption | with_reducible refine State.ok_upd ?_ | with_reducible apply State.regCmd_ok
    | with_reducible apply State.setFld_ok | with_reducible apply Outcome.keeps_next | with_reducible exact Outcome.keeps_fault
    | extract_lets | split | (dsimp only; with_reducible assumption) | intro _ | rw [State.mk_upd] | dsimp +zetaDelta only

theorem State.spoil_ok {pend : List Instr} (s : State) (c : Compress) (ok_s : s.Ok pend) :
    (State.spoil s c).Ok pend := by
  unfold State.spoil
  repeat' first
    | with_reducible assumption | with_reducible refine State.ok_upd ?_ | with_reducible apply State.storeWrite_ok
    | with_reducible apply State.tookFreeN_ok | extract_lets | split | (dsimp only; with_reducible assumption) | intro _
    | rw [State.mk_upd] | dsimp +zetaDelta only

theorem State.countEncode_ok {pend : List Instr} (s : State) (c : Compress) (noGain : Bool) (ok_s : s.Ok pend) :
    (State.countEncode s c noGain).Ok pend := by
  unfold State.countEncode
  repeat' first
    | with_reducible assumption | with_reducible refine State.ok_upd ?_ | with_reducible apply State.count_ok | extract_lets | split
    | (dsimp only; with_reducible assumption) | intro _ | rw [State.mk_upd] | dsimp +zetaDelta only

theorem State.compressEnd_ok {pend : List Instr} (s : State) (c : Compress) (ok_s : s.Ok pend) :
    (State.compressEnd s c).Ok pend := by
  unfold State.compressEnd
  repeat' first
    | with_reducible assumption | with_reducible refine State.ok_upd ?_ | with_reducible apply State.complete_ok
    | with_reducible apply State.countEncode_ok | with_reducible apply State.count_ok | with_reducible apply State.memUncorr_ok
    | with_reducible apply State.portServed_ok | with_reducible apply State.readBlocks_ok
    | with_reducible apply State.residentReply_ok | with_reducible apply State.rle1Fail_ok | with_reducible apply State.spoil_ok
    | extract_lets | split | (dsimp only; with_reducible assumption) | intro _ | rw [State.mk_upd] | dsimp +zetaDelta only

theorem State.memShow_ok {pend : List Instr} (s : State) (ok_s : s.Ok pend) :
    (State.memShow s).Ok pend := by
  unfold State.memShow
  repeat' first
    | with_reducible assumption | with_reducible refine State.ok_upd ?_ | with_reducible apply State.setFlag_ok | extract_lets
    | split | (dsimp only; with_reducible assumption) | intro _ | rw [State.mk_upd] | dsimp +zetaDelta only

theorem State.memTrain_ok {pend : List Instr} (s : State) (bad : List Nat) (ok_s : s.Ok pend) :
    (State.memTrain s bad).Ok pend := by
  unfold State.memTrain
  repeat' first
    | with_reducible assumption | with_reducible refine State.ok_upd ?_ | with_reducible apply State.onOneClock_ok
    | with_reducible apply State.raise_ok | with_reducible apply State.ok_foldl | extract_lets | split
    | (dsimp only; with_reducible assumption) | intro _ | rw [State.mk_upd] | dsimp +zetaDelta only

theorem State.scrubNext_ok {pend : List Instr} (s : State) (ok_s : s.Ok pend) :
    (State.scrubNext s).Ok pend := by
  unfold State.scrubNext
  repeat' first
    | with_reducible assumption | with_reducible refine State.ok_upd ?_ | with_reducible apply State.count_ok | extract_lets | split
    | (dsimp only; with_reducible assumption) | intro _ | rw [State.mk_upd] | dsimp +zetaDelta only

theorem State.scrubDrop_ok {pend : List Instr} (s : State) (blk : Nat) (ok_s : s.Ok pend) :
    (State.scrubDrop s blk).Ok pend := by
  unfold State.scrubDrop
  repeat' first
    | with_reducible assumption | with_reducible refine State.ok_upd ?_ | extract_lets | split
    | (dsimp only; with_reducible assumption) | intro _ | rw [State.mk_upd] | dsimp +zetaDelta only

theorem State.levelIs_ok {pend : List Instr} (s : State) (src : Nat) (on : Bool) (ok_s : s.Ok pend) :
    (State.levelIs s src on).Ok pend := by
  unfold State.levelIs
  repeat' first
    | with_reducible assumption | with_reducible refine State.ok_upd ?_ | with_reducible apply State.condEnd_ok
    | with_reducible apply State.onsetOr_ok | with_reducible apply State.raise_ok | extract_lets | split
    | (dsimp only; with_reducible assumption) | intro _ | rw [State.mk_upd] | dsimp +zetaDelta only

theorem State.memTemp_ok {pend : List Instr} (s : State) (c : Nat) (on : Bool) (ok_s : s.Ok pend) :
    (State.memTemp s c on).Ok pend := by
  unfold State.memTemp
  repeat' first
    | with_reducible assumption | with_reducible refine State.ok_upd ?_ | with_reducible apply State.condEnd_ok
    | with_reducible apply State.memShow_ok | with_reducible apply State.onsetOr_ok | with_reducible apply State.raiseBlank_ok
    | extract_lets | split | (dsimp only; with_reducible assumption) | intro _ | rw [State.mk_upd] | dsimp +zetaDelta only

theorem State.setX2_ok {pend : List Instr} (s : State) (c : Nat) (b : Bool) (ok_s : s.Ok pend) :
    (State.setX2 s c b).Ok pend := by
  unfold State.setX2
  repeat' first
    | with_reducible assumption | with_reducible refine State.ok_upd ?_ | with_reducible apply State.setFlag_ok | extract_lets
    | split | (dsimp only; with_reducible assumption) | intro _ | rw [State.mk_upd] | dsimp +zetaDelta only

theorem State.takeTimer_ok_of {pend : List Instr} {s : State} {master owner : Nat} (ok_s : s.Ok pend) {t : State}
    (e : s.takeTimer master owner = some t) : t.Ok pend := by
  unfold State.takeTimer at e
  split at e
  · cases e; exact ok_s
  · rw [Option.map_eq_some_iff] at e
    obtain ⟨r, _, rfl⟩ := e
    exact State.grant_ok _ _ _ _ ok_s

theorem State.dropTimer_ok {pend : List Instr} (s : State) (master : Nat) (owner : Nat) (ok_s : s.Ok pend) :
    (State.dropTimer s master owner).Ok pend := by
  unfold State.dropTimer
  repeat' first
    | with_reducible assumption | with_reducible refine State.ok_upd ?_ | (refine State.release_ok_of ?_ (by assumption))
    | with_reducible apply State.release_ok | extract_lets | split | (dsimp only; with_reducible assumption) | intro _
    | rw [State.mk_upd] | dsimp +zetaDelta only

theorem State.axisClaims_ok_of {pend : List Instr} {s : State} {master a : Nat} {en interp : Bool} (ok_s : s.Ok pend) {t : State}
    (e : s.axisClaims master a en interp = some t) : t.Ok pend := by
  unfold State.axisClaims at e
  split at e
  · cases e; exact State.dropTimer_ok _ _ _ (State.dropTimer_ok _ _ _ ok_s)
  · split at e
    · cases e
    · rename_i u hu
      have h := State.takeTimer_ok_of ok_s hu
      split at e
      · exact State.takeTimer_ok_of h e
      · cases e; exact State.dropTimer_ok _ _ _ h

theorem State.noBoost_ok {pend : List Instr} (s : State) (a : Nat) (ok_s : s.Ok pend) :
    (State.noBoost s a).Ok pend := by
  unfold State.noBoost
  repeat' first
    | with_reducible assumption | with_reducible refine State.ok_upd ?_ | with_reducible apply State.setFld_ok | extract_lets
    | split | (dsimp only; with_reducible assumption) | intro _ | rw [State.mk_upd] | dsimp +zetaDelta only

theorem State.writeProfile_ok {pend : List Instr} (s : State) (a : Nat) (b : List Byte) (ok_s : s.Ok pend) :
    (State.writeProfile s a b).Ok pend := by
  unfold State.writeProfile
  repeat' first
    | with_reducible assumption | with_reducible refine State.ok_upd ?_ | with_reducible apply State.noBoost_ok
    | with_reducible apply State.wr_ok | with_reducible apply State.ok_foldl | extract_lets | split
    | (dsimp only; with_reducible assumption) | intro _ | rw [State.mk_upd] | dsimp +zetaDelta only

theorem State.axisConfig_ok_of {pend : List Instr} {s : State} {master a : Nat} {b : List Byte} (ok_s : s.Ok pend) {t : State}
    (e : s.axisConfig master a b = some t) : t.Ok pend := by
  unfold State.axisConfig at e
  rw [Option.map_eq_some_iff] at e
  obtain ⟨u, hu, rfl⟩ := e
  exact State.writeProfile_ok _ _ _ (State.axisClaims_ok_of ok_s hu)

theorem State.timerRefused_ok {pend : List Instr} (s : State) (master : Nat) (owner : Nat) (ok_s : s.Ok pend) :
    (State.timerRefused s master owner).Ok pend := by
  unfold State.timerRefused
  repeat' first
    | with_reducible assumption | with_reducible refine State.ok_upd ?_ | with_reducible apply State.refusedClaim_ok
    | with_reducible apply State.tookFree_ok | extract_lets | split | (dsimp only; with_reducible assumption) | intro _
    | rw [State.mk_upd] | dsimp +zetaDelta only

theorem State.timerConflict_ok {pend : List Instr} (s : State) (pk : Packet) (owner : Nat) (ok_s : s.Ok pend) :
    (State.timerConflict s pk owner).Ok pend := by
  unfold State.timerConflict
  repeat' first
    | with_reducible assumption | with_reducible refine State.ok_upd ?_ | with_reducible apply State.complete_ok
    | with_reducible apply State.timerRefused_ok | extract_lets | split | (dsimp only; with_reducible assumption) | intro _
    | rw [State.mk_upd] | dsimp +zetaDelta only

theorem State.badFree_ok {pend : List Instr} (s : State) (pk : Packet) (ok_s : s.Ok pend) :
    (State.badFree s pk).Ok pend := by
  unfold State.badFree
  repeat' first
    | with_reducible assumption | with_reducible refine State.ok_upd ?_ | with_reducible apply State.complete_ok
    | with_reducible apply State.tookFree_ok | extract_lets | split | (dsimp only; with_reducible assumption) | intro _
    | rw [State.mk_upd] | dsimp +zetaDelta only

theorem State.badMoving_ok {pend : List Instr} (s : State) (pk : Packet) (ok_s : s.Ok pend) :
    (State.badMoving s pk).Ok pend := by
  unfold State.badMoving
  repeat' first
    | with_reducible assumption | with_reducible refine State.ok_upd ?_ | with_reducible apply State.complete_ok | extract_lets
    | split | (dsimp only; with_reducible assumption) | intro _ | rw [State.mk_upd] | dsimp +zetaDelta only

theorem State.writeMotCfg_ok {pend : List Instr} (s : State) (load : Bool) (master : Nat) (a : Nat) (v : Nat) (ok_s : s.Ok pend) :
    (State.writeMotCfg s load master a v).Ok pend := by
  unfold State.writeMotCfg
  repeat' first
    | with_reducible assumption | with_reducible refine State.ok_upd ?_ | (refine State.axisClaims_ok_of ?_ (by assumption))
    | with_reducible apply State.noBoost_ok | with_reducible apply State.timerRefused_ok | with_reducible apply State.writeByType_ok
    | extract_lets | split | (dsimp only; with_reducible assumption) | intro _ | rw [State.mk_upd] | dsimp +zetaDelta only

theorem State.freshLag_ok {pend : List Instr} (s : State) (a : Nat) (ok_s : s.Ok pend) :
    (State.freshLag s a).Ok pend := by
  unfold State.freshLag
  repeat' first
    | with_reducible assumption | with_reducible refine State.ok_upd ?_ | with_reducible apply State.setFld_ok
    | with_reducible apply State.updAxis_ok | extract_lets | split | (dsimp only; with_reducible assumption) | intro _
    | rw [State.mk_upd] | dsimp +zetaDelta only

theorem State.startLeg_ok {pend : List Instr} (s : State) (a : Nat) (r : AxisRun) (pos : Bool) (st : Nat) (ok_s : s.Ok pend) :
    (State.startLeg s a r pos st).Ok pend := by
  unfold State.startLeg
  repeat' first
    | with_reducible assumption | with_reducible refine State.ok_upd ?_ | with_reducible apply State.freshLag_ok
    | with_reducible apply State.setAxisState_ok | with_reducible apply State.updAxis_ok | with_reducible apply State.wr_ok
    | extract_lets | split | (dsimp only; with_reducible assumption) | intro _ | rw [State.mk_upd] | dsimp +zetaDelta only

theorem State.clearStopped_ok {pend : List Instr} (s : State) (a : Nat) (ok_s : s.Ok pend) :
    (State.clearStopped s a).Ok pend := by
  unfold State.clearStopped
  repeat' first
    | with_reducible assumption | with_reducible refine State.ok_upd ?_ | with_reducible apply State.setFlag_ok
    | with_reducible apply State.wr_ok | extract_lets | split | (dsimp only; with_reducible assumption) | intro _
    | rw [State.mk_upd] | dsimp +zetaDelta only

theorem State.startMove_ok {pend : List Instr} (s : State) (pk : Packet) (a : Nat) (d : Int) (target : Int) (ok_s : s.Ok pend) :
    (State.startMove s pk a d target).Ok pend := by
  unfold State.startMove
  repeat' first
    | with_reducible assumption | with_reducible refine State.ok_upd ?_ | with_reducible apply State.clearStopped_ok
    | with_reducible apply State.moveCode_ok | with_reducible apply State.startLeg_ok | with_reducible apply State.updAxis_ok
    | with_reducible apply State.wr_ok | extract_lets | split | (dsimp only; with_reducible assumption) | intro _
    | rw [State.mk_upd] | dsimp +zetaDelta only

theorem State.axisReady_ok {pend : List Instr} (s : State) (pk : Packet) (a : Nat) (f : State → State) (ok_s : s.Ok pend) (ok_f : ∀ (x0 : State), x0.Ok pend → (f x0).Ok pend) :
    (State.axisReady s pk a f).Ok pend := by
  unfold State.axisReady
  repeat' first
    | with_reducible assumption | with_reducible refine State.ok_upd ?_ | with_reducible apply ok_f
    | with_reducible apply State.badFree_ok | with_reducible apply State.badMoving_ok | with_reducible apply State.complete_ok
    | extract_lets | split | (dsimp only; with_reducible assumption) | intro _ | rw [State.mk_upd] | dsimp +zetaDelta only

theorem State.moveBy_ok {pend : List Instr} (s : State) (pk : Packet) (a : Nat) (d : Int) (target : Int) (ok_s : s.Ok pend) :
    (State.moveBy s pk a d target).Ok pend := by
  unfold State.moveBy
  repeat' first
    | with_reducible assumption | with_reducible refine State.ok_upd ?_ | with_reducible apply State.badFree_ok
    | with_reducible apply State.clearStopped_ok | with_reducible apply State.complete_ok | with_reducible apply State.count_ok
    | with_reducible apply State.startMove_ok | with_reducible apply State.wr_ok | extract_lets | split
    | (dsimp only; with_reducible assumption) | intro _ | rw [State.mk_upd] | dsimp +zetaDelta only

theorem State.axisMove_ok {pend : List Instr} (s : State) (pk : Packet) (ok_s : s.Ok pend) :
    (State.axisMove s pk).Ok pend := by
  unfold State.axisMove
  repeat' first
    | with_reducible assumption | with_reducible refine State.ok_upd ?_ | with_reducible apply State.badFree_ok
    | with_reducible apply State.clearStopped_ok | with_reducible apply State.complete_ok | with_reducible apply State.moveBy_ok
    | with_reducible apply State.moveCode_ok | with_reducible apply State.setFlag_ok | with_reducible apply State.startLeg_ok
    | with_reducible apply State.updAxis_ok | with_reducible apply State.wr_ok | extract_lets | split
    | (dsimp only; with_reducible assumption) | intro _ | rw [State.mk_upd] | dsimp +zetaDelta only

theorem State.axisStop_ok {pend : List Instr} (s : State) (pk : Packet) (ok_s : s.Ok pend) :
    (State.axisStop s pk).Ok pend := by
  unfold State.axisStop
  repeat' first
    | with_reducible assumption | with_reducible refine State.ok_upd ?_ | with_reducible apply State.complete_ok
    | with_reducible apply State.homeFailsOut_ok | with_reducible apply State.stopRequest_ok | with_reducible apply State.updAxis_ok
    | extract_lets | split | (dsimp only; with_reducible assumption) | intro _ | rw [State.mk_upd] | dsimp +zetaDelta only

theorem State.intoLimit_ok {pend : List Instr} (s : State) (a : Nat) (pos : Bool) (ok_s : s.Ok pend) :
    (State.intoLimit s a pos).Ok pend := by
  unfold State.intoLimit
  repeat' first
    | with_reducible assumption | with_reducible refine State.ok_upd ?_ | with_reducible apply State.faultStop_ok
    | with_reducible apply State.raise_ok | extract_lets | split | (dsimp only; with_reducible assumption) | intro _
    | rw [State.mk_upd] | dsimp +zetaDelta only

theorem State.holdLevel_ok {pend : List Instr} (s : State) (a : Nat) (hard : Bool) (ok_s : s.Ok pend) :
    (State.holdLevel s a hard).Ok pend := by
  unfold State.holdLevel
  repeat' first
    | with_reducible assumption | with_reducible refine State.ok_upd ?_ | with_reducible apply State.setFld_ok | extract_lets
    | split | (dsimp only; with_reducible assumption) | intro _ | rw [State.mk_upd] | dsimp +zetaDelta only

theorem State.homed_ok {pend : List Instr} (s : State) (a : Nat) (pos : Int) (index : Nat) (ok_s : s.Ok pend) :
    (State.homed s a pos index).Ok pend := by
  unfold State.homed
  repeat' first
    | with_reducible assumption | with_reducible refine State.ok_upd ?_ | with_reducible apply State.axisRests_ok
    | with_reducible apply State.complete_ok | with_reducible apply State.setFlag_ok | with_reducible apply State.updAxis_ok
    | with_reducible apply State.wr_ok | extract_lets | split | (dsimp only; with_reducible assumption) | intro _
    | rw [State.mk_upd] | dsimp +zetaDelta only

theorem State.backOff_ok {pend : List Instr} (s : State) (a : Nat) (method : Nat) (ok_s : s.Ok pend) :
    (State.backOff s a method).Ok pend := by
  unfold State.backOff
  repeat' first
    | with_reducible assumption | with_reducible refine State.ok_upd ?_ | with_reducible apply State.holdLevel_ok
    | with_reducible apply State.homed_ok | with_reducible apply State.intoLimit_ok | with_reducible apply State.moveCode_ok
    | with_reducible apply State.startLeg_ok | extract_lets | split | (dsimp only; with_reducible assumption) | intro _
    | rw [State.mk_upd] | dsimp +zetaDelta only

theorem State.homeFound_ok {pend : List Instr} (s : State) (a : Nat) (method : Nat) (ok_s : s.Ok pend) :
    (State.homeFound s a method).Ok pend := by
  unfold State.homeFound
  repeat' first
    | with_reducible assumption | with_reducible refine State.ok_upd ?_ | with_reducible apply State.backOff_ok
    | with_reducible apply State.updAxis_ok | extract_lets | split | (dsimp only; with_reducible assumption) | intro _
    | rw [State.mk_upd] | dsimp +zetaDelta only

theorem State.homeFails_ok {pend : List Instr} (s : State) (a : Nat) (bit : Option Nat) (ok_s : s.Ok pend) :
    (State.homeFails s a bit).Ok pend := by
  unfold State.homeFails
  repeat' first
    | with_reducible assumption | with_reducible refine State.ok_upd ?_ | with_reducible apply State.faultStop_ok
    | with_reducible apply State.homeFailsOut_ok | extract_lets | split | (dsimp only; with_reducible assumption) | intro _
    | rw [State.mk_upd] | dsimp +zetaDelta only

theorem State.stall_ok {pend : List Instr} (s : State) (a : Nat) (ok_s : s.Ok pend) :
    (State.stall s a).Ok pend := by
  unfold State.stall
  repeat' first
    | with_reducible assumption | with_reducible refine State.ok_upd ?_ | with_reducible apply State.backOff_ok
    | with_reducible apply State.count_ok | with_reducible apply State.faultStop_ok | with_reducible apply State.homed_ok
    | with_reducible apply State.raise_ok | with_reducible apply State.setW1c_ok | with_reducible apply State.wr_ok | extract_lets
    | split | (dsimp only; with_reducible assumption) | intro _ | rw [State.mk_upd] | dsimp +zetaDelta only

theorem State.fullStep_ok {pend : List Instr} (s : State) (a : Nat) (ok_s : s.Ok pend) :
    (State.fullStep s a).Ok pend := by
  unfold State.fullStep
  repeat' first
    | with_reducible assumption | with_reducible refine State.ok_upd ?_ | with_reducible apply State.moveCode_ok
    | with_reducible apply State.setFld_ok | with_reducible apply State.stall_ok | with_reducible apply State.updAxis_ok
    | extract_lets | split | (dsimp only; with_reducible assumption) | intro _ | rw [State.mk_upd] | dsimp +zetaDelta only

theorem State.reload_ok {pend : List Instr} (s : State) (a : Nat) (i : Nat) (ok_s : s.Ok pend) :
    (State.reload s a i).Ok pend := by
  unfold State.reload
  repeat' first
    | with_reducible assumption | with_reducible refine State.ok_upd ?_ | with_reducible apply State.updAxis_ok
    | with_reducible apply State.wr_ok | extract_lets | split | (dsimp only; with_reducible assumption) | intro _
    | rw [State.mk_upd] | dsimp +zetaDelta only

theorem State.stepOut_ok {pend : List Instr} (s : State) (a : Nat) (pos : Bool) (v2 : Nat) (ok_s : s.Ok pend) :
    (State.stepOut s a pos v2).Ok pend := by
  unfold State.stepOut
  repeat' first
    | with_reducible assumption | with_reducible refine State.ok_upd ?_ | with_reducible apply State.emitPin_ok
    | with_reducible apply State.fullStep_ok | with_reducible apply State.updAxis_ok | with_reducible apply State.wr_ok
    | extract_lets | split | (dsimp only; with_reducible assumption) | intro _ | rw [State.mk_upd] | dsimp +zetaDelta only

theorem State.moveEnds_ok {pend : List Instr} (s : State) (a : Nat) (stopping : Bool) (ok_s : s.Ok pend) :
    (State.moveEnds s a stopping).Ok pend := by
  unfold State.moveEnds
  repeat' first
    | with_reducible assumption | with_reducible refine State.ok_upd ?_ | with_reducible apply State.axisRests_ok
    | with_reducible apply State.count_ok | extract_lets | split | (dsimp only; with_reducible assumption) | intro _
    | rw [State.mk_upd] | dsimp +zetaDelta only

theorem State.trapNext_ok {pend : List Instr} (s : State) (a : Nat) (r : Nat) (stopping : Bool) (ok_s : s.Ok pend) :
    (State.trapNext s a r stopping).Ok pend := by
  unfold State.trapNext
  repeat' first
    | with_reducible assumption | with_reducible refine State.ok_upd ?_ | with_reducible apply State.reload_ok
    | with_reducible apply State.setAxisState_ok | with_reducible apply State.updAxis_ok | extract_lets | split
    | (dsimp only; with_reducible assumption) | intro _ | rw [State.mk_upd] | dsimp +zetaDelta only

theorem State.jerkNext_ok {pend : List Instr} (s : State) (a : Nat) (r : Nat) (up : Bool) (down : Bool) (stopping : Bool) (alpha : Nat) (falling : Bool) (ok_s : s.Ok pend) :
    (State.jerkNext s a r up down stopping alpha falling).Ok pend := by
  unfold State.jerkNext
  repeat' first
    | with_reducible assumption | with_reducible refine State.ok_upd ?_ | with_reducible apply State.reload_ok
    | with_reducible apply State.setAxisState_ok | with_reducible apply State.updAxis_ok | extract_lets | split
    | (dsimp only; with_reducible assumption) | intro _ | rw [State.mk_upd] | dsimp +zetaDelta only

theorem State.interpStep_ok {pend : List Instr} (s : State) (a : Nat) (segs : List (Bool × Nat)) (fast : Nat) (stopping : Bool) (ok_s : s.Ok pend) :
    (State.interpStep s a segs fast stopping).Ok pend := by
  unfold State.interpStep
  repeat' first
    | with_reducible assumption | with_reducible refine State.ok_upd ?_ | with_reducible apply State.axisRests_ok
    | with_reducible apply State.intoLimit_ok | with_reducible apply State.reload_ok | with_reducible apply State.stepOut_ok
    | with_reducible apply State.updAxis_ok | extract_lets | split | (dsimp only; with_reducible assumption) | intro _
    | rw [State.mk_upd] | dsimp +zetaDelta only

theorem State.seekStep_ok {pend : List Instr} (s : State) (a : Nat) (method : Nat) (n : Nat) (up : Bool) (alpha : Nat) (falling : Bool) (ok_s : s.Ok pend) :
    (State.seekStep s a method n up alpha falling).Ok pend := by
  unfold State.seekStep
  repeat' first
    | with_reducible assumption | with_reducible refine State.ok_upd ?_ | with_reducible apply State.homeFails_ok
    | with_reducible apply State.reload_ok | with_reducible apply State.stepOut_ok | with_reducible apply State.updAxis_ok
    | extract_lets | split | (dsimp only; with_reducible assumption) | intro _ | rw [State.mk_upd] | dsimp +zetaDelta only

theorem State.brakeStep_ok {pend : List Instr} (s : State) (a : Nat) (ok_s : s.Ok pend) :
    (State.brakeStep s a).Ok pend := by
  unfold State.brakeStep
  repeat' first
    | with_reducible assumption | with_reducible refine State.ok_upd ?_ | with_reducible apply State.reload_ok
    | with_reducible apply State.updAxis_ok | extract_lets | split | (dsimp only; with_reducible assumption) | intro _
    | rw [State.mk_upd] | dsimp +zetaDelta only

theorem State.endInjections_ok {pend : List Instr} (s : State) (ok_s : s.Ok pend) :
    (State.endInjections s).Ok pend := by
  unfold State.endInjections
  repeat' first
    | with_reducible assumption | with_reducible refine State.ok_upd ?_ | with_reducible apply State.injEnd_ok
    | with_reducible apply State.wireEnd_ok | with_reducible apply State.ok_foldl | extract_lets | split
    | (dsimp only; with_reducible assumption) | intro _ | rw [State.mk_upd] | dsimp +zetaDelta only

theorem State.mainQuiet_ok {pend : List Instr} (s : State) (ok_s : s.Ok pend) :
    (State.mainQuiet s).Ok pend := by
  unfold State.mainQuiet
  repeat' first
    | with_reducible assumption | with_reducible refine State.ok_upd ?_ | with_reducible apply State.quietEnd_ok
    | with_reducible apply State.ok_foldl | extract_lets | split | (dsimp only; with_reducible assumption) | intro _
    | rw [State.mk_upd] | dsimp +zetaDelta only

theorem State.outputsDown_ok {pend : List Instr} (s : State) (ok_s : s.Ok pend) :
    (State.outputsDown s).Ok pend := by
  unfold State.outputsDown
  repeat' first
    | with_reducible assumption | with_reducible refine State.ok_upd ?_ | with_reducible apply State.emit_ok
    | with_reducible apply State.setGate_ok | with_reducible apply State.ok_foldl | extract_lets | split
    | (dsimp only; with_reducible assumption) | intro _ | rw [State.mk_upd] | dsimp +zetaDelta only

theorem State.mainDown_ok {pend : List Instr} (s : State) (ok_s : s.Ok pend) : (s.mainDown).Ok pend := by
  unfold State.mainDown
  split
  · exact ok_s
  · extract_lets u
    have h0 : u.Ok pend := State.outputsDown_ok _ (State.toCoarse_ok _ (State.mainQuiet_ok _ (State.endInjections_ok _ ok_s)))
    clear_value u
    rename_i t
    have h1 : t.Ok pend := by
      simp only [t]
      rw [State.mk_updAll]
      exact State.ok_updAll h0
    clear_value t
    exact State.aliveCheck_ok _ (State.pullSeq_ok _ (State.setFlag_ok _ _ _ _ (State.ok_foldl h1 fun t k ht => State.setFlag_ok _ _ _ _ ht)))

theorem State.mainEpochs_ok {pend : List Instr} (s : State) (ok_s : s.Ok pend) :
    (State.mainEpochs s).Ok pend := by
  unfold State.mainEpochs
  repeat' first
    | with_reducible assumption | with_reducible refine State.ok_upd ?_ | with_reducible apply State.bumpEpoch_ok
    | with_reducible apply State.ok_foldl | extract_lets | split | (dsimp only; with_reducible assumption) | intro _
    | rw [State.mk_upd] | dsimp +zetaDelta only

theorem State.startClocks_ok {pend : List Instr} (s : State) (ok_s : s.Ok pend) :
    (State.startClocks s).Ok pend := by
  unfold State.startClocks
  repeat' first
    | with_reducible assumption | with_reducible refine State.ok_upd ?_ | with_reducible apply State.setClk_ok
    | with_reducible apply State.ok_foldl | extract_lets | split | (dsimp only; with_reducible assumption) | intro _
    | rw [State.mk_upd] | dsimp +zetaDelta only

theorem State.causedDown_ok {pend : List Instr} (s : State) (src : Nat) (ok_s : s.Ok pend) :
    (State.causedDown s src).Ok pend := by
  unfold State.causedDown
  repeat' first
    | with_reducible assumption | with_reducible refine State.ok_upd ?_ | with_reducible apply State.carryRec_ok | extract_lets
    | split | (dsimp only; with_reducible assumption) | intro _ | rw [State.mk_upd] | dsimp +zetaDelta only

theorem State.powerUpFails_ok {pend : List Instr} (s : State) (src : Nat) (n : Nat) (ok_s : s.Ok pend) :
    (State.powerUpFails s src n).Ok pend := by
  unfold State.powerUpFails
  repeat' first
    | with_reducible assumption | with_reducible refine State.ok_upd ?_ | with_reducible apply State.causedDown_ok
    | with_reducible apply State.pullSeq_ok | with_reducible apply State.raise_ok | with_reducible apply State.setRailState_ok
    | extract_lets | split | (dsimp only; with_reducible assumption) | intro _ | rw [State.mk_upd] | dsimp +zetaDelta only

theorem State.cutRails_ok {pend : List Instr} (s : State) (l : List Nat) (deps : List Nat) (ok_s : s.Ok pend) :
    (State.cutRails s l deps).Ok pend := by
  unfold State.cutRails
  repeat' first
    | with_reducible assumption | with_reducible refine State.ok_upd ?_ | with_reducible apply State.setRailState_ok
    | with_reducible apply State.switchOff_ok | with_reducible apply State.ok_foldl | extract_lets | split
    | (dsimp only; with_reducible assumption) | intro _ | rw [State.mk_upd] | dsimp +zetaDelta only

theorem State.failedRail_ok {pend : List Instr} (s : State) (l : List Nat) (ok_s : s.Ok pend) : (s.failedRail l).2.Ok pend := by
  unfold State.failedRail
  extract_lets own c
  split
  · exact ok_s
  · exact State.tookFree_ok _ ok_s

theorem State.downShow_ok {pend : List Instr} (s : State) (ok_s : s.Ok pend) :
    (State.downShow s).Ok pend := by
  unfold State.downShow
  repeat' first
    | with_reducible assumption | with_reducible refine State.ok_upd ?_ | with_reducible apply State.setPhase_ok | extract_lets
    | split | (dsimp only; with_reducible assumption) | intro _ | rw [State.mk_upd] | dsimp +zetaDelta only

theorem State.downNext_ok {pend : List Instr} (s : State) (ok_s : s.Ok pend) :
    (State.downNext s).Ok pend := by
  unfold State.downNext
  repeat' first
    | with_reducible assumption | with_reducible refine State.ok_upd ?_ | with_reducible apply State.downShow_ok
    | with_reducible apply State.mainDown_ok | with_reducible apply State.switchOff_ok | extract_lets | split
    | (dsimp only; with_reducible assumption) | intro _ | rw [State.mk_upd] | dsimp +zetaDelta only

theorem State.heatersOff_ok {pend : List Instr} (s : State) (ok_s : s.Ok pend) :
    (State.heatersOff s).Ok pend := by
  unfold State.heatersOff
  repeat' first
    | with_reducible assumption | with_reducible refine State.ok_upd ?_ | with_reducible apply State.setFld_ok
    | with_reducible apply State.ok_foldl | extract_lets | split | (dsimp only; with_reducible assumption) | intro _
    | rw [State.mk_upd] | dsimp +zetaDelta only

theorem execPowerDownStart_ok {pend : List Instr} (s : State) (ok_s : s.Ok pend) :
    Outcome.Keeps pend (execPowerDownStart s) := by
  unfold execPowerDownStart
  repeat' first
    | with_reducible assumption | with_reducible refine State.ok_upd ?_ | with_reducible apply State.downNext_ok
    | with_reducible apply State.downShow_ok | with_reducible apply State.heatersOff_ok | with_reducible apply State.pullSeq_ok
    | with_reducible apply State.setFlag_ok | with_reducible apply State.setPhase_ok | with_reducible apply State.setRailState_ok
    | with_reducible apply State.ok_foldl | with_reducible apply Outcome.keeps_next | with_reducible exact Outcome.keeps_fault
    | extract_lets | split | (dsimp only; with_reducible assumption) | intro _ | rw [State.mk_upd] | dsimp +zetaDelta only

theorem State.foundOff_ok {pend : List Instr} (s : State) (n : Nat) (ok_s : s.Ok pend) :
    (State.foundOff s n).Ok pend := by
  unfold State.foundOff
  repeat' first
    | with_reducible assumption | with_reducible refine State.ok_upd ?_ | with_reducible apply State.permit_ok
    | with_reducible apply State.restartRail_ok | with_reducible apply State.setRailState_ok | with_reducible apply State.updRail_ok
    | extract_lets | split | (dsimp only; with_reducible assumption) | intro _ | rw [State.mk_upd] | dsimp +zetaDelta only

theorem State.zoneScan_ok {pend : List Instr} (s : State) (z : Nat) (ok_s : s.Ok pend) :
    (State.zoneScan s z).Ok pend := by
  unfold State.zoneScan
  repeat' first
    | with_reducible assumption | with_reducible refine State.ok_upd ?_ | extract_lets | split
    | (dsimp only; with_reducible assumption) | intro _ | rw [State.mk_upd] | dsimp +zetaDelta only

theorem execAdcScan_ok {pend : List Instr} (volts : List Int) (s : State) (ok_s : s.Ok pend) :
    Outcome.Keeps pend (execAdcScan volts s) := by
  unfold execAdcScan
  repeat' first
    | with_reducible assumption | with_reducible refine State.ok_upd ?_ | with_reducible apply State.downNext_ok
    | with_reducible apply State.downShow_ok | with_reducible apply State.foundOff_ok | with_reducible apply State.holdOffNext_ok
    | with_reducible apply State.setFld_ok | with_reducible apply State.wr_ok | with_reducible apply State.zoneScan_ok
    | with_reducible apply State.ok_foldl | with_reducible apply Outcome.keeps_next | with_reducible exact Outcome.keeps_fault
    | extract_lets | split | (dsimp only; with_reducible assumption) | intro _ | rw [State.mk_upd] | dsimp +zetaDelta only

theorem State.railsFail_ok {pend : List Instr} (s : State) (l : List Nat) (down : Bool) (ok_s : s.Ok pend) : (s.railsFail l down).Ok pend := by
  unfold State.railsFail
  extract_lets deps own s1
  have h1 : s1.Ok pend := State.cutRails_ok _ _ _ ok_s
  clear_value s1
  have h2 := State.failedRail_ok s1 l h1
  split
  rename_i n s2 e
  rw [e] at h2
  dsimp only at h2
  extract_lets _ s3
  have h3 : s3.Ok pend := by
    simp only [s3]
    refine State.raiseOne_ok _ _ _ _ ?_
    split
    · exact h2
    · exact State.count_ok _ _ _ h2
  clear_value s3
  split
  · exact State.mainDown_ok _ h3
  · exact h3

theorem State.dropsNow_ok {pend : List Instr} (s : State) (n : Nat) (ok_s : s.Ok pend) :
    (State.dropsNow s n).2.Ok pend := by
  unfold State.dropsNow
  repeat' first
    | with_reducible assumption | with_reducible refine State.ok_upd ?_ | (refine State.tie_ok_of ?_ (by assumption))
    | with_reducible apply State.tie_ok | with_reducible apply execAdcScan_ok | with_reducible apply execHold_ok
    | with_reducible apply execPowerDownStart_ok | extract_lets | split | (dsimp only; with_reducible assumption) | intro _
    | rw [State.mk_upd] | dsimp +zetaDelta only

theorem State.dropsNow_ok_of {pend : List Instr} {s : State} {n : Nat} (ok_s : s.Ok pend) {r} {t : State} (e : State.dropsNow s n = (r, t)) :
    t.Ok pend := by
  have h := State.dropsNow_ok s n ok_s
  rw [e] at h
  exact h

theorem State.dropping_ok {pend : List Instr} (s : State) (l : List Nat) (ok_s : s.Ok pend) : (s.dropping l).2.Ok pend := by
  unfold State.dropping
  have h : ∀ (l : List Nat) (p : List Nat × State), p.2.Ok pend →
      (l.foldl (fun p n => let r := p.2.dropsNow n; (if r.1 then p.1 ++ [n] else p.1, r.2)) p).2.Ok pend := by
    intro l
    induction l with
    | nil => exact fun _ hp => hp
    | cons n l ih => exact fun p hp => ih _ (State.dropsNow_ok _ _ hp)
  exact h l _ ok_s

theorem State.dropping_ok_of {pend : List Instr} {s : State} {l : List Nat} (ok_s : s.Ok pend) {r} {t : State}
    (e : s.dropping l = (r, t)) : t.Ok pend := by
  have h := State.dropping_ok s l ok_s
  rw [e] at h
  exact h

theorem State.pgFall_ok {pend : List Instr} (s : State) (rs : BitVec 24) (ok_s : s.Ok pend) :
    (State.pgFall s rs).Ok pend := by
  unfold State.pgFall
  repeat' first
    | with_reducible assumption | with_reducible refine State.ok_upd ?_ | (refine State.dropping_ok_of ?_ (by assumption))
    | with_reducible apply State.dropping_ok | with_reducible apply State.faultStop_ok | with_reducible apply State.homeFailsOut_ok
    | with_reducible apply State.railsFail_ok | with_reducible apply State.raiseOne_ok | with_reducible apply State.setFlag_ok
    | with_reducible apply State.setRailState_ok | with_reducible apply State.updRail_ok | with_reducible apply State.ok_foldl
    | extract_lets | split | (dsimp only; with_reducible assumption) | intro _ | rw [State.mk_upd] | dsimp +zetaDelta only

theorem State.enterStandby_ok {pend : List Instr} (s : State) (ok_s : s.Ok pend) : (s.enterStandby).Ok pend := by
  unfold State.enterStandby
  extract_lets s1 s2 cold _ _ _ s3 s4 _
  have h1 : s1.Ok pend :=
    State.setFld_ok _ _ _ _ _ (State.pullSeq_ok _ (State.setPhase_ok _ _ (State.endInjections_ok _ (State.mainDown_ok _ ok_s))))
  clear_value s1
  have h2 : s2.Ok pend := State.ok_foldl h1 fun t g ht => State.setFlag_ok _ _ _ _ (State.setClk_ok _ _ _ ht)
  clear_value s2
  have h3 : s3.Ok pend := by
    simp only [s3]
    rw [State.mk_upd]
    exact State.ok_upd h2
  clear_value s3
  have h4 : s4.Ok pend := State.wr_ok _ _ _ (State.setFld_ok _ _ _ _ _ h3)
  clear_value s4
  apply State.aliveCheck_ok
  rw [State.mk_upd]
  exact State.ok_upd h4

theorem State.railStatus_ok {pend : List Instr} (s : State) (pk : Packet) (ok_s : s.Ok pend) :
    (State.railStatus s pk).Ok pend := by
  unfold State.railStatus
  repeat' first
    | with_reducible assumption | with_reducible refine State.ok_upd ?_ | with_reducible apply State.complete_ok | extract_lets
    | split | (dsimp only; with_reducible assumption) | intro _ | rw [State.mk_upd] | dsimp +zetaDelta only

theorem State.updZone_ok {pend : List Instr} (s : State) (z : Nat) (f : Zone → Zone) (ok_s : s.Ok pend) :
    (State.updZone s z f).Ok pend := by
  unfold State.updZone
  repeat' first
    | with_reducible assumption | with_reducible refine State.ok_upd ?_ | extract_lets | split
    | (dsimp only; with_reducible assumption) | intro _ | rw [State.mk_upd] | dsimp +zetaDelta only

theorem State.startZone_ok {pend : List Instr} (s : State) (z : Nat) (ok_s : s.Ok pend) :
    (State.startZone s z).Ok pend := by
  unfold State.startZone
  repeat' first
    | with_reducible assumption | with_reducible refine State.ok_upd ?_ | with_reducible apply State.setFlag_ok
    | with_reducible apply State.setFld_ok | with_reducible apply State.updZone_ok | extract_lets | split
    | (dsimp only; with_reducible assumption) | intro _ | rw [State.mk_upd] | dsimp +zetaDelta only

theorem State.stopZone_ok {pend : List Instr} (s : State) (z : Nat) (ok_s : s.Ok pend) :
    (State.stopZone s z).Ok pend := by
  unfold State.stopZone
  repeat' first
    | with_reducible assumption | with_reducible refine State.ok_upd ?_ | with_reducible apply State.condEnd_ok
    | with_reducible apply State.setFlag_ok | with_reducible apply State.setFld_ok | with_reducible apply State.updZone_ok
    | extract_lets | split | (dsimp only; with_reducible assumption) | intro _ | rw [State.mk_upd] | dsimp +zetaDelta only

theorem State.dropZoneTimer_ok {pend : List Instr} (s : State) (master : Nat) (z : Nat) (ok_s : s.Ok pend) :
    (State.dropZoneTimer s master z).Ok pend := by
  unfold State.dropZoneTimer
  repeat' first
    | with_reducible assumption | with_reducible refine State.ok_upd ?_ | (refine State.release_ok_of ?_ (by assumption))
    | with_reducible apply State.release_ok | extract_lets | split | (dsimp only; with_reducible assumption) | intro _
    | rw [State.mk_upd] | dsimp +zetaDelta only

theorem State.takeZoneTimer_ok_of {pend : List Instr} {s : State} {master z : Nat} (ok_s : s.Ok pend) {t : State}
    (e : s.takeZoneTimer master z = some t) : t.Ok pend := by
  unfold State.takeZoneTimer at e
  split at e
  · cases e; exact ok_s
  · split at e
    · cases e
    · cases e; exact State.grant_ok _ _ _ _ ok_s

theorem State.heaterSet_ok {pend : List Instr} (s : State) (pk : Packet) (ok_s : s.Ok pend) :
    (State.heaterSet s pk).Ok pend := by
  unfold State.heaterSet
  repeat' first
    | with_reducible assumption | with_reducible refine State.ok_upd ?_ | (refine State.takeZoneTimer_ok_of ?_ (by assumption))
    | with_reducible apply State.badFree_ok | with_reducible apply State.complete_ok | with_reducible apply State.dropZoneTimer_ok
    | with_reducible apply State.setFld_ok | with_reducible apply State.startZone_ok | with_reducible apply State.stopZone_ok
    | with_reducible apply State.timerConflict_ok | extract_lets | split | (dsimp only; with_reducible assumption) | intro _
    | rw [State.mk_upd] | dsimp +zetaDelta only

theorem State.updPort_ok {pend : List Instr} (s : State) (p : Nat) (f : PtpPort → PtpPort) (ok_s : s.Ok pend) :
    (State.updPort s p f).Ok pend := by
  unfold State.updPort
  repeat' first
    | with_reducible assumption | with_reducible refine State.ok_upd ?_ | extract_lets | split
    | (dsimp only; with_reducible assumption) | intro _ | rw [State.mk_upd] | dsimp +zetaDelta only

theorem State.checkSlave_ok {pend : List Instr} (s : State) (ok_s : s.Ok pend) :
    (State.checkSlave s).Ok pend := by
  unfold State.checkSlave
  repeat' first
    | with_reducible assumption | with_reducible refine State.ok_upd ?_ | with_reducible apply State.setFlag_ok | extract_lets
    | split | (dsimp only; with_reducible assumption) | intro _ | rw [State.mk_upd] | dsimp +zetaDelta only

theorem State.portTurns_ok {pend : List Instr} (s : State) (p : Nat) (was : Bool) (ok_s : s.Ok pend) :
    (State.portTurns s p was).Ok pend := by
  unfold State.portTurns
  repeat' first
    | with_reducible assumption | with_reducible refine State.ok_upd ?_ | with_reducible apply State.checkSlave_ok
    | with_reducible apply State.updPort_ok | extract_lets | split | (dsimp only; with_reducible assumption) | intro _
    | rw [State.mk_upd] | dsimp +zetaDelta only

theorem State.takePcfg_ok {pend : List Instr} (s : State) (p : Nat) (was : Bool) (ok_s : s.Ok pend) :
    (State.takePcfg s p was).Ok pend := by
  unfold State.takePcfg
  repeat' first
    | with_reducible assumption | with_reducible refine State.ok_upd ?_ | with_reducible apply State.updPort_ok | extract_lets
    | split | (dsimp only; with_reducible assumption) | intro _ | rw [State.mk_upd] | dsimp +zetaDelta only

theorem State.servoRate_ok {pend : List Instr} (s : State) (off : Int) (big : Bool) (ok_s : s.Ok pend) :
    (State.servoRate s off big).Ok pend := by
  unfold State.servoRate
  repeat' first
    | with_reducible assumption | with_reducible refine State.ok_upd ?_ | with_reducible apply State.setRate_ok
    | with_reducible apply State.timTouched_ok | with_reducible apply State.tookFree_ok | extract_lets | split
    | (dsimp only; with_reducible assumption) | intro _ | rw [State.mk_upd] | dsimp +zetaDelta only

theorem State.servo_ok {pend : List Instr} (s : State) (p : Nat) (off : Int) (ok_s : s.Ok pend) :
    (State.servo s p off).Ok pend := by
  unfold State.servo
  repeat' first
    | with_reducible assumption | with_reducible refine State.ok_upd ?_ | with_reducible apply State.moveStep_ok
    | with_reducible apply State.raise_ok | with_reducible apply State.servoRate_ok | with_reducible apply State.setFlag_ok
    | with_reducible apply State.updPort_ok | extract_lets | split | (dsimp only; with_reducible assumption) | intro _
    | rw [State.mk_upd] | dsimp +zetaDelta only

theorem State.decidePorts_ok {pend : List Instr} (s : State) (ok_s : s.Ok pend) :
    (State.decidePorts s).Ok pend := by
  unfold State.decidePorts
  repeat' first
    | with_reducible assumption | with_reducible refine State.ok_upd ?_ | with_reducible apply State.checkSlave_ok
    | with_reducible apply State.updPort_ok | with_reducible apply State.ok_foldl | extract_lets | split
    | (dsimp only; with_reducible assumption) | intro _ | rw [State.mk_upd] | dsimp +zetaDelta only

theorem State.synced_ok {pend : List Instr} (s : State) (p : Nat) (off : Int) (ok_s : s.Ok pend) :
    (State.synced s p off).Ok pend := by
  unfold State.synced
  repeat' first
    | with_reducible assumption | with_reducible refine State.ok_upd ?_ | with_reducible apply State.servo_ok
    | with_reducible apply State.updPort_ok | extract_lets | split | (dsimp only; with_reducible assumption) | intro _
    | rw [State.mk_upd] | dsimp +zetaDelta only

theorem State.takeUtc_ok {pend : List Instr} (s : State) (p : Nat) (ok_s : s.Ok pend) :
    (State.takeUtc s p).Ok pend := by
  unfold State.takeUtc
  repeat' first
    | with_reducible assumption | with_reducible refine State.ok_upd ?_ | extract_lets | split
    | (dsimp only; with_reducible assumption) | intro _ | rw [State.mk_upd] | dsimp +zetaDelta only

theorem State.ptpReceive_ok {pend : List Instr} (s : State) (p : Nat) (rx : Int) (msg : PtpMsg) (ok_s : s.Ok pend) :
    (State.ptpReceive s p rx msg).Ok pend := by
  unfold State.ptpReceive
  repeat' first
    | with_reducible assumption | with_reducible refine State.ok_upd ?_ | with_reducible apply State.decidePorts_ok
    | with_reducible apply State.synced_ok | with_reducible apply State.takeUtc_ok | with_reducible apply State.updPort_ok
    | extract_lets | split | (dsimp only; with_reducible assumption) | intro _ | rw [State.mk_upd] | dsimp +zetaDelta only

theorem State.ptpOut_ok {pend : List Instr} (s : State) (p : Nat) (k : PtpKind) (origin : Int) (corr : Int) (ok_s : s.Ok pend) :
    (State.ptpOut s p k origin corr).Ok pend := by
  unfold State.ptpOut
  repeat' first
    | with_reducible assumption | with_reducible refine State.ok_upd ?_ | with_reducible apply State.emit_ok | extract_lets | split
    | (dsimp only; with_reducible assumption) | intro _ | rw [State.mk_upd] | dsimp +zetaDelta only

theorem State.ptpSend_ok {pend : List Instr} (s : State) (p : Nat) (tx : Int) (k : PtpKind) (ok_s : s.Ok pend) :
    (State.ptpSend s p tx k).Ok pend := by
  unfold State.ptpSend
  repeat' first
    | with_reducible assumption | with_reducible refine State.ok_upd ?_ | with_reducible apply State.ptpOut_ok
    | with_reducible apply State.updPort_ok | extract_lets | split | (dsimp only; with_reducible assumption) | intro _
    | rw [State.mk_upd] | dsimp +zetaDelta only

theorem State.forwardHb_ok {pend : List Instr} (s : State) (port : Nat) (srcMac : Nat) (frame : List Byte) (ok_s : s.Ok pend) :
    (State.forwardHb s port srcMac frame).Ok pend := by
  unfold State.forwardHb
  repeat' first
    | with_reducible assumption | with_reducible refine State.ok_upd ?_ | with_reducible apply State.emit_ok | extract_lets | split
    | (dsimp only; with_reducible assumption) | intro _ | rw [State.mk_upd] | dsimp +zetaDelta only

theorem State.useHb_ok {pend : List Instr} (s : State) (frame : List Byte) (ok_s : s.Ok pend) :
    (State.useHb s frame).Ok pend := by
  unfold State.useHb
  repeat' first
    | with_reducible assumption | with_reducible refine State.ok_upd ?_ | with_reducible apply State.enterHold_ok | extract_lets
    | split | (dsimp only; with_reducible assumption) | intro _ | rw [State.mk_upd] | dsimp +zetaDelta only

theorem State.losePeer_ok {pend : List Instr} (s : State) (i : Nat) (ok_s : s.Ok pend) :
    (State.losePeer s i).Ok pend := by
  unfold State.losePeer
  repeat' first
    | with_reducible assumption | with_reducible refine State.ok_upd ?_ | extract_lets | split
    | (dsimp only; with_reducible assumption) | intro _ | rw [State.mk_upd] | dsimp +zetaDelta only

end Sys2Proof.Machine
end

