-- ==== Sys2Proof/Laws/KeepLoad.lean ====
section
/-! SUPPORT. The operations keep the predicate State.Ok, one lemma each: the configuration load, fault opcodes, resets, the FX opcodes and register writes. -/

set_option Elab.async false
set_option linter.all false

namespace Sys2Proof.Machine

theorem State.loadWr_ok {pend : List Instr} (s : State) (off : Nat) (v : Nat) (ok_s : s.Ok pend) :
    (State.loadWr s off v).Ok pend := by
  unfold State.loadWr
  repeat' first
    | with_reducible assumption | with_reducible refine State.ok_upd ?_ | with_reducible apply State.writeByType_ok | extract_lets
    | split | (dsimp only; with_reducible assumption) | intro _ | rw [State.mk_upd] | dsimp +zetaDelta only

theorem State.writeRails_ok {pend : List Instr} (s : State) (b : List Byte) (ok_s : s.Ok pend) :
    (State.writeRails s b).Ok pend := by
  unfold State.writeRails
  repeat' first
    | with_reducible assumption | with_reducible refine State.ok_upd ?_ | with_reducible apply State.loadWr_ok
    | with_reducible apply State.ok_foldl | extract_lets | split | (dsimp only; with_reducible assumption) | intro _
    | rw [State.mk_upd] | dsimp +zetaDelta only

theorem State.applyPlls_ok {pend : List Instr} (s : State) (ok_s : s.Ok pend) :
    (State.applyPlls s).Ok pend := by
  unfold State.applyPlls
  repeat' first
    | with_reducible assumption | with_reducible refine State.ok_upd ?_ | with_reducible apply State.loadWr_ok
    | with_reducible apply State.ok_foldl | extract_lets | split | (dsimp only; with_reducible assumption) | intro _
    | rw [State.mk_upd] | dsimp +zetaDelta only

theorem State.planEntry_ok {pend : List Instr} (s : State) (off : Nat) (v : Nat) (ok_s : s.Ok pend) :
    (State.planEntry s off v).Ok pend := by
  unfold State.planEntry
  repeat' first
    | with_reducible assumption | with_reducible refine State.ok_upd ?_ | with_reducible apply State.clkOutSet_ok
    | with_reducible apply State.loadWr_ok | extract_lets | split | (dsimp only; with_reducible assumption) | intro _
    | rw [State.mk_upd] | dsimp +zetaDelta only

theorem State.pinnedClaims_ok {pend : List Instr} (s : State) (ok_s : s.Ok pend) :
    (State.pinnedClaims s).Ok pend := by
  unfold State.pinnedClaims
  repeat' first
    | with_reducible assumption | with_reducible refine State.ok_upd ?_ | with_reducible apply State.grant_ok | extract_lets | split
    | (dsimp only; with_reducible assumption) | intro _ | rw [State.mk_upd] | dsimp +zetaDelta only

theorem State.showImage_ok {pend : List Instr} (s : State) (img : List Byte) (digest : List Byte) (slotB : Bool) (fallback : Bool) (ok_s : s.Ok pend) :
    (State.showImage s img digest slotB fallback).Ok pend := by
  unfold State.showImage
  repeat' first
    | with_reducible assumption | with_reducible refine State.ok_upd ?_ | with_reducible apply State.wr_ok
    | with_reducible apply State.ok_foldl | extract_lets | split | (dsimp only; with_reducible assumption) | intro _
    | rw [State.mk_upd] | dsimp +zetaDelta only

/-- A part of the load keeps the predicate. -/
def Loader.Keeps (pend : List Instr) (f : Loader) : Prop := ∀ s t, s.Ok pend → f s = .ok t → t.Ok pend

/-- The entries of a section, one after the other. -/
theorem loadEntries_ok {pend : List Instr} (type : Nat) (f : Nat → State → Option State) (hf : ∀ i s t, s.Ok pend → f i s = some t → t.Ok pend)
    (l : List Nat) : Loader.Keeps pend (loadEntries type f l) := by
  induction l with
  | nil => intro s t hs e; cases e; exact hs
  | cons i l ih =>
    intro s t hs e
    unfold loadEntries at e
    split at e
    · rename_i u hu
      exact ih u t (hf i s u hs hu) e
    · cases e

/-- The parts of the load, one after the other. -/
theorem loadAll_ok {pend : List Instr} (l : List Loader) (hl : ∀ f ∈ l, Loader.Keeps pend f) : Loader.Keeps pend (loadAll l) := by
  induction l with
  | nil => intro s t hs e; cases e; exact hs
  | cons f l ih =>
    intro s t hs e
    unfold loadAll at e
    split at e
    · rename_i u hu
      exact ih (fun g hg => hl g (List.mem_cons_of_mem _ hg)) u t (hl f List.mem_cons_self s u hs hu) e
    · cases e

/-- An optional section. -/
theorem optionalSection_ok {pend : List Instr} (img : List Byte) (type : Nat) (f : List Byte → Loader) (hf : ∀ b, Loader.Keeps pend (f b)) :
    Loader.Keeps pend (optionalSection img type f) := by
  intro s t hs e
  unfold optionalSection at e
  split at e
  · exact hf _ s t hs e
  · cases e; exact hs

/-- A required section. -/
theorem requiredSection_ok {pend : List Instr} (img : List Byte) (type : Nat) (f : List Byte → Loader) (hf : ∀ b, Loader.Keeps pend (f b)) :
    Loader.Keeps pend (requiredSection img type f) := by
  intro s t hs e
  unfold requiredSection at e
  split at e
  · exact hf _ s t hs e
  · cases e

/-- The PCIe section. -/
theorem loadPcie_ok {pend : List Instr} (b : List Byte) : Loader.Keeps pend (loadPcie b) := by
  intro s t hs e
  unfold loadPcie at e
  split at e
  · cases e
  · cases e
    refine State.ok_foldl hs fun t p ht => ?_
    split
    · split
      · exact State.setFld_ok _ _ _ _ _ ht
      · exact ht
    · exact ht

/-- The pad section. -/
theorem loadPads_ok {pend : List Instr} (b : List Byte) : Loader.Keeps pend (loadPads b) := by
  intro s t hs e
  unfold loadPads at e
  split at e
  · cases e
  · refine loadEntries_ok _ _ ?_ _ s t hs e
    intro i s t hs e
    split at e
    · split at e
      · cases e; exact State.loadWr_ok _ _ _ hs
      · cases e
    · cases e; exact hs

/-- The clock plan section. -/
theorem loadPlan_ok {pend : List Instr} (b : List Byte) : Loader.Keeps pend (loadPlan b) := by
  intro s t hs e
  unfold loadPlan at e
  split at e
  · cases e
  · extract_lets l at e
    cases e
    refine State.ok_foldl ?_ fun t e ht => State.planEntry_ok _ _ _ ht
    rw [State.mk_upd]
    exact State.ok_upd hs

/-- The rail table section. -/
theorem loadRails_ok {pend : List Instr} (img b : List Byte) : Loader.Keeps pend (loadRails img b) := by
  intro s t hs e
  unfold loadRails at e
  split at e
  · cases e
  · cases e
    refine State.writeRails_ok _ _ ?_
    rw [State.mk_upd]
    exact State.ok_upd hs

/-- The training table section. -/
theorem loadTrain_ok {pend : List Instr} (b : List Byte) : Loader.Keeps pend (loadTrain b) := by
  intro s t hs e
  unfold loadTrain at e
  split at e
  · cases e
  · extract_lets g size cfg u at e
    cases e
    refine State.ok_foldl (State.setFld_ok _ _ _ _ _ (State.wr_ok _ _ _ ?_)) fun t c ht => State.setFld_ok _ _ _ _ _ ht
    rw [State.mk_upd]
    exact State.ok_upd hs

/-- The mailbox binding section. -/
theorem loadBind_ok {pend : List Instr} (b : List Byte) : Loader.Keeps pend (loadBind b) := by
  intro s t hs e
  unfold loadBind at e
  split at e
  · cases e
  · split at e
    · cases e
    · cases e
      exact State.setMbxLock_ok _ (State.ok_foldl hs fun t i ht => State.loadWr_ok _ _ _ ht)

/-- The severity section. -/
theorem loadSevs_ok {pend : List Instr} (b : List Byte) : Loader.Keeps pend (loadSevs b) := by
  intro s t hs e
  unfold loadSevs at e
  split at e
  · cases e
  · refine loadEntries_ok _ _ ?_ _ s t hs e
    intro i s t hs e
    dsimp only at e
    split at e
    · cases e; exact State.setSev_ok _ _ _ hs
    · cases e

/-- The time section. -/
theorem loadTime_ok {pend : List Instr} (b : List Byte) : Loader.Keeps pend (loadTime b) := by
  intro s t hs e
  unfold loadTime at e
  split at e
  · cases e
  · refine loadEntries_ok _ _ ?_ _ _ t ?_ e
    · intro i s t hs e
      dsimp only at e
      split at e
      · cases e; exact State.takePcfg_ok _ _ _ (State.takePcfg_ok _ _ _ (State.loadWr_ok _ _ _ hs))
      · cases e
    · rw [State.mk_upd]
      exact State.ok_upd hs

/-- The roster section. -/
theorem loadRoster_ok {pend : List Instr} (b : List Byte) : Loader.Keeps pend (loadRoster b) := by
  intro s t hs e
  unfold loadRoster at e
  split at e
  · cases e
  · cases e
    rw [State.mk_upd]
    exact State.ok_upd hs

/-- The firmware section. -/
theorem loadFirmware_ok {pend : List Instr} (b : List Byte) : Loader.Keeps pend (loadFirmware b) := by
  intro s t hs e
  unfold loadFirmware at e
  split at e
  · cases e; exact hs
  · cases e

/-- The DMA masters. -/
theorem loadDmaMasters_ok {pend : List Instr} (img : List Byte) : Loader.Keeps pend (loadDmaMasters img) := by
  intro s t hs e
  unfold loadDmaMasters at e
  cases e
  exact State.ok_foldl hs fun t i ht => State.setFld_ok _ _ _ _ _ ht

/-- The claims section. -/
theorem loadClaims_ok {pend : List Instr} (b : List Byte) : Loader.Keeps pend (loadClaims b) := by
  intro s t hs e
  unfold loadClaims at e
  split at e
  · cases e
  · refine loadEntries_ok _ _ ?_ _ s t hs e
    intro i s t hs e
    split at e
    · split at e
      · cases e; exact State.grant_ok _ _ _ _ hs
      · cases e
    · cases e; exact hs

/-- The heater section. -/
theorem loadHeaters_ok {pend : List Instr} (b : List Byte) : Loader.Keeps pend (loadHeaters b) := by
  intro s t hs e
  unfold loadHeaters at e
  split at e
  · cases e
  · refine loadEntries_ok _ _ ?_ _ s t hs e
    intro i s t hs e
    extract_lets e0 z w t1 t2 t3 at e
    split at e
    · cases e
    · have h1 : t1.Ok pend := State.ok_foldl hs fun t k ht => State.loadWr_ok _ _ _ ht
      have h2 : t2.Ok pend := State.ok_foldl h1 fun t k ht => State.loadWr_ok _ _ _ ht
      have h3 : t3.Ok pend := by
        simp only [t3]
        split
        · exact State.startZone_ok _ _ (State.setFlag_ok _ _ _ _ h2)
        · exact h2
      split at e
      · exact State.takeZoneTimer_ok_of h3 e
      · rw [Option.some.injEq] at e
        rw [← e]
        exact h3

/-- The motion section. -/
theorem loadAxes_ok {pend : List Instr} (b : List Byte) : Loader.Keeps pend (loadAxes b) := by
  intro s t hs e
  unfold loadAxes at e
  split at e
  · cases e
  · refine loadEntries_ok _ _ ?_ _ s t hs e
    intro i s t hs e
    dsimp only at e
    split at e
    · cases e
    · exact State.axisConfig_ok_of hs e

/-- The whole load. -/
theorem State.loadImage_ok {pend : List Instr} (s : State) (img : List Byte) (ok_s : s.Ok pend) (t : State) (e : s.loadImage img = .ok t) :
    t.Ok pend := by
  unfold State.loadImage at e
  split at e
  · cases e
  · refine loadAll_ok _ ?_ _ t (State.pinnedClaims_ok _ ok_s) e
    intro f hf
    simp only [imageLoaders, List.mem_cons, List.not_mem_nil, or_false] at hf
    rcases hf with rfl | rfl | rfl | rfl | rfl | rfl | rfl | rfl | rfl | rfl | rfl | rfl | rfl | rfl
    · exact requiredSection_ok _ _ _ loadPcie_ok
    · exact requiredSection_ok _ _ _ loadPads_ok
    · exact requiredSection_ok _ _ _ loadPlan_ok
    · exact requiredSection_ok _ _ _ (loadRails_ok img)
    · exact requiredSection_ok _ _ _ loadTrain_ok
    · exact requiredSection_ok _ _ _ loadBind_ok
    · exact optionalSection_ok _ _ _ loadSevs_ok
    · exact requiredSection_ok _ _ _ loadTime_ok
    · exact requiredSection_ok _ _ _ loadRoster_ok
    · exact requiredSection_ok _ _ _ loadFirmware_ok
    · exact loadDmaMasters_ok img
    · exact requiredSection_ok _ _ _ loadClaims_ok
    · exact optionalSection_ok _ _ _ loadHeaters_ok
    · exact optionalSection_ok _ _ _ loadAxes_ok

theorem State.statusReply_ok {pend : List Instr} (s : State) (pk : Packet) (ok_s : s.Ok pend) :
    (State.statusReply s pk).Ok pend := by
  unfold State.statusReply
  repeat' first
    | with_reducible assumption | with_reducible refine State.ok_upd ?_ | with_reducible apply State.complete_ok | extract_lets
    | split | (dsimp only; with_reducible assumption) | intro _ | rw [State.mk_upd] | dsimp +zetaDelta only

theorem State.endArms_ok {pend : List Instr} (s : State) (x : Stripe) (ok_s : s.Ok pend) :
    (State.endArms s x).Ok pend := by
  unfold State.endArms
  repeat' first
    | with_reducible assumption | with_reducible refine State.ok_upd ?_ | with_reducible apply State.complete_ok
    | with_reducible apply State.ok_foldl | extract_lets | split | (dsimp only; with_reducible assumption) | intro _
    | rw [State.mk_upd] | dsimp +zetaDelta only

theorem State.raiseWire_ok {pend : List Instr} (s : State) (src : Nat) (ok_s : s.Ok pend) :
    (State.raiseWire s src).Ok pend := by
  unfold State.raiseWire
  repeat' first
    | with_reducible assumption | with_reducible refine State.ok_upd ?_ | with_reducible apply State.raiseFull_ok | extract_lets
    | split | (dsimp only; with_reducible assumption) | intro _ | rw [State.mk_upd] | dsimp +zetaDelta only

theorem State.raiseBy_ok {pend : List Instr} (s : State) (x : Nat × Bool) (ok_s : s.Ok pend) :
    (State.raiseBy s x).Ok pend := by
  unfold State.raiseBy
  repeat' first
    | with_reducible assumption | with_reducible refine State.ok_upd ?_ | with_reducible apply State.raiseInput_ok
    | with_reducible apply State.raiseWire_ok | extract_lets | split | (dsimp only; with_reducible assumption) | intro _
    | rw [State.mk_upd] | dsimp +zetaDelta only

theorem State.raiseInTurn_ok {pend : List Instr} (s : State) (x : Nat × Bool) (ok_s : s.Ok pend) :
    (State.raiseInTurn s x).Ok pend := by
  unfold State.raiseInTurn
  repeat' first
    | with_reducible assumption | with_reducible refine State.ok_upd ?_ | (refine State.tie_ok_of ?_ (by assumption))
    | with_reducible apply State.tie_ok | with_reducible apply State.onOneClock_ok | with_reducible apply State.raiseBy_ok
    | with_reducible apply State.ok_foldl | extract_lets | split | (dsimp only; with_reducible assumption) | intro _
    | rw [State.mk_upd] | dsimp +zetaDelta only

theorem State.cancel_ok {pend : List Instr} (s : State) (h : Nat) (ok_s : s.Ok pend) :
    (State.cancel s h).1.Ok pend := by
  unfold State.cancel
  repeat' first
    | with_reducible assumption | with_reducible refine State.ok_upd ?_ | with_reducible apply State.blankRest_ok
    | with_reducible apply State.boundary_ok | with_reducible apply State.commitReady_ok | with_reducible apply State.dropStripe_ok
    | with_reducible apply State.emptyFoot_ok | with_reducible apply State.endArms_ok | extract_lets | split
    | (dsimp only; with_reducible assumption) | intro _ | rw [State.mk_upd] | dsimp +zetaDelta only

theorem State.cancel_ok_of {pend : List Instr} {s : State} {h : Nat} (ok_s : s.Ok pend) {t : State} {r} (e : State.cancel s h = (t, r)) :
    t.Ok pend := by
  have h := State.cancel_ok s h ok_s
  rw [e] at h
  exact h

theorem State.faultAck_ok {pend : List Instr} (s : State) (pk : Packet) (ok_s : s.Ok pend) :
    (State.faultAck s pk).Ok pend := by
  unfold State.faultAck
  repeat' first
    | with_reducible assumption | with_reducible refine State.ok_upd ?_ | with_reducible apply State.complete_ok | extract_lets
    | split | (dsimp only; with_reducible assumption) | intro _ | rw [State.mk_upd] | dsimp +zetaDelta only

theorem State.faultRead_ok {pend : List Instr} (s : State) (pk : Packet) (ok_s : s.Ok pend) :
    (State.faultRead s pk).Ok pend := by
  unfold State.faultRead
  repeat' first
    | with_reducible assumption | with_reducible refine State.ok_upd ?_ | with_reducible apply State.replyRecords_ok | extract_lets
    | split | (dsimp only; with_reducible assumption) | intro _ | rw [State.mk_upd] | dsimp +zetaDelta only

theorem State.endInjection_ok {pend : List Instr} (s : State) (src : Nat) (ok_s : s.Ok pend) :
    (State.endInjection s src).Ok pend := by
  unfold State.endInjection
  repeat' first
    | with_reducible assumption | with_reducible refine State.ok_upd ?_ | with_reducible apply State.injEnd_ok
    | with_reducible apply State.wireEnd_ok | extract_lets | split | (dsimp only; with_reducible assumption) | intro _
    | rw [State.mk_upd] | dsimp +zetaDelta only

theorem State.injectStart_ok {pend : List Instr} (s : State) (src : Nat) (v : Nat) (us : Nat) (ok_s : s.Ok pend) :
    (State.injectStart s src v us).Ok pend := by
  unfold State.injectStart
  repeat' first
    | with_reducible assumption | with_reducible refine State.ok_upd ?_ | with_reducible apply State.endInjection_ok
    | with_reducible apply State.injCheck_ok | with_reducible apply State.tookFree_ok | extract_lets | split
    | (dsimp only; with_reducible assumption) | intro _ | rw [State.mk_upd] | dsimp +zetaDelta only

theorem State.startWake_ok {pend : List Instr} (s : State) (ok_s : s.Ok pend) :
    (State.startWake s).Ok pend := by
  unfold State.startWake
  repeat' first
    | with_reducible assumption | with_reducible refine State.ok_upd ?_ | with_reducible refine State.ok_updAll ?_
    | with_reducible apply State.applyPlls_ok | with_reducible apply State.mainEpochs_ok | with_reducible apply State.setFlag_ok
    | with_reducible apply State.setFld_ok | with_reducible apply State.setPhase_ok | with_reducible apply State.setRailState_ok
    | with_reducible apply State.startClocks_ok | with_reducible apply State.updRail_ok | with_reducible apply State.ok_foldl
    | extract_lets | split | (dsimp only; with_reducible assumption) | intro _ | rw [State.mk_upd] | rw [State.mk_updAll]
    | dsimp +zetaDelta only

theorem State.wakeNow_ok {pend : List Instr} (s : State) (ok_s : s.Ok pend) :
    (State.wakeNow s).Ok pend := by
  unfold State.wakeNow
  repeat' first
    | with_reducible assumption | with_reducible refine State.ok_upd ?_ | with_reducible apply State.startWake_ok | extract_lets
    | split | (dsimp only; with_reducible assumption) | intro _ | rw [State.mk_upd] | dsimp +zetaDelta only

theorem State.aonFresh_ok {pend : List Instr} (s : State) (aon : Bool) (ok_s : s.Ok pend) : (s.aonFresh aon).Ok pend := by
  have hi := (State.inv_iff s).1 ok_s.2
  exact ⟨ok_s.1, (State.inv_iff _).2 ⟨rfl, rfl, rfl, hi.2.2.2.1, rfl, Nat.zero_le _, Nat.zero_le _, Nat.zero_le _, Nat.zero_le _⟩⟩

theorem State.coldFresh_ok {pend : List Instr} (s : State) (ok_s : s.Ok pend) : (s.coldFresh).Ok pend := by
  unfold State.coldFresh
  extract_lets t0 _ _ _ _ _ t1 t2 t3
  have h0 : t0.Ok pend := State.aonFresh_ok _ _ ok_s
  clear_value t0
  have h1 : t1.Ok pend := by
    simp only [t1]
    rw [State.mk_upd]
    exact State.ok_updTab h0 rfl ok_s.log h0.jobs h0.stripes h0.holes
  clear_value t1
  have h3 : t3.Ok pend := State.ok_foldl (State.wr_ok _ _ _ (State.wr_ok _ _ _ h1)) fun u c hu => State.wr_ok _ _ _ hu
  exact State.setFlag_ok _ _ _ _ (State.setFld_ok _ _ _ _ _ h3)

theorem State.readFlash_ok {pend : List Instr} (s : State) (fl : Flash) (ok_s : s.Ok pend) : (s.readFlash fl).Ok pend := by
  unfold State.readFlash
  extract_lets _ s0
  have h0 : s0.Ok pend := by
    refine State.pullSeq_ok _ ?_
    rw [State.mk_upd]
    exact State.ok_upd ok_s
  clear_value s0
  split
  · exact State.raise_ok _ _ h0
  · extract_lets rt plan
    rename_i s1 s2 s3
    have h1 : s1.Ok pend := by
      simp only [s1]
      rw [State.mk_upd]
      exact State.ok_upd h0
    clear_value s1 rt
    have h2 : s2.Ok pend := by
      simp only [s2]
      split
      · exact State.writeRails_ok _ _ h1
      · exact h1
    clear_value s2
    have h3 : s3.Ok pend := by
      simp only [s3]
      split
      · exact State.raise_ok _ _ h2
      · exact h2
    clear_value s3
    split
    · exact State.wakeNow_ok _ h3
    · exact h3

theorem State.carrySource_ok {pend : List Instr} (s : State) (l : List FaultRec) (ok_s : s.Ok pend) :
    (State.carrySource s l).2.Ok pend := by
  unfold State.carrySource
  repeat' first
    | with_reducible assumption | with_reducible refine State.ok_upd ?_ | with_reducible apply State.tookFree_ok | extract_lets
    | split | (dsimp only; with_reducible assumption) | intro _ | rw [State.mk_upd] | dsimp +zetaDelta only

theorem State.carrySource_ok_of {pend : List Instr} {s : State} {l : List FaultRec} (ok_s : s.Ok pend) {r} {t : State} (e : State.carrySource s l = (r, t)) :
    t.Ok pend := by
  have h := State.carrySource_ok s l ok_s
  rw [e] at h
  exact h

theorem State.serviceAfterLoad_ok {pend : List Instr} (s : State) (ok_s : s.Ok pend) :
    (State.serviceAfterLoad s).Ok pend := by
  unfold State.serviceAfterLoad
  repeat' first
    | with_reducible assumption | with_reducible refine State.ok_upd ?_ | (refine State.carrySource_ok_of ?_ (by assumption))
    | with_reducible apply State.carrySource_ok | with_reducible apply State.enterHold_ok
    | with_reducible apply State.enterService_ok | extract_lets | split | (dsimp only; with_reducible assumption) | intro _
    | rw [State.mk_upd] | dsimp +zetaDelta only

theorem State.applyImage_ok {pend : List Instr} (s : State) (img digest : List Byte) (slotB : Bool) (ok_s : s.Ok pend) :
    (s.applyImage img digest slotB).Ok pend := by
  unfold State.applyImage
  extract_lets lock s'
  have ok_s' : s'.Ok pend := State.setFld_ok _ _ _ _ _ ok_s
  clear_value s'
  have hl : ∀ t : State, t.Ok pend → (lock t).Ok pend := fun t ht => State.wr_ok _ _ _ ht
  split
  · rename_i t e
    exact State.serviceAfterLoad_ok _ (hl _ (State.loadImage_ok _ _ (State.showImage_ok _ _ _ _ _ ok_s') t e))
  · rename_i type e he
    have h0 := hl _ (State.pinnedClaims_ok _ (State.showImage_ok s' img digest slotB true ok_s'))
    refine State.serviceAfterLoad_ok _ (State.raiseWith_ok _ _ _ ?_)
    cases e with
    | some i => exact h0
    | none => exact State.tookFree_ok _ h0

theorem State.runWarmReset_ok {pend : List Instr} (s : State) (ok_s : s.Ok pend) :
    (State.runWarmReset s).Ok pend := by
  unfold State.runWarmReset
  repeat' first
    | with_reducible assumption | with_reducible refine State.ok_upd ?_ | with_reducible apply State.bumpEpoch_ok
    | with_reducible apply State.mainDown_ok | with_reducible apply State.mainEpochs_ok | with_reducible apply State.pullSeq_ok
    | with_reducible apply State.setFld_ok | extract_lets | split | (dsimp only; with_reducible assumption) | intro _
    | rw [State.mk_upd] | dsimp +zetaDelta only

theorem State.warmResetCheck_ok {pend : List Instr} (s : State) (ok_s : s.Ok pend) :
    (State.warmResetCheck s).Ok pend := by
  unfold State.warmResetCheck
  repeat' first
    | with_reducible assumption | with_reducible refine State.ok_upd ?_ | with_reducible apply State.runWarmReset_ok | extract_lets
    | split | (dsimp only; with_reducible assumption) | intro _ | rw [State.mk_upd] | dsimp +zetaDelta only

theorem State.warmReset_ok {pend : List Instr} (s : State) (ok_s : s.Ok pend) :
    (State.warmReset s).Ok pend := by
  unfold State.warmReset
  repeat' first
    | with_reducible assumption | with_reducible refine State.ok_upd ?_ | with_reducible apply State.enterHold_ok
    | with_reducible apply State.runWarmReset_ok | with_reducible apply State.tookFree_ok
    | with_reducible apply State.warmResetCheck_ok | extract_lets | split | (dsimp only; with_reducible assumption) | intro _
    | rw [State.mk_upd] | dsimp +zetaDelta only

theorem State.coldReset_ok {pend : List Instr} (s : State) (ok_s : s.Ok pend) :
    (State.coldReset s).Ok pend := by
  unfold State.coldReset
  repeat' first
    | with_reducible assumption | with_reducible refine State.ok_upd ?_ | extract_lets | split
    | (dsimp only; with_reducible assumption) | intro _ | rw [State.mk_upd] | dsimp +zetaDelta only

theorem State.glbReset_ok {pend : List Instr} (s : State) (m : Master) (key : Nat) (kind : Nat) (ok_s : s.Ok pend) :
    (State.glbReset s m key kind).Ok pend := by
  unfold State.glbReset
  repeat' first
    | with_reducible assumption | with_reducible refine State.ok_upd ?_ | with_reducible apply State.access_ok
    | with_reducible apply State.coldReset_ok | with_reducible apply State.warmReset_ok | extract_lets | split
    | (dsimp only; with_reducible assumption) | intro _ | rw [State.mk_upd] | dsimp +zetaDelta only

theorem State.passPins_ok {pend : List Instr} (s : State) (had : Bool) (ok_s : s.Ok pend) :
    (State.passPins s had).Ok pend := by
  unfold State.passPins
  repeat' first
    | with_reducible assumption | with_reducible refine State.ok_upd ?_ | with_reducible apply State.emit_ok | extract_lets | split
    | (dsimp only; with_reducible assumption) | intro _ | rw [State.mk_upd] | dsimp +zetaDelta only

theorem State.tapLoad_ok {pend : List Instr} (s : State) (code : Byte) (ok_s : s.Ok pend) :
    (State.tapLoad s code).Ok pend := by
  unfold State.tapLoad
  repeat' first
    | with_reducible assumption | with_reducible refine State.ok_upd ?_ | with_reducible apply State.bumpEpoch_ok
    | with_reducible apply State.passPins_ok | with_reducible apply State.raiseWith_ok | with_reducible apply State.tookFree_ok
    | extract_lets | split | (dsimp only; with_reducible assumption) | intro _ | rw [State.mk_upd] | dsimp +zetaDelta only

theorem State.freeBits_ok {pend : List Instr} (s : State) (n : Nat) (ok_s : s.Ok pend) : (s.freeBits n).2.Ok pend := by
  induction n generalizing s with
  | zero => exact ok_s
  | succ n ih => exact ih _ (State.tookFree_ok _ ok_s)

theorem State.freeBits_ok_of {pend : List Instr} {s : State} {n : Nat} (ok_s : s.Ok pend) {r} {t : State} (e : s.freeBits n = (r, t)) :
    t.Ok pend := by
  have h := State.freeBits_ok s n ok_s
  rw [e] at h
  exact h

theorem State.tapCapture_ok {pend : List Instr} (s : State) (ok_s : s.Ok pend) :
    (State.tapCapture s).2.Ok pend := by
  unfold State.tapCapture
  repeat' first
    | with_reducible assumption | with_reducible refine State.ok_upd ?_ | (refine State.freeBits_ok_of ?_ (by assumption))
    | with_reducible apply State.freeBits_ok | extract_lets | split | (dsimp only; with_reducible assumption) | intro _
    | rw [State.mk_upd] | dsimp +zetaDelta only

theorem State.tapCapture_ok_of {pend : List Instr} {s : State} (ok_s : s.Ok pend) {r} {t : State} (e : State.tapCapture s = (r, t)) :
    t.Ok pend := by
  have h := State.tapCapture_ok s ok_s
  rw [e] at h
  exact h

theorem State.tapScan_ok {pend : List Instr} (s : State) (tdi : List Bool) (ok_s : s.Ok pend) :
    (State.tapScan s tdi).Ok pend := by
  unfold State.tapScan
  repeat' first
    | with_reducible assumption | with_reducible refine State.ok_upd ?_ | (refine State.tapCapture_ok_of ?_ (by assumption))
    | with_reducible apply State.tapCapture_ok | with_reducible apply State.emit_ok | extract_lets | split
    | (dsimp only; with_reducible assumption) | intro _ | rw [State.mk_upd] | dsimp +zetaDelta only

theorem execPadTjPeakClr_ok {pend : List Instr} (m : Master) (v : Word) (s : State) (ok_s : s.Ok pend) :
    Outcome.Keeps pend (execPadTjPeakClr m v s) := by
  unfold execPadTjPeakClr
  repeat' first
    | with_reducible assumption | with_reducible refine State.ok_upd ?_ | with_reducible apply State.regCmd_ok
    | with_reducible apply State.setFld_ok | with_reducible apply Outcome.keeps_next | with_reducible exact Outcome.keeps_fault
    | extract_lets | split | (dsimp only; with_reducible assumption) | intro _ | rw [State.mk_upd] | dsimp +zetaDelta only

theorem execCmdQctlEnWrite_ok {pend : List Instr} (m : Master) (q : Fin 16) (v : Word) (s : State) (ok_s : s.Ok pend) :
    Outcome.Keeps pend (execCmdQctlEnWrite m q v s) := by
  unfold execCmdQctlEnWrite
  repeat' first
    | with_reducible assumption | with_reducible refine State.ok_upd ?_ | with_reducible apply State.queueCmd_ok
    | with_reducible apply State.warmResetCheck_ok | with_reducible apply State.writeQctl_ok
    | with_reducible apply Outcome.keeps_next | with_reducible exact Outcome.keeps_fault | extract_lets | split
    | (dsimp only; with_reducible assumption) | intro _ | rw [State.mk_upd] | dsimp +zetaDelta only

theorem State.fxArm_ok {pend : List Instr} (s : State) (pk : Packet) (h : Nat) (ok_s : s.Ok pend) :
    (State.fxArm s pk h).Ok pend := by
  unfold State.fxArm
  repeat' first
    | with_reducible assumption | with_reducible refine State.ok_upd ?_ | with_reducible apply State.complete_ok | extract_lets
    | split | (dsimp only; with_reducible assumption) | intro _ | rw [State.mk_upd] | dsimp +zetaDelta only

theorem State.fxAdmitted_ok {pend : List Instr} (s : State) (pk : Packet) (h : Nat) (ok_s : s.Ok pend) :
    (State.fxAdmitted s pk h).Ok pend := by
  unfold State.fxAdmitted
  repeat' first
    | with_reducible assumption | with_reducible refine State.ok_upd ?_ | with_reducible apply State.fxArm_ok | extract_lets | split
    | (dsimp only; with_reducible assumption) | intro _ | rw [State.mk_upd] | dsimp +zetaDelta only

theorem State.unwait_ok {pend : List Instr} (s : State) (pk : Packet) (ok_s : s.Ok pend) :
    (State.unwait s pk).Ok pend := by
  unfold State.unwait
  repeat' first
    | with_reducible assumption | with_reducible refine State.ok_upd ?_ | extract_lets | split
    | (dsimp only; with_reducible assumption) | intro _ | rw [State.mk_upd] | dsimp +zetaDelta only

theorem State.waitReady_ok {pend : List Instr} (s : State) (w : Waiting) (ok_s : s.Ok pend) :
    (State.waitReady s w).Ok pend := by
  unfold State.waitReady
  repeat' first
    | with_reducible assumption | with_reducible refine State.ok_upd ?_ | with_reducible apply State.admitReply_ok
    | with_reducible apply State.admitStripe_ok | with_reducible apply State.fxAdmitted_ok | with_reducible apply State.unwait_ok
    | extract_lets | split | (dsimp only; with_reducible assumption) | intro _ | rw [State.mk_upd] | dsimp +zetaDelta only

theorem State.writeSsc_ok {pend : List Instr} (s : State) (load : Bool) (v : Nat) (ok_s : s.Ok pend) :
    (State.writeSsc s load v).Ok pend := by
  unfold State.writeSsc
  repeat' first
    | with_reducible assumption | with_reducible refine State.ok_upd ?_ | with_reducible apply State.startSpread_ok
    | with_reducible apply State.writeByType_ok | extract_lets | split | (dsimp only; with_reducible assumption) | intro _
    | rw [State.mk_upd] | dsimp +zetaDelta only

theorem State.writeThm_ok {pend : List Instr} (s : State) (m : Master) (load : Bool) (z v : Nat) (ok_s : s.Ok pend) :
    (s.writeThm m load z v).Ok pend := by
  unfold State.writeThm
  extract_lets was t u
  have h : t.Ok pend := State.writeByType_ok _ _ _ _ ok_s
  clear_value t
  have hu : u.Ok pend := State.setFlag_ok _ _ _ _ h
  clear_value u
  split
  · exact h
  · split
    · exact State.stopZone_ok _ _ (State.setFlag_ok _ _ _ _ h)
    · split
      · exact State.startZone_ok _ _ (State.takeZoneTimer_ok_of hu (by assumption))
      · exact State.refusedClaim_ok _ _ _ _ hu

theorem State.writePcfg_ok {pend : List Instr} (s : State) (load : Bool) (p : Nat) (v : Nat) (ok_s : s.Ok pend) :
    (State.writePcfg s load p v).Ok pend := by
  unfold State.writePcfg
  repeat' first
    | with_reducible assumption | with_reducible refine State.ok_upd ?_ | with_reducible apply State.portTurns_ok
    | with_reducible apply State.takePcfg_ok | with_reducible apply State.writeByType_ok | extract_lets | split
    | (dsimp only; with_reducible assumption) | intro _ | rw [State.mk_upd] | dsimp +zetaDelta only

theorem State.writeDmaCtl_ok {pend : List Instr} (s : State) (load : Bool) (n : Nat) (v : Nat) (ok_s : s.Ok pend) :
    (State.writeDmaCtl s load n v).Ok pend := by
  unfold State.writeDmaCtl
  repeat' first
    | with_reducible assumption | with_reducible refine State.ok_upd ?_ | with_reducible apply State.dmaGoesOn_ok
    | with_reducible apply State.dmaStart_ok | with_reducible apply State.dmaStop_ok | with_reducible apply State.writeByType_ok
    | extract_lets | split | (dsimp only; with_reducible assumption) | intro _ | rw [State.mk_upd] | dsimp +zetaDelta only

theorem State.plainWrite_ok {pend : List Instr} (s : State) (m : Master) (off : Nat) (v : Nat) (ok_s : s.Ok pend) :
    (State.plainWrite s m off v).Ok pend := by
  unfold State.plainWrite
  repeat' first
    | with_reducible assumption | with_reducible refine State.ok_upd ?_ | with_reducible apply State.access_ok
    | with_reducible apply State.clkOutSet_ok | with_reducible apply State.settleCredit_ok
    | with_reducible apply State.writeByType_ok | with_reducible apply State.writeDmaCtl_ok
    | with_reducible apply State.writeMotCfg_ok | with_reducible apply State.writePcfg_ok | with_reducible apply State.writeSsc_ok
    | with_reducible apply State.writeThm_ok | extract_lets | split | (dsimp only; with_reducible assumption) | intro _
    | rw [State.mk_upd] | dsimp +zetaDelta only

theorem State.writeStaging_ok {pend : List Instr} (s : State) (m : Master) (off : Nat) (v : Word) (ok_s : s.Ok pend) :
    (State.writeStaging s m off v).Ok pend := by
  unfold State.writeStaging
  repeat' first
    | with_reducible assumption | with_reducible refine State.ok_upd ?_ | with_reducible apply State.access_ok
    | with_reducible apply State.updChan_ok | extract_lets | split | (dsimp only; with_reducible assumption) | intro _
    | rw [State.mk_upd] | dsimp +zetaDelta only

theorem State.writeShm_ok {pend : List Instr} (s : State) (m : Master) (off : Nat) (v : Word) (ok_s : s.Ok pend) :
    (State.writeShm s m off v).Ok pend := by
  unfold State.writeShm
  repeat' first
    | with_reducible assumption | with_reducible refine State.ok_upd ?_ | with_reducible apply State.access_ok
    | with_reducible apply State.updShm_ok | extract_lets | split | (dsimp only; with_reducible assumption) | intro _
    | rw [State.mk_upd] | dsimp +zetaDelta only

theorem State.lockWrite_ok {pend : List Instr} (s : State) (load : Bool) (v : Nat) (ok_s : s.Ok pend) :
    (State.lockWrite s load v).Ok pend := by
  unfold State.lockWrite
  repeat' first
    | with_reducible assumption | with_reducible refine State.ok_upd ?_ | with_reducible apply State.access_ok
    | with_reducible apply State.wr_ok | extract_lets | split | (dsimp only; with_reducible assumption) | intro _
    | rw [State.mk_upd] | dsimp +zetaDelta only

theorem State.readOut_ok {pend : List Instr} (s : State) (m : Master) (off : Nat) (size : Nat) (ok_s : s.Ok pend) :
    (State.readOut s m off size).Ok pend := by
  unfold State.readOut
  repeat' first
    | with_reducible assumption | with_reducible refine State.ok_upd ?_ | with_reducible apply State.access_ok
    | with_reducible apply State.emit_ok | with_reducible apply State.tookFree_ok | with_reducible apply State.ok_foldl
    | extract_lets | split | (dsimp only; with_reducible assumption) | intro _ | rw [State.mk_upd] | dsimp +zetaDelta only

theorem State.badForm_ok {pend : List Instr} (s : State) (m : Master) (off : Nat) (wr : Bool) (ok_s : s.Ok pend) :
    (State.badForm s m off wr).Ok pend := by
  unfold State.badForm
  repeat' first
    | with_reducible assumption | with_reducible refine State.ok_upd ?_ | with_reducible apply State.access_ok
    | with_reducible apply State.emit_ok | extract_lets | split | (dsimp only; with_reducible assumption) | intro _
    | rw [State.mk_upd] | dsimp +zetaDelta only

theorem State.oddAccess_ok {pend : List Instr} (s : State) (m : Master) (off : Nat) (size : Nat) (wr : Bool) (ok_s : s.Ok pend) :
    (State.oddAccess s m off size wr).Ok pend := by
  unfold State.oddAccess
  repeat' first
    | with_reducible assumption | with_reducible refine State.ok_upd ?_ | with_reducible apply State.access_ok
    | with_reducible apply State.badForm_ok | with_reducible apply State.emit_ok | with_reducible apply State.readOut_ok
    | with_reducible apply State.touch_ok | extract_lets | split | (dsimp only; with_reducible assumption) | intro _
    | rw [State.mk_upd] | dsimp +zetaDelta only

theorem orElse_ok {pend : List Instr} {α : Type} (i : Option α) (f : α → Outcome) (next : Outcome)
    (ok_f : ∀ a, Outcome.Keeps pend (f a)) (ok_next : Outcome.Keeps pend next) : Outcome.Keeps pend (orElse i f next) := by
  unfold orElse
  split
  · exact ok_f _
  · exact ok_next

theorem State.ownCmdMbx_ok {pend : List Instr} (s : State) (m : Master) (off : Nat) (v : Word) (next : Outcome) (ok_s : s.Ok pend) (ok_next : Outcome.Keeps pend next) :
    Outcome.Keeps pend (State.ownCmdMbx s m off v next) := by
  unfold State.ownCmdMbx
  repeat' first
    | with_reducible assumption | with_reducible refine State.ok_upd ?_ | with_reducible apply State.regCmd_ok
    | with_reducible apply State.writeShm_ok | with_reducible apply State.writeStaging_ok
    | with_reducible apply execCmdCqHeadWrite_ok | with_reducible apply execCmdQctlEnWrite_ok
    | with_reducible apply execCmdSqTailWrite_ok | with_reducible apply execMbxAliveWrite_ok
    | with_reducible apply execMbxDbmaskWrite_ok | with_reducible apply execMbxDone_ok | with_reducible apply execMbxLockWrite_ok
    | with_reducible apply execMbxPost_ok | with_reducible apply execMbxRing_ok | with_reducible apply execMbxShmGo_ok
    | with_reducible apply execMbxShmLockRelease_ok | with_reducible apply orElse_ok | with_reducible apply Outcome.keeps_next
    | with_reducible exact Outcome.keeps_fault | extract_lets | split | (dsimp only; with_reducible assumption) | intro _
    | rw [State.mk_upd] | dsimp +zetaDelta only

theorem State.ownGlbTim_ok {pend : List Instr} (s : State) (m : Master) (off : Nat) (v : Word) (next : Outcome) (ok_s : s.Ok pend) (ok_next : Outcome.Keeps pend next) :
    Outcome.Keeps pend (State.ownGlbTim s m off v next) := by
  unfold State.ownGlbTim
  repeat' first
    | with_reducible assumption | with_reducible refine State.ok_upd ?_ | with_reducible apply State.glbReset_ok
    | with_reducible apply State.lockWrite_ok | with_reducible apply State.plainWrite_ok | with_reducible apply State.regCmd_ok
    | with_reducible apply State.timTouched_ok | with_reducible apply execTimIncrHiWrite_ok
    | with_reducible apply execTimKeyWrite_ok | with_reducible apply execTimStepNsWrite_ok | with_reducible apply Outcome.keeps_next
    | with_reducible exact Outcome.keeps_fault | extract_lets | split | (dsimp only; with_reducible assumption) | intro _
    | rw [State.mk_upd] | dsimp +zetaDelta only

theorem State.ownOther_ok {pend : List Instr} (s : State) (m : Master) (off : Nat) (v : Word) (next : Outcome) (ok_s : s.Ok pend)
    (ok_next : Outcome.Keeps pend next) : Outcome.Keeps pend (s.ownOther m off v next) := by
  unfold State.ownOther
  refine orElse_ok _ _ _ (fun n => execBalSpareWrite_ok m n v s ok_s) (orElse_ok _ _ _ (fun n => ?_) ?_)
  · extract_lets
    split
    · exact execClmClaim_ok _ _ _ _ _ ok_s
    · split
      · exact execClmRelease_ok _ _ _ _ _ ok_s
      · exact State.clmIgnored_ok _ _ _ ok_s
  · split
    · exact execDmaEvmSw_ok _ _ _ ok_s
    · split
      · exact execRasFpPeakClr_ok _ _ _ ok_s
      · split
        · exact execEscSlipPeakClr_ok _ _ _ ok_s
        · split
          · exact execPadTjPeakClr_ok _ _ _ ok_s
          · split
            · exact execRlePoolClr_ok _ _ _ ok_s
            · split
              · exact execDosProbeArm_ok _ _ _ ok_s
              · split
                · exact execBalCfgWrite_ok _ _ _ ok_s
                · split
                  · exact execBalCutClear_ok _ _ _ ok_s
                  · exact ok_next

theorem State.fillWord_ok {pend : List Instr} (s : State) (m : Master) (off : Nat) (v : Word) (ok_s : s.Ok pend) :
    (State.fillWord s m off v).Ok pend := by
  unfold State.fillWord
  repeat' first
    | with_reducible assumption | with_reducible refine State.ok_upd ?_ | with_reducible apply State.writeShm_ok
    | with_reducible apply State.writeStaging_ok | extract_lets | split | (dsimp only; with_reducible assumption) | intro _
    | rw [State.mk_upd] | dsimp +zetaDelta only

theorem State.wideWrite_ok {pend : List Instr} (s : State) (m : Master) (off : Nat) (size : Nat) (bs : List Byte) (ok_s : s.Ok pend) :
    (State.wideWrite s m off size bs).Ok pend := by
  unfold State.wideWrite
  repeat' first
    | with_reducible assumption | with_reducible refine State.ok_upd ?_ | with_reducible apply State.access_ok
    | with_reducible apply State.fillWord_ok | with_reducible apply State.touch_ok | with_reducible apply State.ok_foldl
    | extract_lets | split | (dsimp only; with_reducible assumption) | intro _ | rw [State.mk_upd] | dsimp +zetaDelta only

end Sys2Proof.Machine
end

