-- ==== Sys2Proof/Laws/Packets.lean ====
section
/-! SUPPORT. What deciding a packet and replying to it do: the laws that a statement about an opcode cites. -/

namespace Sys2Proof.Machine

set_option Elab.async false
set_option linter.all false

/-- A packet that passes R57 has its opcode's effect. -/
theorem State.decidePk_runs (s : State) (pk : Packet) (o : OpSpec) (act : State → State) (h : s.mayDecide pk o = true) :
    s.decidePk pk o act = act (s.take pk) := by
  simp only [State.mayDecide, Bool.and_eq_true, Bool.not_eq_true', beq_iff_eq, Option.isNone_iff_eq_none] at h
  obtain ⟨⟨⟨⟨⟨h1, h2⟩, h3⟩, h4⟩, h5⟩, h6⟩ := h
  simp only [State.decidePk, h1, h2, h3, h4, h5, h6, Bool.not_true, bne_self_eq_false, Bool.or_false, Bool.false_eq_true, if_false]

/-- Being decided leaves a packet started. -/
theorem State.startedOf_take (s : State) (pk : Packet) :
    (s.take pk).startedOf pk = (s.startedOf pk).map (fun e => { e with taken := true }) := by
  simp only [State.startedOf, State.take]
  induction s.cmd.started with
  | nil => rfl
  | cons e l ih =>
    simp only [List.map_cons, List.find?_cons]
    by_cases h : (e.pk == pk) = true
    · simp [h]
    · have h' : (e.pk == pk) = false := by simpa using h
      simp only [h', Bool.false_eq_true, if_false]
      exact ih

/-- Being decided leaves a reply wanted. -/
theorem State.wanted_take (s : State) (pk : Packet) : (s.take pk).wanted pk = s.wanted pk := by
  simp only [State.wanted, State.startedOf_take]
  cases s.startedOf pk <;> rfl

/-- Being decided leaves a reply wanted, and none waiting. -/
theorem State.awaits_take (s : State) (pk : Packet) : (s.take pk).awaits pk = s.awaits pk := by
  simp only [State.awaits, State.wanted_take]
  rfl

/-- Whether a reply is awaited depends on the packets alone. -/
theorem State.awaits_congr {s t : State} (h : t.cmd = s.cmd) (pk : Packet) : t.awaits pk = s.awaits pk := by
  simp only [State.awaits, State.wanted, State.startedOf, h]

/-- Whether the reply buffer is sound depends on the clock and the commands waiting alone. -/
theorem State.rbufSound_congr {s t : State} (hp : t.pending = s.pending) (hd : t.dom = s.dom) (ht : t.tim = s.tim) (pk : Packet) :
    t.rbufSound pk = s.rbufSound pk := by
  have hc : t.clocked = s.clocked := by simp only [State.clocked, hd, ht]
  have hb : t.beforeTick = s.beforeTick := by simp only [State.beforeTick, hp]
  unfold State.rbufSound State.chanFault
  rw [hc, hb]

/-- An awaited reply waits to be written, its data going to a sound buffer or being none. -/
theorem State.complete_answers (s : State) (pk : Packet) (r : Reply) (h : s.awaits pk = true)
    (hf : s.rbufSound pk = true ∨ r.data = []) :
    (s.complete pk r).answers pk r.status (r.detail % 2 ^ 32) (r.result % 2 ^ 32) := by
  simp only [State.awaits, State.wanted, Bool.and_eq_true, Bool.not_eq_true'] at h
  obtain ⟨h1, h2⟩ := h
  have hn : s.chanFault (pkRbuf pk) (r.data.take (pkRoom pk - pkRoom pk % r.unit)).length = none := by
    rcases hf with hf | hf
    · rw [State.rbufSound, Option.isNone_iff_eq_none] at hf
      exact s.chanFault_less _ _ _ (by rw [List.length_take]; omega) hf
    · simp [hf]
  unfold State.complete
  cases hs : s.startedOf pk with
  | none => simp [hs] at h1
  | some e =>
    simp only [hs, Bool.not_eq_eq_eq_not, Bool.not_true] at h1
    simp only [h2, h1, Bool.false_eq_true, if_false, hn]
    exact ⟨_, List.mem_append_right _ (List.mem_singleton.2 rfl), rfl, rfl, rfl, rfl⟩

/-- A reply into a sound buffer changes only what a reply may. -/
theorem State.complete_onlyReplied (s : State) (pk : Packet) (r : Reply) (hs : s.rbufSound pk = true) :
    s.onlyReplied (s.complete pk r) pk := by
  obtain ⟨⟨c, m, g, e⟩, h⟩ := State.complete_sound s pk r hs
  exact ⟨by rw [e], h, (State.complete_frame s pk r).2.2⟩

/-- The same after the packet has been decided. -/
theorem State.take_complete_onlyReplied (s : State) (pk : Packet) (r : Reply) (hs : s.rbufSound pk = true) :
    s.onlyReplied ((s.take pk).complete pk r) pk := by
  obtain ⟨h1, h2, h3⟩ := State.complete_onlyReplied (s.take pk) pk r hs
  refine ⟨?_, h2, h3⟩
  rw [h1]
  rfl

/-- Deciding a packet and answering it without data changes the packets' bookkeeping alone. -/
theorem State.take_complete_onlyStatus (s : State) (pk : Packet) (r : Reply) (hr : r.data = []) :
    s.onlyStatus ((s.take pk).complete pk r) := by
  obtain ⟨c, e⟩ := State.complete_noData (s.take pk) pk r hr
  rw [State.onlyStatus, e]
  rfl

end Sys2Proof.Machine
end

