-- ==== Sys2Proof/WellFormed.lean ====
section
/-! DEFINITION. Which commands the part can be given: the conditions on operands that the types do not say. The meanings are total; an
operand that breaks these conditions is one that the interface cannot deliver. -/

namespace Sys2Proof

/-- A started packet has a LENGTH that the fetch accepts (R53); one of a bad LENGTH stands with its 32 header bytes. -/
def Packet.wf (pk : Packet) : Bool :=
  decide (32 ≤ pk.bytes.length) && decide (pk.bytes.length ≤ 1024) && pk.bytes.length % 4 == 0 &&
    (match pk.org with
     | .queue q => decide (q < 16) && (pk.fn == .h0 || pk.fn == .h1 || pk.fn == .h2 || pk.fn == .h3)
     | .shared k => decide (k < 4) && !(pk.fn == .load))

/-- A master that makes register accesses: the configuration load makes its writes within CONFIG_LOAD (R33). -/
def Master.accesses (m : Master) : Bool := !(m == .load)

/-- The packet of an opcode's command. -/
def Instr.packet : Instr → Option Packet
  | .nop pk | .ident pk | .modeArm pk | .hold pk | .clearHold pk | .standby pk | .status pk | .claim pk | .jobOpen pk
  | .stripeAdmit pk | .stripeArm pk | .stripeCancel pk | .jobClose pk | .holeRead pk | .upload pk _ | .release pk | .verify pk
  | .cellQuery pk | .calLoad pk | .genRetire pk | .heatLoad pk | .facetLoad pk | .genQuery pk | .checkRun pk | .checkRead pk
  | .calBuild pk | .axisConfig pk | .axisMove pk | .axisStop pk | .axisResume pk | .axisHome pk | .axisStatus pk | .railStatus pk
  | .snapshotRead pk | .heaterSet pk | .heaterStatus pk | .timeRead pk | .timeStep pk | .timeIncr pk | .ptpStatus pk
  | .fxStatus pk | .fxLoad pk _ | .fxStripe pk | .fxAbort pk | .fxHoles pk | .fxTime pk | .fxRails pk | .fxMove pk | .fxHalt pk
  | .fxHeat pk | .fxFaults pk | .fxFaultAck pk | .reservedOpcode pk | .faultRead pk | .faultAck pk | .inject pk | .severitySet pk
  | .compress ⟨pk, _⟩ | .eyeScan pk | .memStatus pk | .readyByWaitEnd pk | .waitUsExpiry pk => some pk
  | _ => none

/-- The master of a register command. -/
def Instr.master : Instr → Option Master
  | .cmdSqTailWrite m _ _ | .cmdCqHeadWrite m _ _ | .cmdQctlEnWrite m _ _ | .registerWrite m _ _ | .badAccess m _ _ _
  | .clmClaim m _ _ _ | .clmRelease m _ _ _ | .glbLockWrite m _ | .warmReset m _ | .coldReset m _ | .timNowSecLoRead m
  | .timIncrHiWrite m _ | .timStepNsWrite m _ | .timKeyWrite m _ | .dmaGo m _ | .dmaAbort m _ | .dmaResume m _ | .dmaEvmSw m _
  | .rasFpPeakClr m _ | .escSlipPeakClr m _ | .padTjPeakClr m _ | .rlePoolClr m _ | .dosProbeArm m _ | .balCfgWrite m _
  | .balSpareWrite m _ _ | .balCutClear m _ | .mbxPost m _ _ | .mbxDone m _ _ | .mbxRing m _ _ | .mbxAliveWrite m _
  | .mbxLockWrite m _ | .mbxShmLockRead m _ | .mbxShmLockRelease m _ _ | .mbxShmGo m _ _ | .mbxDbmaskWrite m _ _ => some m
  | _ => none

/-- An error that comes up in the DRAM: a beat of the largest job store (R235), and flipped bits of its 40 (R236). -/
def errOk (e : Nat × Nat) : Bool := decide (4 * e.1 < 2 ^ 39) && decide (0 < e.2) && decide (e.2 < 2 ^ 40)

/-- What remains of a command's operands. -/
def Instr.operandsOk : Instr → Bool
  | .registerWrite _ off _ => decide (off < 0x1000000) && off % 4 == 0
  | .badAccess _ off size acc => decide (off < 0x1000000) && decide (0 < size) && decide (size ≤ 64) &&
      (match acc with | .read => true | .write bs => bs.length == size)
  | .faultRaise src | .wireFault src | .levelConditionEnd src | .injectionExpiry src => Machine.isSource src
  | .ddr5BringUp found => found.length == 4
  | .adcScan volts => volts.length == 24
  | .readingDone volts => volts.length == 8
  | .plinkFrame stamp syms => syms.length == 17 && decide (stamp < 2 ^ 64)
  | .encoderSample t _ _ => decide (t < 2 ^ 64)
  | .sos0Edge t => decide (t < 2 ^ 64)
  | .sos1Edge t => decide (t < 2 ^ 64)
  | .heartbeatReceive _ mac f => decide (46 ≤ f.bytes.length) && decide (mac < 2 ^ 48) && decide (f.etherType < 2 ^ 16) && f.etherType != 0x88F7
  | .dmaHalt _ _ _ addr => decide (addr < 2 ^ 64)
  | .binFetch errs | .dmaBurst _ _ errs | .scrubRead errs _ => errs.all errOk
  | _ => true

/-- The command is well formed. -/
def Instr.wf (i : Instr) : Bool :=
  (match i.packet with | some pk => pk.wf | none => true) && (match i.master with | some m => m.accesses | none => true) && i.operandsOk

end Sys2Proof
end

