-- ==== Sys2Proof/Tests/Slice0.lean ====
section
/-! SUPPORT. Tests of one command each on small states, ill-formed commands that the checks refuse, and for every statement with hypotheses a
witness that meets them. -/

namespace Sys2Proof.Tests

set_option Elab.async false

open Sys2Proof Sys2Proof.Machine

/-! ### Helpers -/

/-- The next state of an outcome, and the state after reset where there is none. -/
def nextOf : Machine.Outcome → State
  | .next t => t
  | _ => State.reset

/-- The outcome is a next state. -/
def goesOn : Machine.Outcome → Bool
  | .next _ => true
  | _ => false

/-- A packet of queue 0 (Table 3-1): opcode, function, RBUF, RBUF_LEN and its parameters from 0x20 on. -/
def pkt (op : Nat) (fn : Master) (params : List Byte) (rbuf : Nat := 0) (room : Nat := 0) : Packet :=
  ⟨0, .queue 0, fn, leBytes 1 op ++ zeros 5 ++ leBytes 2 (32 + params.length) ++ leBytes 8 rbuf ++ leBytes 4 room ++ zeros 12 ++ params⟩

/-- The part in a mode, its domains up and its cores running, PCIe up, queue 0 enabled. -/
def inMode (m : Nat) : State :=
  let s : State := { State.reset with
    dom := { Domain.reset with main := true, mainUp := true, perst := true, link := true, imageOk := true, cfgDone := true, booted := true }
    mbx := { MbxState.reset with coreHeld := [false, false, false] } }
  (s.setFld rGlbMode 29 3 m).wr (rCmdQctl 0) 0x80000000

/-- The packet has been started and stands to be decided. -/
def asked (s : State) (pk : Packet) : State := { s with cmd := { s.cmd with started := [⟨pk, false, false, 0⟩] } }

/-- The packet has been decided, and its reply is outstanding. -/
def decided (s : State) (pk : Packet) : State := { s with cmd := { s.cmd with started := [⟨pk, false, true, 0⟩] } }

/-- The state on a clock after reset's, with these commands waiting. -/
def onClockWith (s : State) (l : List Instr) : State := { s with tim := { s.tim with elapsed := 65536000 }, pending := l }

/-- The Bool form of the invariant. -/
theorem inv_of {s : State} (h : (s.storesOk && s.boundsOk) = true) : s.Inv := by
  simpa [State.Inv] using h

/-- The reply that waits for a packet, as status, DETAIL and RESULT. -/
def reply (o : Machine.Outcome) : List (Nat × Nat × Nat) := (nextOf o).cmd.held.map (fun h => (h.status, h.detail, h.result))

/-! ### Commands of the queues -/

/-- The hypotheses of QueriesReplyOkAndChangeNothingElse, in SERVICE and, for IDENT from H3, in HOLD. -/
theorem witness_queries :
    let pk := fun op fn (ps : List Byte) => pkt op fn ps 0x1000 64
    let ok := fun (p : Packet) (o : OpSpec) => (asked (inMode 1) p).awaits p && (asked (inMode 1) p).rbufSound p && (asked (inMode 1) p).mayDecide p o
    ok (pk 0x00 .h0 []) ⟨0x00, fnAll3, modesAny, []⟩ = true ∧ ok (pk 0x01 .h3 []) ⟨0x01, fnAll3, modesAny, []⟩ = true ∧
    ok (pk 0x06 .h1 []) ⟨0x06, fnAll3, modesAny, []⟩ = true ∧ ok (pk 0x23 .h0 []) ⟨0x23, fnAll, modesAny, []⟩ = true ∧
    ok (pk 0x55 .h0 (leBytes 4 7)) ⟨0x55, fnAll, modesAny, fByte 8⟩ = true ∧ ok (pk 0x60 .h2 []) ⟨0x60, fnAll, modesAny, []⟩ = true ∧
    ok (pk 0x63 .h0 (leBytes 4 5)) ⟨0x63, fnAll, modesAny, fByte 6⟩ = true ∧ ok (pk 0x70 .h0 []) ⟨0x70, fnAll3, modesAny, []⟩ = true ∧
    ok (pk 0xA1 .h0 []) ⟨0xA1, fnAll, modesAny, []⟩ = true ∧ ok (pk 0x80 .h3 []) (fxSpec 0x80 []) = true ∧
    ok (pk 0x85 .h3 []) (fxSpec 0x85 []) = true ∧ ok (pk 0x86 .h3 []) (fxSpec 0x86 []) = true := by decide +kernel

/-- The hypotheses of QueriesReturnTheirData: room of 16 bytes for TIME, entry 15 of the snapshot buffer. -/
theorem witness_query_data :
    let pk := fun op (fn : Master) (ps : List Byte) => pkt op fn ps 0x1000 16
    let s1 := asked (inMode 1) (pk 0x70 .h0 [])
    let x : Snapshot := ⟨zeros 64, [], true, [], false, 0⟩
    let s2 := { asked (inMode 5) (pk 0x61 .h1 (leBytes 4 15)) with snap := { SnapState.reset with entries := SnapState.reset.entries.set 15 (some x) } }
    (s1.awaits (pk 0x70 .h0 []) = true ∧ s1.rbufSound (pk 0x70 .h0 []) = true ∧ s2.rbufSound (pk 0x61 .h1 (leBytes 4 15)) = true ∧ 16 ≤ pkRoom (pk 0x70 .h0 []) ∧ Memory.wf s1.hostMem = true ∧ s1.dom.main = true ∧
      s1.mayDecide (pk 0x70 .h0 []) ⟨0x70, fnAll3, modesAny, []⟩ = true) ∧
    ((asked (inMode 2) (pk 0x34 .h1 (leBytes 4 2))).mayDecide (pk 0x34 .h1 (leBytes 4 2)) ⟨0x34, fnAll, modesAny, fByte 3⟩ = true ∧
      reply (exec (.genQuery (pk 0x34 .h1 (leBytes 4 2))) (asked (inMode 2) (pk 0x34 .h1 (leBytes 4 2)))) = [(0, 0, 2)]) ∧
    ((asked (inMode 2) (pk 0x90 .h1 (zeros 8))).mayDecide (pk 0x90 .h1 (zeros 8)) ⟨0x90, fnAll, modesAny, fFaultRead⟩ = true) ∧
    ((asked (inMode 2) (pk 0x8A .h3 (zeros 8))).mayDecide (pk 0x8A .h3 (zeros 8)) (fxSpec 0x8A fFaultRead) = true) ∧
    ((s2.storesOk && s2.boundsOk) = true ∧ s2.awaits (pk 0x61 .h1 (leBytes 4 15)) = true ∧
      s2.mayDecide (pk 0x61 .h1 (leBytes 4 15)) ⟨0x61, fnAll, modesAny, fByte 16⟩ = true ∧
      s2.snap.entries[pkU (pk 0x61 .h1 (leBytes 4 15)) 0x20 1]? = some (some x) ∧
      ((nextOf (exec (.snapshotRead (pk 0x61 .h1 (leBytes 4 15))) s2)).snap.entries[15]?.map (·.map (·.read))) = some (some true)) ∧
    ((asked (inMode 5) (pk 0x61 .h1 (leBytes 4 15))).snap.entries[15]? = some none ∧
      (asked (inMode 5) (pk 0x61 .h1 (leBytes 4 15))).mayDecide (pk 0x61 .h1 (leBytes 4 15)) ⟨0x61, fnAll, modesAny, fByte 16⟩ = true ∧
      reply (exec (.snapshotRead (pk 0x61 .h1 (leBytes 4 15))) (asked (inMode 5) (pk 0x61 .h1 (leBytes 4 15)))) = [(0, 0, 0)]) ∧
    ((asked (inMode 1) (pk 0x73 .h0 (leBytes 4 1))).mayDecide (pk 0x73 .h0 (leBytes 4 1)) ⟨0x73, fnAll, modesAny, fByte 2⟩ = true) := by
  decide +kernel

/-- The hypotheses of PacketChecksRefuseInOrder, and what the refusals answer. -/
theorem witness_packet_checks :
    let arm := fun fn ps => pkt 0x02 fn ps
    let cl := fun fn => pkt 0x07 fn (zeros 4)
    let good := fun (s : State) (p : Packet) => s.awaits p && s.ready p && !s.serialBlocked p
    (good (asked (inMode 1) (arm .h1 (zeros 24))) (arm .h1 (zeros 24)) = true ∧
      reply (exec (.modeArm (arm .h1 (zeros 24))) (asked (inMode 1) (arm .h1 (zeros 24)))) = [(3, 0, 0)]) ∧
    (good (asked (inMode 5) (arm .h0 (zeros 24))) (arm .h0 (zeros 24)) = true ∧
      reply (exec (.modeArm (arm .h0 (zeros 24))) (asked (inMode 5) (arm .h0 (zeros 24)))) = [(4, 0, 0)]) ∧
    ((inMode 4).mode ∈ modesRun ∧ badField (arm .h0 (leBytes 1 9 ++ zeros 35)) fModeArm = some 0x20 ∧
      reply (exec (.modeArm (arm .h0 (leBytes 1 9 ++ zeros 35))) (asked (inMode 4) (arm .h0 (leBytes 1 9 ++ zeros 35)))) = [(2, 0x20, 0)]) ∧
    (good (asked (inMode 1) (cl .h2)) (cl .h2) = true ∧ Master.h2 ∉ fn01) ∧
    (good (asked (inMode 2) (cl .h1)) (cl .h1) = true ∧ Master.h1 ∈ fn01 ∧ (inMode 2).mode ≠ 1) ∧
    (good (asked (inMode 1) (pkt 0xFF .h0 [])) (pkt 0xFF .h0 []) = true ∧ knownOps.contains (pkOpcode (pkt 0xFF .h0 [])) = false ∧
      reply (exec (.reservedOpcode (pkt 0xFF .h0 [])) (asked (inMode 1) (pkt 0xFF .h0 []))) = [(1, 0, 0)]) := by decide +kernel

/-- The hypotheses of PacketChecksRefuseInOrder for INJECT. -/
theorem witness_packet_checks_inject :
    let inj := fun fn src => pkt 0x92 fn (leBytes 2 src ++ zeros 2 ++ leBytes 4 7 ++ leBytes 4 100)
    let s := fun m p => asked (inMode m) p
    pkOpcode (inj .h0 0x260) = 0x92 ∧ Master.h0 ∉ [Master.h1, .h2] ∧ isSource 0xFFFF = false ∧
    isSource srcHbLoss = true ∧ injValueOk srcHbLoss 7 = false ∧
    (s 1 (inj .h0 0x260)).awaits (inj .h0 0x260) = true ∧ (s 1 (inj .h0 0x260)).ready (inj .h0 0x260) = true ∧
    (s 1 (inj .h0 0x260)).serialBlocked (inj .h0 0x260) = false ∧
    reply (exec (.inject (inj .h0 0x260)) (s 1 (inj .h0 0x260))) = [(3, 0, 0)] ∧
    reply (exec (.inject (inj .h1 0x260)) (s 2 (inj .h1 0x260))) = [(4, 0, 0)] ∧
    reply (exec (.inject (inj .h1 0xFFFF)) (s 1 (inj .h1 0xFFFF))) = [(2, 0x20, 0)] ∧
    reply (exec (.inject (inj .h2 srcHbLoss)) (s 1 (inj .h2 srcHbLoss))) = [(2, 0x24, 0)] := by decide +kernel

/-- A queue of 16 slots with one packet of 32 bytes in it, its head at the last slot. -/
def oneWaiting : State :=
  ((inMode 1).wr (rCmdSqTail 0) 0).setFld (rCmdQstat 0) 0 12 15

/-- The hypotheses of PacketFetchStartsThePacket, at the wrap of the queue. -/
theorem witness_fetch :
    let bs := (pkt 0 .h0 []).bytes
    (oneWaiting.storesOk && oneWaiting.boundsOk) = true ∧ oneWaiting.pcieUp = true ∧ oneWaiting.masterUp .m0 = true ∧
    oneWaiting.turn = some 0 ∧ getU bs 6 2 = 32 ∧ 32 ≤ bs.length ∧ getU bs 1 1 % 2 = 0 ∧
    ceilDiv 32 32 ≤ (oneWaiting.qTail 0 + (oneWaiting.queue 0).sqSize - oneWaiting.qHead 0) % (oneWaiting.queue 0).sqSize ∧
    headerBad (bs.take 32) 0 = none ∧ (nextOf (exec (.packetFetch (.bytes bs)) oneWaiting)).cmd.started.length = 1 := by decide +kernel

/-- A reply that waits in queue 0, whose completion queue is at its last entry. -/
def oneHeld : State :=
  let pk := pkt 0 .h0 []
  { decided (inMode 1) pk with cmd := { CmdState.reset with
      started := [⟨pk, false, true, 0⟩], held := [⟨pk, 0, 0, 0, false, false⟩]
      queues := CmdState.reset.queues.set 0 ⟨0x10000, 0x20000, 16, 16, 15, true⟩ } }.wr (rCmdCqHead 0) 3

/-- The hypotheses of ReplyWriteFillsTheCompletionSlot, at the wrap of the completion queue. -/
theorem witness_reply_write :
    (oneHeld.storesOk && oneHeld.boundsOk) = true ∧ oneHeld.pcieUp = true ∧ oneHeld.qEn 0 = true ∧ oneHeld.qHalted 0 = false ∧
    oneHeld.cqFull 0 = false ∧ oneHeld.heldOf 0 = some ⟨pkt 0 .h0 [], 0, 0, 0, false, false⟩ ∧ oneHeld.dom.resetting = 0 ∧
    haltsQueue ⟨pkt 0 .h0 [], 0, 0, 0, false, false⟩ = false ∧ 0 < oneHeld.cmd.queues.length ∧
    ((nextOf (exec (.replyWrite 0 true) oneHeld)).queue 0).cqw = 0 ∧ ((nextOf (exec (.replyWrite 0 true) oneHeld)).queue 0).phase = false := by
  decide +kernel

/-- The hypotheses of QueuesTakeDoorbellsAndDisable: doorbells at the last slot and one beyond, for a queue of 16. -/
theorem witness_queue_registers :
    let s := inMode 1
    (s.storesOk && s.boundsOk) = true ∧ s.reaches .h0 (rCmdSqTail 0) = true ∧ s.reaches .h0 (rCmdCqHead 0) = true ∧
    s.reaches .h0 (rCmdQctl 0) = true ∧ s.queueOwner .h0 (0 : Fin 16) = true ∧ s.qEn 0 = true ∧ s.qHalted 0 = false ∧
    (s.queue 0).sqSize = 16 ∧ (s.queue 0).cqSize = 16 ∧ s.locked (rCmdQctl 0) = false ∧ s.dom.resetting = 0 ∧ s.dom.main = true ∧
    (nextOf (exec (.cmdSqTailWrite .h0 0 15#32) s)).rd (rCmdSqTail 0) = 15 ∧
    (nextOf (exec (.cmdSqTailWrite .h0 0 16#32) s)).qHalted 0 = true ∧
    (nextOf (exec (.cmdCqHeadWrite .h0 0 15#32) s)).rd (rCmdCqHead 0) = 15 ∧
    (nextOf (exec (.cmdCqHeadWrite .h0 0 16#32) s)).qHalted 0 = true ∧
    (nextOf (exec (.cmdQctlEnWrite .h0 0 0#32) s)).qEn 0 = false ∧ (nextOf (exec (.functionReset 0 .flr) s)).qEn 0 = false := by
  decide +kernel

/-- The hypotheses of ClaimsGrantAndRelease, at the first and the last resource. -/
theorem witness_claims :
    let s := inMode 1
    let held := (s.grant 0 0x10 19)
    let pinned := held.setFlag (rClmEntry 19) 31 true
    let pk := pkt 0x07 .h0 [1#8, 0x10#8, 19#8, 0#8]
    let sp := asked s pk
    (s.storesOk && s.boundsOk) = true ∧ s.reaches .m0 (rClmReq 0) = true ∧ masterCode .m0 = 0 ∧ s.clmHeld 0 = false ∧ s.clmHeld 19 = false ∧
    held.clmHeld 19 = true ∧ held.clmPinned 19 = false ∧ held.clmMaster 19 = 0 ∧ held.clmOwner 19 = 0x10 ∧ pinned.clmPinned 19 = true ∧
    (held.storesOk && held.boundsOk) = true ∧ (pinned.storesOk && pinned.boundsOk) = true ∧
    sp.awaits pk = true ∧ sp.mayDecide pk ⟨0x07, fn01, [1], fClaim⟩ = true ∧ pkU pk 0x20 1 = 1 ∧ pkU pk 0x22 1 < 20 ∧
    sp.clmHeld (pkU pk 0x22 1) = false ∧ reply (exec (.claim pk) sp) = [(0, 0, 0)] ∧
    s.touch.doneAhead 19 (claimEntry 0 0x10) = false ∧ s.touch.claimRival 0 19 = none ∧ held.touch.freedNow 19 = false ∧
    (sp.take pk).claimRival 2 (pkU pk 0x22 1) = none ∧
    (nextOf (exec (.clmClaim .m0 0 0x10#8 19#8) s)).clmHeld 19 = true := by decide +kernel

/-- The hypotheses of ClaimsGrantAndRelease for a claim of a resource that its holder releases on the same clock. -/
theorem witness_claim_tie :
    let s := onClockWith ((inMode 1).grant 1 0x11 19) [.clmRelease .m1 1 0x11#8 19#8]
    (s.storesOk && s.boundsOk) = true ∧ s.reaches .m0 (rClmReq 0) = true ∧ s.touch.doneAhead 19 (claimEntry 0 0x10) = false ∧
    s.clmHeld 19 = true ∧ s.touch.freedNow 19 = true ∧
    (nextOf (exec (.clmClaim .m0 0 0x10#8 19#8) s)).rd (rClmEntry 19) = claimEntry 0 0x10 := by decide +kernel

/-! ### Mailboxes -/

/-- Channel 5 bound from H0 to M0, enabled, with its count at `n` messages and its head at `h`. -/
def chanState (n h : Nat) : State :=
  ((inMode 1).wr (rMbxBind 5) (2 ^ 31 + 7 * 2 ^ 24)).wr (rMbxChstat 5) (n * 256 + h)

/-- A message that waits unread in slot 7 of channel 5. -/
def unreadSlot : State :=
  let s := chanState 1 7
  let c := s.chan 5
  { s with mbx := { s.mbx with chans := s.mbx.chans.set 5 { c with slots := c.slots.set 7 { MbxSlot.reset with unread := true } } } }

/-- The hypotheses of MailboxesQueueAndFreeMessages: the eighth message of a channel, and the wrap of its head. -/
theorem witness_mailboxes :
    let s := chanState 7 7
    (s.storesOk && s.boundsOk) = true ∧ s.reaches .h0 (rMbxPost 5) = true ∧ masterCode .h0 = s.chSender 5 ∧ s.chEn 5 = true ∧
    s.codeUp (s.chReceiver 5) = true ∧ s.chCount 5 = 7 ∧ (s.chan 5).slots.length = 8 ∧ 5 < s.mbx.chans.length ∧
    (nextOf (exec (.mbxPost .h0 5 0#32) s)).chCount 5 = 8 ∧
    s.reaches .m0 (rMbxDone 5) = true ∧ masterCode .m0 = s.chReceiver 5 ∧ bitAt (1#32).toNat 0 = true ∧
    (nextOf (exec (.mbxDone .m0 5 1#32) s)).chHead 5 = 0 ∧
    (unreadSlot.storesOk && unreadSlot.boundsOk) = true ∧
    (unreadSlot.chan 5).slots[7]? = some { MbxSlot.reset with unread := true } ∧
    (nextOf (exec (.replyWindowExpiry 5 7) unreadSlot)).flag (rMbxChstat 5) 29 = true ∧
    unreadSlot.doneTies 5 7 = false ∧ s.aliveTies 2 = false ∧ s.dom.main = true ∧ s.mbx.coreHeld[2]? = some false := by decide +kernel

/-- The hypotheses of MailboxWritesTakeEffect. -/
theorem witness_mailbox_writes :
    let s := (chanState 0 0).setFld (rMbxBind 5) 12 5 27
    (s.storesOk && s.boundsOk) = true ∧ s.reaches .h0 (rMbxRing 0) = true ∧ s.touch.ringable .h0 0 = 2 ^ 27 ∧
    (2 ^ 27 : Nat) &&& (0xFFFFFFFF - s.touch.ringable .h0 0) = 0 ∧
    (nextOf (exec (.mbxRing .h0 0 0x8000000#32) s)).rd (rMbxDb 0) = 2 ^ 27 ∧
    s.reaches .aoc rMbxLock = true ∧ (nextOf (exec (.mbxLockWrite .aoc 1#32) s)).flag rMbxLock 0 = true ∧
    coreOf .m2 = some 2 ∧ s.reaches .m2 rMbxAlive = true ∧ 2 < s.mbx.aliveAt.length ∧
    s.reaches .h3 (rMbxDbmask 10) = true ∧ masterCode .h3 = 10 ∧
    (nextOf (exec (.mbxDbmaskWrite .h3 10 5#32) s)).rd (rMbxDbmask 10) = 5 ∧ 3 < s.dom.d3.length := by decide +kernel

/-- Shared mailbox 3, owned by H3 with a packet in its window. -/
def shmOwned (rel : Option (Nat × Nat)) : State :=
  let s := inMode 1
  let bs := leBytes 1 0x80 ++ zeros 3 ++ [0xFF#8, 0#8] ++ leBytes 2 32 ++ zeros 24
  { s with mbx := { s.mbx with shms := s.mbx.shms.set 3 ⟨bs ++ zeros 480, 4, rel, none⟩ } }

/-- A reply that waits for the window of shared mailbox 3. -/
def shmHeld : State :=
  let s := shmOwned none
  let pk : Packet := ⟨9, .shared 3, .h3, zeros 32⟩
  { s with cmd := { s.cmd with started := [⟨pk, false, true, 0⟩], held := [⟨pk, 0, 0, 0, false, false⟩] } }

/-- The hypotheses of SharedMailboxesLockRunAndReply. -/
theorem witness_shared_mailboxes :
    let f := inMode 1
    let s := shmOwned none
    (s.storesOk && s.boundsOk) = true ∧ (f.storesOk && f.boundsOk) = true ∧ 3 < s.mbx.shms.length ∧ 3 < f.mbx.shms.length ∧
    f.reaches .h3 (rMbxShmLock 3) = true ∧ f.touch.shmOwner 3 = 0 ∧ f.touch.shmRival 3 (ownerNo (masterCode .h3)) = ownerNo (masterCode .h3) ∧
    s.reaches .h3 (rMbxShmLock 3) = true ∧ s.touch.shmOwner 3 = ownerNo (masterCode .h3) ∧
    s.reaches .h3 (rMbxShmGo 3) = true ∧ s.flag (rMbxShmStat 3) 31 = false ∧ getU (s.shm 3).slots 6 2 = 32 ∧
    lengthBad (getU (s.shm 3).slots 6 2) = false ∧ headerBad ((s.shm 3).slots.take 32) 0xFF = none ∧
    (nextOf (exec (.mbxShmGo .h3 3 1#32) s)).cmd.started.length = 1 ∧
    (shmHeld.storesOk && shmHeld.boundsOk) = true ∧ (shmHeld.cmd.held.find? (fun h => h.pk.org == .shared 3)).isSome = true ∧
    shmHeld.dom.resetting = 0 ∧ (nextOf (exec (.shmReply 3) shmHeld)).flag (rMbxDb 10) 31 = true ∧ (nextOf (exec (.shmReply 3) shmHeld)).flag (rMbxShmStat 3) 30 = true := by decide +kernel

/-! ### Jobs, the job store and stripes -/

/-- A FERIX record (R80): its type, its payload, LEN8 and CHECK as the rules give them. -/
def record (ty : Nat) (payload : List Byte) : List Byte :=
  let head := leBytes 2 ty ++ leBytes 2 ((8 + payload.length) / 8)
  head ++ leBytes 4 (crc32c (head ++ payload)) ++ payload

/-- The smallest job part of a SCAN job: one channel of 512 pixels, N = 1, pitch 128, no cell. -/
def jobPart : List Byte :=
  record 1 ([1#8, 0#8, 1#8, 1#8] ++ leBytes 4 128 ++ leBytes 4 512 ++ leBytes 2 0 ++ zeros 2 ++ leBytes 2 1 ++ zeros 6) ++
  record 2 (zeros 256) ++ record 3 (zeros 8)

/-- A job store that is ready and holds `bs` at `a`, one clean region. -/
def holding (s : State) (a : Nat) (bs : List Byte) : State :=
  let t := (s.memWrite a bs).setFlag rMemStat 31 true
  { t with lay := { t.lay with regions := [⟨a, bs.length, 0, 0⟩] } }

/-- JOB_OPEN of that part as job 7. -/
def openPk : Packet := pkt 0x10 .h0 (leBytes 4 7 ++ zeros 4 ++ leBytes 8 0x1000 ++ leBytes 8 312)

/-- A part that drives the SCN port and holds the job part. -/
def openState : State := asked (holding ((inMode 1).setFlag rGlbCfg 29 true) 0x1000 jobPart) openPk

/-- The job that the part describes. -/
def scanJob : Job := jobFrom 7 (splitRecs 0x1000 312 jobPart)

set_option maxRecDepth 20000 in
/-- The hypotheses of JobsOpenAndClose for an open, and its answer. -/
theorem witness_job_open :
    let s := openState
    let rs := splitRecs 0x1000 312 jobPart
    s.portWaits 4 [(0x1000, 312)] = false ∧ s.portWaits 0 [(0x1138, 0)] = false ∧ jobPart.length = 312 ∧ s.jsRead 0x1000 312 = jobPart ∧
    s.awaits openPk = true ∧ s.mayDecide openPk ⟨0x10, [.h0], modesRun, s.fJobOpen openPk⟩ = true ∧ s.lay.jobs.length < 2 ∧
    s.ddr.badTemp.any id = false ∧ s.notCovered 0x1000 312 = none ∧ s.unclean 0x1000 312 = none ∧ s.badBlock 0x1000 312 = none ∧
    s.errBlocks 0x1000 312 = [] ∧ checkFails rs = none ∧ (getU (jobPart ++ s.jsRead (0x1000 + 312) 32) 8 1 == 1) = s.scnPort ∧ jobLayout 0x1000 jobPart (s.jsRead (0x1000 + 312) 32) rs = none ∧
    cellCause (getU jobPart 0x0C 4) [] (rs.drop 3) = none ∧ scanJob.cells = [] ∧
    (exec (.jobOpen openPk) s |> reply) = [(0, 0, 0)] ∧ (nextOf (exec (.jobOpen openPk) s)).lay.jobs = [scanJob] := by decide +kernel

/-- A stripe of job 7 in the table, in a phase. -/
def aStripe (h : Nat) (ph : StripePhase) : Stripe :=
  { handle := h, job := 7, stripe := 1, pass := 0, gen := 9, rate := 1000, data := 0x2000, len := 320, lines := 1, nbin := 1, x0 := 0, y0 := 0,
    map := none, readyBy := 0, phase := ph, fx := false, armPk := none, holes := 0, logged := 0, envFirst := 0, envLast := 0,
    remainder := false, clip := 0, tSat := 0, shots := 0, tFirst := 0, tLast := 0, geo := (128, 1, 1) }

/-- The state with these jobs and stripes. -/
def withJobs (s : State) (js : List Job) (xs : List Stripe) : State := { s with lay := { s.lay with jobs := js, stripes := xs } }

/-- The hypotheses of JobsOpenAndClose: a third job, and closing an open, a busy and an unknown job. -/
theorem witness_job_close :
    let pk := pkt 0x14 .h0 (leBytes 4 7)
    let full := withJobs openState [{ scanJob with id := 1 }, { scanJob with id := 2 }] []
    let free := asked (withJobs (inMode 5) [scanJob] []) pk
    let busy := asked (withJobs (inMode 1) [scanJob] [aStripe 3 .admitted]) pk
    let none_ := asked (inMode 1) pk
    full.mayDecide openPk ⟨0x10, [.h0], modesRun, full.fJobOpen openPk⟩ = true ∧ full.lay.jobs.length = 2 ∧
    reply (exec (.jobOpen openPk) full) = [(0x10, 5 * 2 ^ 24, 1)] ∧
    free.awaits pk = true ∧ free.mayDecide pk ⟨0x14, [.h0], modesRunHold, [anyField 0x20 4]⟩ = true ∧ (free.jobOf 7).isSome = true ∧
    free.lay.stripes = [] ∧ reply (exec (.jobClose pk) free) = [(0, 0, 0)] ∧
    busy.mayDecide pk ⟨0x14, [.h0], modesRunHold, [anyField 0x20 4]⟩ = true ∧ reply (exec (.jobClose pk) busy) = [(0x11, 9 * 2 ^ 24, 3)] ∧
    none_.mayDecide pk ⟨0x14, [.h0], modesRunHold, [anyField 0x20 4]⟩ = true ∧ (none_.jobOf 7).isNone = true := by decide +kernel

/-- UPLOAD of 64 zero bytes to the last 64 bytes below the part area, with this CRC. -/
def uploadPk (op : Nat) (fn : Master) (crc : Nat) : Packet :=
  pkt op fn (zeros 8 ++ leBytes 8 (68719476736 - 67108864 - 64) ++ leBytes 8 64 ++ leBytes 4 crc ++ zeros 4)

/-- The hypotheses of JobStoreUploadsReleasesVerifies: uploads of the last block below the part area, with a CRC that matches and one that
does not. -/
theorem witness_upload :
    let bs : List Byte := zeros 64
    let base := 68719476736 - 67108864 - 64
    let good := uploadPk 0x20 .h0 (crc32c bs)
    let bad := uploadPk 0x20 .h1 (crc32c bs + 1)
    let fx := uploadPk 0x81 .h3 (crc32c bs)
    let s := fun p => asked ((inMode 1).setFlag rMemStat 31 true) p
    ((s good).storesOk && (s good).boundsOk) = true ∧ (s good).awaits good = true ∧ (s good).memReady = true ∧ pkU good 0x28 8 = base ∧
    pkU good 0x30 8 = 64 ∧ (s good).destRefused base 64 = none ∧ bs.length = 64 ∧ crc32c bs = pkU good 0x38 4 ∧
    crc32c bs ≠ pkU bad 0x38 4 ∧ (s good).portWaits 2 [(base, 64)] = false ∧ (s good).mayDecide good ⟨0x20, fn01, modesRun, (s good).fUpload good⟩ = true ∧
    (s bad).mayDecide bad ⟨0x20, fn01, modesRun, (s bad).fUpload bad⟩ = true ∧
    (s fx).mayDecide fx (fxSpec 0x81 ((s fx).fUpload fx)) = true ∧
    reply (exec (.upload good (.bytes bs)) (s good)) = [(0, 0, 0)] ∧ reply (exec (.upload bad (.bytes bs)) (s bad)) = [(0x11, 2 * 2 ^ 24, 0)] ∧
    reply (exec (.fxLoad fx (.bytes bs)) (s fx)) = [(0, 0, 0)] := by decide +kernel

/-- The hypotheses of JobStoreUploadsReleasesVerifies: a release, one of a pinned region, and a verify. -/
theorem witness_release_verify :
    let rel := pkt 0x21 .h0 (leBytes 8 0x1000 ++ leBytes 8 312)
    let ver := pkt 0x22 .h0 (leBytes 8 0x1000 ++ leBytes 8 312 ++ zeros 4)
    let s := asked (holding (inMode 1) 0x1000 jobPart) rel
    let p := withJobs s [scanJob] [{ aStripe 3 .admitted with data := 0x1000 }]
    let v := asked (holding (inMode 1) 0x1000 jobPart) ver
    s.awaits rel = true ∧ s.mayDecide rel ⟨0x21, fn01, modesRunHold, s.fJsLen rel 0x20 0x28 8⟩ = true ∧
    overlap 0x1000 312 s.partArea 67108864 = false ∧ s.pinnedEntry 0x1000 312 = none ∧ reply (exec (.release rel) s) = [(0, 0, 0)] ∧
    p.mayDecide rel ⟨0x21, fn01, modesRunHold, p.fJsLen rel 0x20 0x28 8⟩ = true ∧ p.pinnedEntry 0x1000 312 = some 0 ∧
    reply (exec (.release rel) p) = [(0x11, 4 * 2 ^ 24, 0)] ∧
    v.awaits ver = true ∧ v.mayDecide ver ⟨0x22, fn01, modesRun, v.fJsLen ver 0x20 0x28 8 ++ [anyField 0x30 4]⟩ = true ∧
    v.portWaits 5 [(0x1000, 312)] = false ∧ v.badBlock 0x1000 312 = none ∧ v.errBlocks 0x1000 312 = [] ∧ (reply (exec (.verify ver) v)).map (·.1) = [0] := by decide +kernel

/-- The smallest stripe of that job: one bin without primitives, one line. -/
def stripeData : List Byte :=
  record 6 (leBytes 4 0 ++ zeros 4 ++ leBytes 8 0 ++ leBytes 8 0 ++ leBytes 8 304 ++ leBytes 4 0 ++ leBytes 4 0 ++ zeros 256) ++
  record 12 (leBytes 4 1 ++ leBytes 4 1)

/-- STRIPE_ADMIT of it under facet generation 9. -/
def admitPk (op : Nat) (fn : Master) : Packet :=
  pkt op fn (leBytes 4 7 ++ leBytes 4 1 ++ [0#8, 0#8] ++ leBytes 2 9 ++ leBytes 4 1000 ++ leBytes 8 0x2000 ++ leBytes 8 320 ++ zeros 8)

/-- The part with job 7 open, facet generation 9 ready, and the stripe in the job store. -/
def admitState (m op : Nat) (fn : Master) : State :=
  asked ((withJobs (holding (inMode m) 0x2000 stripeData) [scanJob] []).wr (rBmhGen 4) (2 * 2 ^ 30 + 9)) (admitPk op fn)

set_option maxRecDepth 20000 in
/-- The hypotheses of StripesAreAdmitted for an admission at once, and its answer. -/
theorem witness_stripe_admit :
    let pk := admitPk 0x11 .h0
    let s := admitState 1 0x11 .h0
    let fx := admitPk 0x82 .h3
    let sf := admitState 2 0x82 .h3
    let sn := admitState 3 0x82 .h3
    s.awaits pk = true ∧ s.admits pk scanJob = true ∧ s.genStands pk scanJob = true ∧ s.lay.stripes.length < 8 ∧
    s.ddr.errs = [] ∧ s.rbufSound pk = true ∧ sf.rbufSound fx = true ∧ s.stripeOf s.nextHandle = none ∧ s.mayDecide pk ⟨0x11, [.h0], modesRun, s.fStripeAdmit pk false⟩ = true ∧
    reply (exec (.stripeAdmit pk) s) = [(0, 1, 1000)] ∧
    sf.awaits fx = true ∧ sf.admits fx scanJob = true ∧ sf.genStands fx scanJob = true ∧
    sf.mayDecide fx (fxSpec 0x82 (sf.fStripeAdmit fx true)) = true ∧ sf.mode = 2 ∧
    (nextOf (exec (.fxStripe fx) sf)).run.queue.length = 1 ∧ sn.admits fx scanJob = true ∧
    sn.mayDecide fx (fxSpec 0x82 (sn.fStripeAdmit fx true)) = true ∧ sn.mode ≠ 2 ∧ reply (exec (.fxStripe fx) sn) = [(4, 0, 0)] := by decide +kernel

/-- An admission that waits for facet generation 9. -/
def waitState (slot : Nat) : State :=
  let pk := admitPk 0x11 .h0
  let s := decided ((withJobs (inMode 1) [scanJob] []).wr (rBmhGen 4) (slot * 2 ^ 30 + 9)) pk
  { s with lay := { s.lay with waiting := [⟨pk, aStripe 0 .admitted, 0⟩] } }

/-- The hypotheses of StripesAreAdmitted for an admission that has waited: the generation ready, and still filling. -/
theorem witness_stripe_wait :
    let pk := admitPk 0x11 .h0
    let r := waitState 2
    let f := waitState 1
    r.waitOf pk = some ⟨pk, aStripe 0 .admitted, 0⟩ ∧ r.awaits pk = true ∧ r.waitSlot (aStripe 0 .admitted) = some 4 ∧ r.slotState 4 ≠ 1 ∧
    (r.jobOf 7).isSome = true ∧ r.rbufSound pk = true ∧ f.fillTies 4 = false ∧ r.stripeOf r.nextHandle = none ∧ reply (exec (.readyByWaitEnd pk) r) = [(0, 1, 1000)] ∧
    f.waitOf pk = some ⟨pk, aStripe 0 .admitted, 0⟩ ∧ f.awaits pk = true ∧ f.waitSlot (aStripe 0 .admitted) = some 4 ∧ f.slotState 4 = 1 ∧
    (reply (exec (.waitUsExpiry pk) f)).map (·.1) = [0x14] := by decide +kernel

/-- The hypotheses of CancelsAndHoleReads. -/
theorem witness_cancel_holes :
    let pk := pkt 0x13 .h0 (leBytes 4 3)
    let fx := pkt 0x83 .h3 []
    let s := asked (withJobs (inMode 5) [scanJob] [aStripe 3 .armed]) pk
    let n := asked (inMode 1) pk
    let sf := { asked (withJobs (inMode 3) [scanJob] [aStripe 3 .admitted]) fx with lay := { LayState.reset with
      jobs := [scanJob], stripes := [aStripe 3 .admitted], fxHandle := 3 } }
    let hp := pkt 0x15 .h1 (leBytes 4 0 ++ leBytes 2 1 ++ [1#8, 0#8]) 0x1000 95
    let hx := pkt 0x84 .h3 (leBytes 4 0 ++ leBytes 2 0 ++ zeros 2) 0x1000 96
    let h : Hole := ⟨1, 7, 0, 0, 1, 0, 1, true, false, false, 0, 0, 0⟩
    let sh := { asked (inMode 1) hp with lay := { LayState.reset with holes := [h, { h with logSeq := 1 }] } }
    let sx := { asked (inMode 1) hx with lay := { LayState.reset with holes := [h, { h with logSeq := 1 }] } }
    s.awaits pk = true ∧ s.mayDecide pk ⟨0x13, [.h0], modesRunHold, [anyField 0x20 4]⟩ = true ∧ s.stripeOf 3 = some (aStripe 3 .armed) ∧
    s.otherSteps pk (aStripe 3 .armed) = true ∧ reply (exec (.stripeCancel pk) s) = [(0, 0, 1)] ∧
    n.mayDecide pk ⟨0x13, [.h0], modesRunHold, [anyField 0x20 4]⟩ = true ∧ n.stripeOf 3 = none ∧ n.esc.cancels = none ∧ sh.rbufSound hp = true ∧ sx.rbufSound hx = true ∧ Memory.wf sh.hostMem = true ∧
    sf.awaits fx = true ∧ sf.mayDecide fx (fxSpec 0x83 []) = true ∧ sf.stripeOf sf.lay.fxHandle = some (aStripe 3 .admitted) ∧
    sf.otherSteps fx (aStripe 3 .admitted) = true ∧ reply (exec (.fxAbort fx) sf) = [(0, 0, 1)] ∧
    sh.mayDecide hp ⟨0x15, fn01, modesAny, fHoleRead false⟩ = true ∧ reply (exec (.holeRead hp) sh) = [(0, 0, 1)] ∧
    (nextOf (exec (.holeRead hp) sh)).lay.holes.length = 1 ∧
    sx.mayDecide hx (fxSpec 0x84 (fHoleRead true)) = true ∧ reply (exec (.fxHoles hx) sx) = [(0, 0, 2)] := by decide +kernel

/-! ### Generations and CHECK runs -/

/-- A 64-byte record whose last word is the CRC-32C of the rest. -/
def crcRecord (bs : List Byte) : List Byte := bs ++ leBytes 4 (crc32c bs)

/-- A kernel record (Table 6-2), a facet record of one facet (Table 8-6), a calibration header (Table 7-5). -/
def kernelRec : List Byte := crcRecord (leBytes 2 1 ++ zeros 58)
def facetRec : List Byte :=
  let f := zeros 16
  crcRecord (leBytes 2 1 ++ [1#8] ++ zeros 53 ++ leBytes 4 (crc32c f)) ++ f
def calHead : List Byte := crcRecord (leBytes 2 1 ++ zeros 58)

/-- A load of generation 0xFFFF from 0x1000. -/
def loadPk (op : Nat) (order : Byte) : Packet := pkt op .h1 (leBytes 8 0x1000 ++ leBytes 2 0xFFFF ++ [order, 0#8])

/-- A job store with a region of this length that begins with these bytes. -/
def loadState (op len : Nat) (bs : List Byte) (order : Byte) : State :=
  let s := asked (holding (inMode 1) 0x1000 bs) (loadPk op order)
  { s with lay := { s.lay with regions := [⟨0x1000, len, 8, 0x1000⟩] } }

/-- The hypotheses of GenerationsLoadFillAndRetire for the three loads. -/
theorem witness_loads :
    let k := loadState 0x32 64 kernelRec 0
    let f := loadState 0x33 80 facetRec 0
    let c := loadState 0x30 0x180040 calHead 1
    ((k.storesOk && k.boundsOk) = true ∧ k.gen.slots.length = 6 ∧
      k.mayDecide (loadPk 0x32 0) ⟨0x32, fn01, modesRun, [k.fJs 0x20 64, fGen 0x28]⟩ = true ∧ k.portWaits 2 [(0x1000, 64)] = false ∧ kernelBad (k.jsRead 0x1000 64) = none ∧
      k.slotOf 1 0xFFFF = none ∧ k.freeOf 1 = some 2 ∧ k.notCovered 0x1000 64 = none ∧ k.badBlock 0x1000 64 = none ∧
      k.errBlocks 0x1000 64 = [] ∧ k.dma.swaps = [] ∧ k.awaits (loadPk 0x32 0) = true ∧
      (nextOf (exec (.heatLoad (loadPk 0x32 0)) k)).slotState 2 = 1) ∧
    ((f.storesOk && f.boundsOk) = true ∧ f.facetLen 0x1000 = 80 ∧
      f.mayDecide (loadPk 0x33 0) ⟨0x33, fn01, modesRun, [f.fJs 0x20 (f.facetLen 0x1000), fGen 0x28]⟩ = true ∧
      f.portWaits 2 [(0x1000, 80)] = false ∧ facetBad (f.jsRead 0x1000 80) = none ∧ f.slotOf 2 0xFFFF = none ∧ f.freeOf 2 = some 4 ∧ f.notCovered 0x1000 80 = none ∧ f.badBlock 0x1000 80 = none ∧
      f.errBlocks 0x1000 80 = [] ∧ f.dma.swaps = [] ∧
      (nextOf (exec (.facetLoad (loadPk 0x33 0)) f)).slotState 4 = 1) ∧
    ((c.storesOk && c.boundsOk) = true ∧
      c.mayDecide (loadPk 0x30 1) ⟨0x30, fn01, modesRun, [c.fJs 0x20 0x180040, fGen 0x28, ⟨0x2A, 1, fun v => decide (v < 2)⟩]⟩ = true ∧
      c.portWaits 4 [(0x1000, 0x40)] = false ∧ calHeaderBad (c.jsRead 0x1000 0x40) = none ∧ c.slotOf 0 0xFFFF = none ∧ c.freeOf 0 = some 0 ∧ c.notCovered 0x1000 0x180040 = none ∧
      c.badBlock 0x1000 0x40 = none ∧ c.errBlocks 0x1000 0x40 = [] ∧ c.dma.swaps = []) := by decide +kernel

/-- Slot 5 filling for a load that waits, and slot 3 ready. -/
def fillState : State :=
  let pk := loadPk 0x33 0
  let s := decided (((inMode 1).wr (rBmhGen 5) (2 ^ 30 + 9)).wr (rBmhGen 3) (2 * 2 ^ 30 + 8)) pk
  { s with gen := { s.gen with slots := s.gen.slots.set 5 ⟨.facet ⟨[0], [0]⟩, some ⟨pk, none, 0⟩, 0⟩ } }

/-- Slot 5 filling from these bytes, all of which channel 2 has written. -/
def filledState (got : List Byte) : State :=
  let s := fillState.setFld (rDmaStat 2) 30 2 1
  { s with
    gen := { s.gen with slots := s.gen.slots.set 5 ⟨.empty, some ⟨loadPk 0x33 0, some ⟨[], got⟩, 0⟩, 0⟩ }
    dma := { s.dma with load := some 5 } }.setChan 2 { s.dmaChan 2 with read := s.dmaIn 2, wrote := s.dmaOut 2 }

set_option maxRecDepth 20000 in
/-- The hypotheses of GenerationsLoadFillAndRetire for a load whose bytes are there, right and wrong. -/
theorem witness_fill_checked :
    let s := filledState facetRec
    let w := filledState (zeros 80)
    let f (b : List Byte) : Fill := ⟨loadPk 0x33 0, some ⟨[], b⟩, 0⟩
    (s.storesOk && s.boundsOk) = true ∧ (w.storesOk && w.boundsOk) = true ∧ s.gen.slots[5]? = some ⟨.empty, some (f facetRec), 0⟩ ∧
    s.slotState 5 = 1 ∧ s.awaits (loadPk 0x33 0) = true ∧ s.dma.loads = [] ∧ s.dmaState 2 = 1 ∧ s.burstOf 2 = none ∧
    (match s.fillCheck 5 ⟨.empty, some (f facetRec), 0⟩ (f facetRec) with | .ok t => t == .facet (facetParse (facetRec ++ zeros 1008)) | .error _ => false) = true ∧
    (nextOf (exec (.genFillDone 5) s)).slotState 5 = 2 ∧
    (match w.fillCheck 5 ⟨.empty, some (f (zeros 80)), 0⟩ (f (zeros 80)) with | .ok _ => 0 | .error o => o) = 0x3C ∧
    w.waitOf (loadPk 0x33 0) = none ∧ (nextOf (exec (.genFillDone 5) w)).slotState 5 = 0 := by decide +kernel

/-- The hypotheses of GenerationsLoadFillAndRetire for a fill and a retirement. -/
theorem witness_fill_retire :
    let s := fillState
    let pk := pkt 0x31 .h0 ([1#8, 0#8] ++ leBytes 2 8)
    let r := asked fillState pk
    (s.storesOk && s.boundsOk) = true ∧ s.gen.slots[5]? = some ⟨.facet ⟨[0], [0]⟩, some ⟨loadPk 0x33 0, none, 0⟩, 0⟩ ∧ s.dma.load = none ∧ r.dose.retire = [] ∧ s.slotState 5 = 1 ∧
    s.awaits (loadPk 0x33 0) = true ∧ (nextOf (exec (.genFillDone 5) s)).slotState 5 = 2 ∧
    r.awaits pk = true ∧ r.mayDecide pk ⟨0x31, fn01, modesRunHold, [⟨0x20, 1, fun v => decide (v < 3)⟩, anyField 0x22 2]⟩ = true ∧
    r.slotOf 1 8 = some 3 ∧ r.slotState 3 = 2 ∧ r.passKernel 3 = false ∧ (nextOf (exec (.genRetire pk) r)).slotState 3 = 0 := by decide +kernel

/-- CHECK_RUN of one shot, FULL, and a run under way with this many shots and readings. -/
def checkPk : Packet := pkt 0x40 .h0 (leBytes 2 2 ++ leBytes 2 4096 ++ leBytes 4 5)
def aRun (shot reading : Nat) (damaged done : Bool) : CheckRun :=
  { pk := checkPk, kind := 1, slice := 0, reps := 1, run := 5, base := 0, rate := 0, vHi := 255, vLo := 0, reading := reading, now := 0,
    redo := [], redone := [], shot := shot, total := 1, damaged := damaged, qb := [], qd := [], beams := [], pendH := [], stuck := 0, sat := false, done := done,
    complete := false, qref := 0, weakG := 0, cut := false }
def running (c : CheckRun) : State :=
  let s := decided (inMode 4) checkPk
  { s with gen := { s.gen with cur := some c } }

/-- The hypotheses of CheckRunsBeginShootAndEnd: the greatest repeat count, a waiting run, and each moment of a run. -/
theorem witness_check_runs :
    let s := asked (inMode 4) checkPk
    let q := { s with gen := { s.gen with cur := some (aRun 0 0 false false) } }
    let volts : List Int := List.replicate 8 1249000000
    (s.storesOk && s.boundsOk) = true ∧ s.awaits checkPk = true ∧
    s.mayDecide checkPk ⟨0x40, fn01, [4], [⟨0x20, 2, fun v => decide (1 ≤ v % 16) && decide (v % 16 ≤ 3) && decide (v < 256)⟩,
      ⟨0x22, 2, fun v => decide (1 ≤ v) && decide (v ≤ 4096)⟩, anyField 0x24 4]⟩ = true ∧
    s.gen.cur = none ∧ s.gen.queue = [] ∧ s.buildReads = false ∧ s.leavesCheck = false ∧
    ((nextOf (exec (.checkRun checkPk) s)).gen.cur.map (·.reps)) = some 4096 ∧
    q.gen.cur = some (aRun 0 0 false false) ∧ (nextOf (exec (.checkRun checkPk) q)).gen.queue = [checkPk] ∧
    ((running (aRun 0 0 false false)).storesOk && (running (aRun 0 0 false false)).boundsOk) = true ∧
    (running (aRun 0 0 false false)).mode = 4 ∧ (aRun 0 0 false false).shot < (aRun 0 0 false false).reps ∧
    { aRun 0 0 false false with cut := true }.cut = true ∧
    (let l := (running (aRun 0 0 false false)).setFlag rBalCfg 31 true
     l.linkUp = true ∧ l.bal.late.contains 1 = false ∧ goesOn (exec .checkPatternShot l) = true) ∧
    (running (aRun 1 2 false true)).rbufSound checkPk = true ∧ (aRun 0 0 false false).total ≠ 0 ∧ s.gen.checkFrom ≤ checkPk.id ∧ (aRun 1 0 true false).redone.contains 0 = false ∧
    ((nextOf (exec (.readingDone volts) (running (aRun 1 0 true false)))).gen.cur.map (·.redone)) = some [0] ∧
    (List.range 8).all (fun d => adcCode (volts.getD d 0) == 4093) = true ∧
    ((nextOf (exec (.readingDone volts) (running (aRun 1 0 false false)))).gen.cur.map (fun c => (c.reading, c.qb))) =
      some (1, List.replicate 8 4093) ∧
    (running (aRun 1 0 false false)).bal.span = false ∧
    (running (aRun 1 2 false true)).awaits checkPk = true ∧ (running (aRun 1 2 false true)).gen.queue = [] ∧
    (nextOf (exec .checkRunEnd { running (aRun 1 2 false true) with bal := { BalState.reset with span := true, blankAll := false } })).bal.blankAll = true := by decide +kernel

/-- A run that is kept. -/
def keptState (pk : Packet) (kind : Nat) : State :=
  let s := asked ((inMode 1).setFlag rMemStat 31 true) pk
  { s with gen := { s.gen with kept := some { aRun 1 2 false true with kind := kind, complete := true } } }

/-- The hypotheses of CheckResultsAreReadAndBuilt. -/
theorem witness_check_results :
    let rd := pkt 0x41 .h0 (leBytes 4 5 ++ zeros 4 ++ leBytes 8 0x1000)
    let bl := pkt 0x42 .h0 (leBytes 4 5 ++ leBytes 2 1 ++ zeros 2)
    let a := keptState rd 1
    let b := keptState bl 2
    (a.storesOk && a.boundsOk) = true ∧ a.awaits rd = true ∧
    a.mayDecide rd ⟨0x41, fnAll, modesAny, [anyField 0x20 4, ⟨0x28, 8, fun a' => a' % 64 == 0 && decide (a' < a.jsSize) &&
      decide (a' + 2097216 ≤ a.jsSize)⟩]⟩ = true ∧ a.destRefused 0x1000 2097216 = none ∧ (a.gen.kept.map (·.run)) = some (pkU rd 0x20 4) ∧
    (b.storesOk && b.boundsOk) = true ∧ b.awaits bl = true ∧ b.mayDecide bl ⟨0x42, fn01, [1, 2, 4], [anyField 0x20 4, fGen 0x24]⟩ = true ∧
    (b.gen.kept.map (fun c => (c.kind, c.complete, c.stuck, c.run))) = some (2, true, 0, pkU bl 0x20 4) ∧ b.gen.slots.length = 6 ∧
    b.slotOf 0 1 = none ∧ b.freeOf 0 = some 0 ∧ a.portWaits 2 [(0x1000, 2097216)] = false ∧ a.chanFault 0x1000 2097216 = none := by decide +kernel

/-- The hypotheses of CheckResultsAreReadAndBuilt for a QUICK run, without its base generation and with it. -/
theorem witness_quick_build :
    let bl := pkt 0x42 .h0 (leBytes 4 5 ++ leBytes 2 1 ++ zeros 2)
    let q := keptState bl 3
    let t : State := { q with gen := { q.gen with
      slots := q.gen.slots.set 1 ⟨.cal [] 1 1 255 0, none, 0⟩
      kept := some { aRun 1 2 false true with kind := 3, complete := true, base := 9 } } }.wr (rBmhGen 1) (2 ^ 31 + 2 ^ 27 * q.thrMlog + 9)
    q.slotOf 0 1 = none ∧ q.freeOf 0 = some 0 ∧ (q.gen.kept.map (fun c => (q.buildBase c q.thrMlog).isNone)) = some true ∧
    reply (exec (.calBuild bl) q) = [(0x14, 2 ^ 24, 0)] ∧ (t.gen.kept.map (fun c => t.buildBase c t.thrMlog)) = some (some []) ∧
    t.slotOf 0 1 = none ∧ t.freeOf 0 = some 0 := by decide +kernel

/-! ### Steps on RUN_SYNC -/

/-- MODE_ARM to ARRAY at a time of `ns` nanoseconds, and STRIPE_ARM of a handle. -/
def armPk (target : Byte) (ns : Nat) : Packet := pkt 0x02 .h0 ([target, 0#8, 0#8, 0#8] ++ zeros 12 ++ leBytes 8 0 ++ leBytes 4 ns ++ zeros 4)
def stripeArmPk (h ns : Nat) : Packet := pkt 0x12 .h0 (leBytes 4 h ++ zeros 12 ++ leBytes 8 0 ++ leBytes 4 ns ++ zeros 4)

/-- The hypotheses of StepCommandsWaitForTheirTime: t_open exactly 100 µs ahead, and 1 ns less. -/
theorem witness_step_commands :
    let ok := armPk 2 100000
    let near := armPk 2 99999
    let bad := armPk 3 100000
    let so := stripeArmPk 0 100000
    let sn := stripeArmPk 3 99999
    let s := fun p => asked (inMode 1) p
    let r := fun p => asked (inMode 2) p
    (s ok).awaits ok = true ∧ (s ok).mayDecide ok ⟨0x02, [.h0], modesRun, fModeArm⟩ = true ∧ (s ok).transitionOk 2 = true ∧
    (s ok).now40 + 100000 * 2 ^ 40 ≤ time40 (slice ok.bytes 0x30 16) ∧ (nextOf (exec (.modeArm ok) (s ok))).run.queue.length = 1 ∧
    (s near).mayDecide near ⟨0x02, [.h0], modesRun, fModeArm⟩ = true ∧ reply (exec (.modeArm near) (s near)) = [(2, 0x30, 0)] ∧
    (s bad).mayDecide bad ⟨0x02, [.h0], modesRun, fModeArm⟩ = true ∧ (s bad).transitionOk 3 = false ∧
    reply (exec (.modeArm bad) (s bad)) = [(0x15, 0, 0)] ∧
    (r so).awaits so = true ∧ (r so).mayDecide so ⟨0x12, [.h0], [2, 3], fStripeArm⟩ = true ∧
    ((nextOf (exec (.stripeArm so) (r so))).run.queue.map (·.handle)) = [2 ^ 32] ∧
    (r sn).mayDecide sn ⟨0x12, [.h0], [2, 3], fStripeArm⟩ = true ∧ reply (exec (.stripeArm sn) (r sn)) = [(2, 0x30, 0)] := by decide +kernel

/-- A step command to CHECK, and the state with a step of it in a phase. -/
def toCheck : StepCmd := ⟨armPk 4 0, 0, 4, 0, 2000, 50000⟩
def stepState (m : Nat) (cmd : Option StepCmd) (ph : StepPhase) (detail : Nat) : State :=
  let s := decided (inMode m) (armPk 4 0)
  { s with run := { s.run with line := true, pull := false, cur := some ⟨cmd, 0, 0, ph, [], detail, false⟩ } }
def queuedState (m : Nat) (c : StepCmd) : State :=
  let s := inMode m
  { s with run := { s.run with line := true, pull := false, queue := [c] } }

/-- The hypotheses of StepsOpenArmAndCommit. -/
theorem witness_steps :
    let q := queuedState 4 { toCheck with target := 1 }
    let u : State := { (inMode 1) with run := { (inMode 1).run with line := true, pull := false } }
    q.mode ≠ 0 ∧ q.mode ≠ 5 ∧ earliest q.run.queue = some { toCheck with target := 1 } ∧ q.run.cur = none ∧
    q.stepFails { toCheck with target := 1 } = none ∧ (nextOf (exec .tOpenReached q)).run.pull = true ∧
    u.dom.main = true ∧ u.dom.resetting ≠ 2 ∧ u.run.queue = [] ∧ u.run.cur = none ∧ ((nextOf (exec .runSyncFall u)).run.cur.map (·.phase)) = some .unarmed ∧
    (stepState 1 (some toCheck) .validating 0).run.cur = some ⟨some toCheck, 0, 0, .validating, [], 0, false⟩ ∧
    (stepState 1 (some toCheck) .validating 0).spreadHolds ⟨some toCheck, 0, 0, .validating, [], 0, false⟩ = false ∧
    (nextOf (exec .armDone (stepState 1 (some toCheck) .validating 0))).run.pull = false ∧
    (nextOf (exec .armedEdge (stepState 1 (some toCheck) .released 0))).run.step = 1#32 ∧
    (stepState 1 (some toCheck) .commitWait 0).esc.firing = none ∧ (stepState 1 (some toCheck) .commitWait 0).gen.cur = none ∧
    ((nextOf (exec .commitStepOpen (stepState 1 (some toCheck) .commitWait 0))).run.cur.map (·.phase)) = some .applied ∧
    (nextOf (exec .commitStepOpen { stepState 4 (some toCheck) .commitWait 0 with gen := { GenState.reset with cur := some (aRun 0 0 false false) } })).run.pull
      = true := by decide +kernel

/-- A stripe start of handle 3 in SCAN. -/
def startState : State :=
  let s := withJobs (stepState 3 (some { toCheck with handle := 3, target := 0 }) .applied 0) [scanJob] [aStripe 3 .armed]
  s

/-- The hypotheses of CommitEdgeChangesModeOrStartsTheStripe. -/
theorem witness_commit_edge :
    let s := stepState 1 (some toCheck) .applied 0
    let x := startState
    (s.storesOk && s.boundsOk) = true ∧ s.run.cur = some ⟨some toCheck, 0, 0, .applied, [], 0, false⟩ ∧ s.holdBehind s = false ∧ x.holdBehind x = false ∧ s.mode ∈ modesRun ∧ s.run.queue = [] ∧
    toCheck.handle = 0 ∧ toCheck.target ∈ modesRun ∧ s.awaits toCheck.pk = true ∧ toCheck.pk ∉ s.gen.queue ∧
    (nextOf (exec .commitEdge s)).mode = 4 ∧
    (x.storesOk && x.boundsOk) = true ∧ x.stripeOf 3 = some (aStripe 3 .armed) ∧ x.jobOf 7 = some scanJob ∧ scanJob.chans = 1 ∧
    scanJob.chans % 2 ^ min 4 (x.fld rScnCfg 0 3) = 0 ∧
    ((nextOf (exec .commitEdge x)).stripeOf 3).map (·.phase) = some .started := by decide +kernel

/-- The hypotheses of FailedStepsGuardAndClose. -/
theorem witness_failed_steps :
    let s := stepState 1 (some toCheck)
    (nextOf (exec .unarmedStepEnd (stepState 1 none .unarmed 0))).run.pull = false ∧
    (s .released 0).edgeTies = false ∧ (s .released 0).stripeOf toCheck.handle = none ∧ ((nextOf (exec .windowExpiry (s .released 0))).run.cur.map (·.phase)) = some .guard ∧
    ((nextOf (exec .windowExpiry (s .applied 0))).run.cur.map (·.phase)) = some .guard ∧
    (s .guard 0).awaits toCheck.pk = true ∧ reply (exec .guardEnd (s .guard (2 ^ 64))) = [(2, 0x20, 0)] ∧
    reply (exec .guardEnd (s .guard (2 ^ 64 - 1))) = [(0x13, 2 ^ 32 - 1, 2 ^ 32 - 1)] ∧
    (s .guardDone 0).run.queue = [] ∧ (nextOf (exec .stepClosingRise (s .guardDone 0))).run.cur = none ∧
    (nextOf (exec .stepClosingRise (stepState 1 none .unarmedReleased 0))).run.step = 1#32 := by decide +kernel

/-! ### HOLD, faults -/

/-- The hypotheses of HoldStopsEverything: a packet in CHECK, the long low in ARRAY, and raises at severities 3 and 4. -/
theorem witness_hold :
    let pk := pkt 0x03 .h2 (zeros 4)
    let s := asked (inMode 4) pk
    let r := inMode 2
    let r4 : State := { r with flt := { r.flt with sevs := [(srcMem 6 3, 4)] } }
    (s.storesOk && s.boundsOk) = true ∧ s.mode ∈ modesRun ∧ s.mayDecide pk ⟨0x03, fnAll, modesAny, [anyField 0x20 4]⟩ = true ∧
    (nextOf (exec (.hold pk) s)).mode = 5 ∧ (r.storesOk && r.boundsOk) = true ∧ r.mode ∈ modesRun ∧ exposing r.mode = true ∧ r.run.cur = none ∧ r.sevNow (srcMem 6 3) = 3 ∧
    r.ties (· == .stepClosingRise) = false ∧ r.inTurn (srcMem 6 3, false) = true ∧ r.dom.cfgDone = true ∧ (nextOf (exec .runSyncLongLow r)).fld rFltHold 28 4 = 3 ∧
    r.collects (srcMem 6 3) = true ∧ (r.recOf (srcMem 6 3)).state = 0 ∧ (r.recOf (srcMem 6 3)).stands = false ∧ r.pairHeld (srcMem 6 3) = false ∧
    r.injected (srcMem 6 3) = false ∧ r.sevOf (srcMem 6 3) = 3 ∧ (nextOf (exec (.faultRaise (srcMem 6 3)) r)).mode = 5 ∧
    (r4.storesOk && r4.boundsOk) = true ∧ r4.sevOf (srcMem 6 3) = 4 ∧ (nextOf (exec (.faultRaise (srcMem 6 3)) r4)).mode = 5 := by decide +kernel

/-- A heartbeat of index 5 with ALLSTOP. -/
def allstopFrame : List Byte :=
  let head := leBytes 2 0x4E5A ++ [1#8, 5#8, 5#8, 1#8] ++ zeros 34
  head ++ leBytes 4 (crc32c head) ++ zeros 2

/-- The hypotheses of HoldStopsEverything for the ALLSTOP heartbeat of a member of the roster. -/
theorem witness_allstop :
    let u := (inMode 2).setFlag (rTimPcfg 1) 31 true
    let s : State := { u with net := { u.net with roster := [5], ports := u.net.ports.map (fun x => { x with link := true }) } }
    let f := allstopFrame
    (s.storesOk && s.boundsOk) = true ∧ s.mode ∈ modesRun ∧ s.portUp 1 = true ∧ f.length ≤ 1500 ∧ getU f 0 2 = 0x4E5A ∧
    getU f 0x28 4 = crc32c (slice f 0 0x28) ∧ getU f 2 1 = 1 ∧ s.net.ports.any (fun x => x.mac == 77) = false ∧ s.net.recent = [] ∧
    getU f 3 1 = 5 ∧ s.sysIdx ≠ 5 ∧ bitAt (getU f 5 1) 0 = true ∧
    (nextOf (exec (.heartbeatReceive 1 77 ⟨0x88B5, f⟩) s)).fld rFltHold 28 4 = 4 := by decide +kernel

/-- The part in HOLD with automatic recovery, so many recoveries lately, and these CLEAR_HOLDs waiting. -/
def inHold (times : List T16) (clearing : List Packet) : State :=
  let s := (inMode 5).setFlag rFltRecovCfg 31 true
  { s with flt := { s.flt with recTimes := times, clearing := clearing } }

/-- The hypotheses of HoldEndsInService: no recovery yet, and as many as the limit. -/
theorem witness_hold_ends :
    let pk := pkt 0x04 .h1 []
    let s := inHold [] []
    let c := { inHold [] [pk] with cmd := (decided (inMode 5) pk).cmd }
    let l := inHold (List.replicate (max 1 (s.fld rFltRecovCfg 16 8)) 0) []
    (s.storesOk && s.boundsOk) = true ∧ s.mode = 5 ∧ s.condStands = false ∧ s.flt.latched = false ∧ s.onClock s.flt.lastSev2 = false ∧
    (asked s pk).mayDecide pk ⟨0x04, fn01, [5], []⟩ = true ∧ (nextOf (exec (.clearHold pk) (asked s pk))).flt.clearing = [pk] ∧
    (c.storesOk && c.boundsOk) = true ∧ c.flt.clearing ≠ [] ∧ c.mayRecover = true ∧ c.condStands = false ∧
    c.holdBehind ({ c with flt := { c.flt with clearing := [] } }.setFld rFltRecov 16 16 (satAdd 0xFFFF (c.fld rFltRecov 16 16) 1)).enterService = false ∧
    s.holdBehind ({ s with flt := { s.flt with recTimes := s.recentRecoveries ++ [s.tim.elapsed] } }.setFld rFltRecov 0 16
      (satAdd 0xFFFF (s.fld rFltRecov 0 16) 1)).enterService = false ∧
    (nextOf (exec .hostClearServiceEntry c)).mode = 1 ∧
    s.mayRecover = true ∧ s.flt.allstop = false ∧ s.flag rFltRecovCfg 31 = true ∧ s.fld rFltHold 28 4 ≠ 2 ∧
    s.recentRecoveries.length < max 1 (s.fld rFltRecovCfg 16 8) ∧ (nextOf (exec .autoRecovery s)).mode = 1 ∧
    max 1 (l.fld rFltRecovCfg 16 8) ≤ l.recentRecoveries.length ∧ (nextOf (exec .autoRecovery l)).flt.latched = true := by decide +kernel

/-- The hypotheses of RaisesAreRecordedAndLogged, with room in the log and with a full log at the wrap of its sequence. -/
theorem witness_raises :
    let src := srcAccess
    let s := inMode 2
    let e : LogEntry := ⟨65535, src, 0, 0, 0, 1, 0, 0, 0, 0, 0⟩
    let spared : State := { s with flt := { s.flt with recs := [⟨srcLaneSpared, 1, false, false, false, 0, 1, 0, 0, false, false, 0⟩] } }
    let full : State := { s with flt := { s.flt with log := List.replicate 256 e, nextSeq := 65535 } }
    let quiet := fun (x : State) => x.collects src && (x.recOf src).state == 0 && !(x.recOf src).stands && !x.pairHeld src && !x.injected src &&
      x.raisesQuietly src
    (s.storesOk && s.boundsOk) = true ∧ quiet s = true ∧ (full.storesOk && full.boundsOk) = true ∧ quiet full = true ∧
    (nextOf (exec (.faultRaise src) full)).flt.log.length = 256 ∧ (nextOf (exec (.faultRaise src) full)).flt.nextSeq = 0 ∧
    s.inTurn (src, false) = true ∧ full.inTurn (src, false) = true ∧ s.inTurn (src, true) = true ∧ spared.inTurn (srcLaneSpared, true) = true ∧
    (s.recOf src).wire = false ∧ 2 ≤ ((nextOf (exec (.wireFault src) s)).recOf src).eff ∧
    isMerging srcLaneSpared = true ∧ (spared.storesOk && spared.boundsOk) = true ∧ spared.collects srcLaneSpared = true ∧
    (spared.recOf srcLaneSpared).state = 1 ∧ (spared.recOf srcLaneSpared).wire = false ∧
    ((nextOf (exec (.wireFault srcLaneSpared) spared)).recOf srcLaneSpared).wire = true ∧
    (nextOf (exec (.wireFault srcLaneSpared) spared)).flt.nextSeq = spared.flt.nextSeq := by decide +kernel

/-- A record of ACCESS, unacknowledged, with or without its condition. -/
def withRec (s : State) (st : Nat) (cond : Bool) : State :=
  { s with flt := { s.flt with recs := [⟨srcAccess, st, cond, false, false, 0, 1, 0, 0, false, false, 0⟩] } }

/-- The hypotheses of RecordsSeveritiesAndAliveFollowTheirCommands. -/
theorem witness_records :
    let ack := pkt 0x91 .h0 (leBytes 4 srcAccess)
    let all := pkt 0x8B .h3 (leBytes 4 0xFFFF)
    let sev := pkt 0x93 .h1 (leBytes 2 srcAccess ++ [4#8, 0#8])
    let inj := pkt 0x92 .h2 (leBytes 4 srcAccess ++ leBytes 4 1 ++ leBytes 4 1)
    let a := asked (withRec (inMode 5) 1 true) ack
    let b := asked (withRec (inMode 1) 1 false) all
    let i := asked (inMode 1) inj
    let lock : State := { inMode 1 with flt := { FltState.reset with
      inj := [⟨srcLaneLock, 0, 0, false, false⟩], recs := [⟨srcLaneLock, 2, false, true, false, 1, 1, 0, 0, false, false, 0⟩] } }
    let ended (cond wire : Bool) : State :=
      { inMode 1 with flt := { FltState.reset with recs := [⟨srcAccess, 2, cond, false, wire, 1, 1, 0, 0, false, false, 0⟩] } }
    let during : State := { inMode 1 with flt := { FltState.reset with inj := [⟨srcAccess, 1, 0, false, false⟩] } }
    (a.storesOk && a.boundsOk) = true ∧ a.awaits ack = true ∧ a.mayDecide ack ⟨0x91, fn01, modesAny, fFaultAck⟩ = true ∧
    ((nextOf (exec (.faultAck ack) a)).recOf srcAccess).state = 2 ∧ (a.recOf srcAccess).stands = true ∧
    b.awaits all = true ∧ b.mayDecide all (fxSpec 0x8B fFaultAck) = true ∧ ((nextOf (exec (.fxFaultAck all) b)).recOf srcAccess).state = 0 ∧
    (asked (inMode 1) sev).mayDecide sev ⟨0x93, [.h1], [1],
      [⟨0x20, 2, isSource⟩, ⟨0x22, 1, fun v => decide (v ≤ 4) && decide (minSev (pkU sev 0x20 2) ≤ v)⟩]⟩ = true ∧
    (nextOf (exec (.severitySet sev) (asked (inMode 1) sev))).sevOf srcAccess = 4 ∧
    i.awaits inj = true ∧ i.mayDecide inj ⟨0x92, [.h1, .h2], [1], [⟨0x20, 2, isSource⟩, ⟨0x24, 4, injValueOk (pkU inj 0x20 2)⟩,
      anyField 0x28 4]⟩ = true ∧ i.injected srcAccess = false ∧ pkU inj 0x28 4 ≠ 0 ∧
    i.valueTrips srcAccess 1 = some true ∧ i.injTripsNow ⟨srcAccess, 1, t16us 1, true, false⟩ = true ∧ i.raisesQuietly srcAccess = true ∧
    (i.recOf srcAccess).stands = false ∧ i.valueTrips srcAccess 0 = some false ∧ i.injTripsNow ⟨srcAccess, 0, t16us 1, false, false⟩ = false ∧
    i.flt.inj = [] ∧ (nextOf (exec (.inject inj) i)).flt.inj.length = 1 ∧
    during.flt.inj.find? (fun j => j.src == srcAccess) = some ⟨srcAccess, 1, 0, false, false⟩ ∧ bitAt 1 31 = false ∧
    (nextOf (exec (.injectionExpiry srcAccess) during)).flt.inj = [] ∧ (during.recOf srcAccess).inj = false ∧
    lock.flt.inj.find? (fun j => j.src == srcLaneLock) = some ⟨srcLaneLock, 0, 0, false, false⟩ ∧ (lock.recOf srcLaneLock).inj = true ∧
    (lock.recOf srcLaneLock).cond = false ∧ (lock.recOf srcLaneLock).wire = false ∧ (lock.recOf srcLaneLock).state = 2 ∧
    ((nextOf (exec (.injectionExpiry srcLaneLock) lock)).recOf srcLaneLock).state = 0 ∧
    (ended true false).pairInjected srcAccess = false ∧ ((nextOf (exec (.levelConditionEnd srcAccess) (ended true false))).recOf srcAccess).state = 0 ∧
    (ended false true).pairInjected srcAccess = false ∧ ((nextOf (exec (.levelConditionEnd srcAccess) (ended false true))).recOf srcAccess).state = 0 ∧
    (inMode 4).aliveAllowed = true ∧ (inMode 1).aliveAllowed = false := by decide +kernel

/-! ### Position, shots and beam outputs -/

/-- A PLINK frame (Table 8-1) with sequence number `q` at y = 16, x = 0, valid. -/
def plinkFrame (q : Byte) : List Byte :=
  let body := [q] ++ leBytes 6 16 ++ leBytes 6 0 ++ [1#8]
  [0xFB#8] ++ body ++ beBytes 2 (crc16 body)

/-- The hypotheses of SamplesAreStampedAndFitted: a frame after sequence 255, a damaged one, each source, and the substitutes. -/
theorem witness_samples :
    let up := (inMode 2).setFlag rEscStat 10 true
    let s : State := { up with esc := { up.esc with refSeq := some 255 } }
    let enc : State := { up with applied := [(rEscCfg, 1#32)] }
    let balls : State := { (up.grant 15 0x32 0).grant 15 0x32 1 with applied := [(rEscCfg, 2#32)] }
    let d : State := { up with esc := { up.esc with decides := [7], arrived := [(⟨1, 2, 0⟩, 3)] } }
    let sub : State := { up with esc := { up.esc with entered := 8, samples := List.replicate 8 ⟨0, 0, 0⟩ } }
    (s.storesOk && s.boundsOk) = true ∧ s.dom.main = true ∧ s.flag rEscStat 10 = true ∧ s.apFld rEscCfg 0 2 = 0 ∧
    plinkCrcOk (plinkFrame 0) = true ∧ getU (plinkFrame 0) 1 1 = (255 + 1) % 256 ∧ getU (plinkFrame 0) 14 1 = 1 ∧
    (nextOf (exec (.plinkFrame 1000 (plinkFrame 0)) s)).esc.arrived.length = 1 ∧ plinkCrcOk [0xFB#8] = false ∧
    (enc.storesOk && enc.boundsOk) = true ∧ enc.apFld rEscCfg 0 2 = 1 ∧ (nextOf (exec (.encoderSample 5 (-3) false) enc)).esc.encCount = -3 ∧
    (balls.storesOk && balls.boundsOk) = true ∧ balls.apFld rEscCfg 0 2 = 2 ∧ balls.ownedBy 0 0x32 = true ∧ balls.ownedBy 1 0x32 = true ∧
    (nextOf (exec (.encoderSample 5 7 false) balls)).esc.arrived.length = 1 ∧
    (d.storesOk && d.boundsOk) = true ∧ d.esc.firing = none ∧ d.esc.samples.length ≤ 8 ∧ (nextOf (exec .decision d)).esc.samples = [⟨1, 2, 0⟩] ∧
    up.sampleTies = false ∧ sub.sampleTies = false ∧ up.apFld rEscCfg 0 2 ≠ 3 ∧ up.esc.arrived = [] ∧ up.esc.entered < 8 ∧
    (sub.storesOk && sub.boundsOk) = true ∧ 8 ≤ sub.esc.entered ∧ sub.esc.subs < sub.apFld rEscTrk 28 4 ∧
    (nextOf (exec .sampleSlotMissing sub)).esc.subs = 1 := by decide +kernel

/-- An ARRAY job of M = 1, and a firing stripe of it. -/
def arrayJob : Job := ⟨7, false, 1, 1, 1, 128, 0, List.replicate 64 0, [0, 0, 0, 0], []⟩
def firingStripe : Stripe := { aStripe 3 .firing with lines := 576, nbin := 9, rate := 800000 }

/-- The pass of that stripe, with eight samples of a slow stage at its first line, and a decision at `now`. -/
def passState (now : T16) (f : Firing) : State :=
  let s := withJobs (inMode 2) [arrayJob] [firingStripe]
  let line := [7, 6, 5, 4, 3, 2, 1, 0].map (fun i => (⟨i, 0, 0⟩ : Sample))
  { s with esc := { s.esc with firing := some f, decides := [now], entered := 8, samples := line } }

/-- A pass whose t_c is `tc` and whose first shot is pending. -/
def freshPass (tc : T16) : Firing := ⟨3, some tc, 0, [], 0, 0, 0, false, 576⟩

/-- The hypotheses of ShotsLockAtTheirTime: a floor exactly 1 µs after the decision locks, and one step later waits. -/
theorem witness_shot_locks :
    let s := passState 300000000 (freshPass (300000000 + 65536000 - 2 * pMin 800000))
    let w := passState 300000000 (freshPass (300000000 + 65536001 - 2 * pMin 800000))
    let target := shotY firingStripe 128 0
    (s.storesOk && s.boundsOk) = true ∧ s.mode = 2 ∧ s.stripeOf 3 = some firingStripe ∧ (s.geom firingStripe).1 = 128 ∧ s.fitValid = true ∧
    s.predict target = some 0 ∧ s.lockFits firingStripe 0 (300000000 + 65536000) = true ∧
    ((nextOf (exec .decision s)).esc.firing.map (fun f => (f.pend, f.locks.map (·.t)))) = some (1, [365536000]) ∧
    fineStep 365536001 = 365536640 ∧
    (w.storesOk && w.boundsOk) = true ∧ w.fitValid = true ∧ w.predict target = some 0 ∧
    ((nextOf (exec .decision w)).esc.firing.map (·.pend)) = some 0 := by decide +kernel

/-- The part as an SOS tracker: claim 0 and 1 by owner 0x31, S1MODE 1, tracking valid or not. -/
def sosState (valid : Bool) : State :=
  let s := (((inMode 1).grant 15 0x31 0).grant 15 0x31 1).setFlag rEscStat 11 valid
  { s with applied := [(rEscCfg, 4#32), (rEscScfg, 0x1000040#32)]
           scan := { s.scan with intervals := List.replicate 8 1000000, tPrev := 5000000, edges := true } }

/-- The hypotheses of SosEdgesAreTracked: the first edge inside the window and the last one before it. -/
theorem witness_sos :
    let s := sosState true
    let n := sosState false
    let early := s.scan.tPrev + tBar s.scan.intervals - sosHalf (s.ap rEscScfg) (tBar s.scan.intervals)
    (s.storesOk && s.boundsOk) = true ∧ (n.storesOk && n.boundsOk) = true ∧ s.dom.main = true ∧ s.ownedBy 0 0x31 = true ∧ s.esc.firing = none ∧
    n.sosValid = false ∧ s.sosValid = true ∧ early = 5937500 ∧ s.scan.index = false ∧ s.s1mode = true ∧ s.ownedBy 1 0x31 = true ∧
    s.scan.misses + 1 ≤ s.apFld rEscScfg 24 8 ∧ s.ties (fun c => match c with | .sos0Edge _ => true | _ => false) = false ∧
    s.withheld srcSosMiss = false ∧
    (let l : State := { s with scan := { s.scan with misses := s.apFld rEscScfg 24 8 } }
     l.mayRaise srcSosLost = true ∧ (nextOf (exec .sosWindowExpiry l)).sosValid = false) ∧
    (nextOf (exec (.sos0Edge early) s)).scan.tPrev = early ∧ (nextOf (exec (.sos0Edge (early - 1)) s)).scan.tPrev = 5000000 ∧
    (nextOf (exec .sosWindowExpiry s)).scan.tPrev = 6000000 ∧ (nextOf (exec (.sos0Edge 9) n)).scan.tPrev = 9 := by decide +kernel

/-- A pass in its middle: shots 0 to 2 computed, shot 1 locked, line 3 on chip. -/
def midPass : State :=
  let s := passState 300000000 ⟨3, some 0, 2, [⟨1, 1000⟩], 1000, 0, 1, false, 576⟩
  { s with foot := { s.foot with store := [⟨3, [.zero]⟩] }, dose := { s.dose with shots := [2] } }

/-- Group 5 is due to rise, and group 4 is high. -/
def strobes : State :=
  let s := passState 300000000 ⟨3, some 0, 2, [], 1000, 0, 1, false, 576⟩
  { s with bal := { s.bal with risen := [(0, 31)], high := [⟨4, 0, 640⟩], times := [⟨0, 1000, 640⟩] } }

/-- The hypotheses of ShotsAndStrobesFire. -/
theorem witness_shots :
    (midPass.storesOk && midPass.boundsOk) = true ∧ midPass.mode = 2 ∧ midPass.stripeOf 3 = some firingStripe ∧ 0 < 1 ∧ 1 + 2 < firingStripe.lines ∧
    midPass.bal.late.contains 1 = false ∧ midPass.foot.store.any (fun k => k.line == 1 + 2) = true ∧ midPass.dose.shots = [2] ∧
    midPass.flag rBalCut (1 % 16) = false ∧ midPass.bal.times = [] ∧ (nextOf (exec .shotFire midPass)).bal.high = [⟨1, 1, 1000⟩] ∧
    midPass.linkUp = false ∧ (midPass.setFlag rBalCfg 31 true).linkUp = true ∧
    (nextOf (exec .hitComputeDone (midPass.setFlag rBalCfg 31 true))).bal.framed = 3 ∧
    (strobes.storesOk && strobes.boundsOk) = true ∧ strobes.bal.high.any (fun h => h.g == 5) = false ∧
    strobes.flag rBalCut 5 = false ∧
    strobes.bal.risen.find? (fun p => decide (popCount 16 p.2 < 16) && slotGroup p.1 (popCount 16 p.2) == 5) = some (0, 31) ∧
    strobes.bal.times.find? (fun x => x.shot == 0) = some ⟨0, 1000, 640⟩ ∧
    (nextOf (exec (.groupStrobeRise 5) strobes)).bal.high = [⟨4, 0, 640⟩, ⟨5, 0, 4200⟩] ∧
    strobes.wdogTies 4 = false ∧ strobes.bal.high.find? (fun h => h.g == 4) = some ⟨4, 0, 640⟩ ∧ (nextOf (exec (.groupStrobeFall 4) strobes)).bal.high = [] ∧
    ((inMode 1).setFlag rBalCfg 31 true).linkUp = true ∧ (inMode 1).bal.span = false ∧
    (nextOf (exec .idleFrameSend ((inMode 1).setFlag rBalCfg 31 true))).out.length = 2 := by decide +kernel

/-- The pass within its firing span, with a status awaited and SHOT and LINK coasting. -/
def spanState : State :=
  let s := ((strobes.setFld (rClkPll 3) 30 2 3).setFld (rClkPll 5) 30 2 3)
  { s with bal := { s.bal with span := true, status := [⟨0, [0], 0, 0, false⟩] } }

/-- The hypotheses of BlankingSourcesAbortThePass. -/
theorem witness_blanking :
    let f : Firing := ⟨3, some 0, 2, [], 1000, 0, 1, false, 576⟩
    let s := spanState
    (s.storesOk && s.boundsOk) = true ∧ s.mode = 2 ∧ s.escSpan = true ∧ s.esc.firing = some f ∧ s.stripeOf 3 = some firingStripe ∧
    s.ends firingStripe = 576 ∧ s.lowestUnfired = 1 ∧ s.lowestUnlocked = 2 ∧ s.unconfirmed = 0 ∧ min 0 s.bal.full = 0 ∧
    s.mayRaise srcStall = true ∧ s.clkState 3 = 3 ∧ s.bal.span = true ∧ s.mayRaise srcLinkCoast = true ∧ s.clkState 5 = 3 ∧ s.gen.cur = none ∧ s.mayRaise srcShotClock = true ∧
    s.bal.status = [⟨0, [0], 0, 0, false⟩] ∧ s.statusTies ⟨0, [0], 0, 0, false⟩ = false ∧ s.coastEnds 5 = false ∧ s.dom.cfgDone = true ∧
    s.mayRaise srcBackchLoss = true ∧
    s.bal.high.find? (fun h => h.g == 4) = some ⟨4, 0, 640⟩ ∧ s.mayRaise (srcStrobeStuck 4) = true ∧
    (nextOf (exec .stall s)).stripeOf 3 = none ∧ (nextOf (exec .linkCoast s)).stripeOf 3 = none ∧
    (nextOf (exec .shotClockLimit s)).stripeOf 3 = none ∧ (nextOf (exec .statusMissing s)).stripeOf 3 = none ∧
    (nextOf (exec (.backchLockLoss 0) s)).stripeOf 3 = none ∧ (nextOf (exec (.strobeWatchdog ⟨4, true⟩) s)).flag rBalCut 4 = true ∧ (nextOf (exec (.strobeWatchdog ⟨4, true⟩) s)).bal.tri = [4] := by decide +kernel

/-- The hypotheses of BackChannelReportsAreTaken. -/
theorem witness_back_channel :
    let s := spanState
    let own := 0xE1#64
    let other := (0xE1 + 256 * 5 : Nat)
    let health := (0xE2 + 2 ^ 8 * 0xFFFF : Nat)
    (s.storesOk && s.boundsOk) = true ∧ s.dom.main = true ∧ s.scnPort = false ∧ bits own.toNat 0 8 = 0xE1 ∧ bits other 0 8 = 0xE1 ∧
    s.bal.status.find? (fun a => a.shot % 2 ^ 24 == bits other 8 24 && a.lanes.contains 0) = none ∧
    s.bal.status.find? (fun a => a.shot % 2 ^ 24 == bits own.toNat 8 24 && a.lanes.contains 0) = some ⟨0, [0], 0, 0, false⟩ ∧ bits own.toNat 32 28 = 0 ∧ bits other 32 28 = 0 ∧ s.bal.run = none ∧
    (let c := running (aRun 0 0 false false)
     c.esc.firing = none ∧ c.gen.cur = some (aRun 0 0 false false) ∧ c.bal.late = [] ∧
     (nextOf (exec (.frameLateCheck false) c)).bal.late = [1]) ∧
    (nextOf (exec (.shotStatus 0 own) s)).bal.status = [] ∧ bits health 0 8 = 0xE2 ∧ bits health 40 8 = 0 ∧ bits health 8 16 = 0xFFFF ∧
    (nextOf (exec (.health 3 (BitVec.ofNat 64 health)) s)).rd (rBalPlate 3) = 0xFFFF0000 ∧
    midPass.stripeOf 3 = some firingStripe ∧ midPass.bal.late.contains 1 = false ∧ midPass.mayRaise srcFrameLate = true ∧
    (nextOf (exec .backChannelSend s)).out.length = 1 ∧ (1 : Nat) < (nextOf (exec .hitComputeDone (midPass.setFlag rBalCfg 31 true))).bal.framed ∧ ((nextOf (exec (.frameLateCheck false) midPass)).recOf srcFrameLate).state = 1 := by decide +kernel

/-! ### Rendering -/

/-- The SCAN part with the stripe of job 7 in the job store and on the way to the renderer. -/
def renderScan : State :=
  let s := withJobs (holding (inMode 1) 0x2000 stripeData) [scanJob] [aStripe 3 .admitted]
  { s with foot := { s.foot with handle := 3 } }

/-- An ARRAY stripe whose first bin is on chip, and with its first line staged. -/
def renderArray (staged : List StagedLine) : State :=
  let x := { firingStripe with phase := .admitted }
  let s := withJobs (inMode 1) [arrayJob] [x]
  { s with foot := { s.foot with handle := 3, bins := [⟨0, [], [], 0, 0⟩], staged := staged } }

set_option maxRecDepth 20000 in
/-- The hypotheses of LinesAreRenderedAndStored. -/
theorem witness_render :
    let x := { firingStripe with phase := StripePhase.admitted }
    let s := renderScan
    let b : Bin := ⟨0, [], [], 0, 0⟩
    let a := renderArray []
    let line : StagedLine := ⟨1, none, List.replicate 512 0, 0, false⟩
    let dark : StagedLine := ⟨1, some 1, [], 0, false⟩
    (s.storesOk && s.boundsOk) = true ∧ s.dom.main = true ∧ s.renderStripe = some (aStripe 3 .admitted) ∧ s.jobOf 7 = some scanJob ∧
    s.foot.handle = 3 ∧ s.binToFetch ≤ s.foot.nextLine / 64 + 4 ∧ s.dma.prime = false ∧ s.binToFetch < (aStripe 3 .admitted).nbin ∧
    ((stripePart 0x2000 (s.jsRead 0x2000 320)).bins[s.binToFetch]?).map (fun p => (p.1, recCheckOk p.2, p.2.length)) = some (0x2000, true, 304) ∧
    s.renderStopped = false ∧ a.renderStopped = false ∧ s.errBlocks 0x2000 304 = [] ∧ s.badBlock 0x2000 304 = none ∧
    s.portWaits 0 [(0x2000, 304), (0x2000 + 304, 0)] = false ∧ s.errBlocks (0x2000 + 304) 0 = [] ∧ s.badBlock (0x2000 + 304) 0 = none ∧ (expandBody scanJob 0 0 0 []).cause = 0 ∧ ((nextOf (exec (.binFetch []) s)).foot.bins.map (·.idx)) = [0] ∧
    (a.storesOk && a.boundsOk) = true ∧ a.dom.main = true ∧ a.renderStripe = some x ∧ a.jobOf x.job = some arrayJob ∧ arrayJob.scan = false ∧
    a.binOfLine a.foot.nextLine = some b ∧ a.tilesDone b.idx = true ∧ a.foot.staged.length < 4 ∧ a.foot.nextLine < x.lines ∧
    edgeOver 128 0 b 0 = false ∧ accOver arrayJob 0 0 (slices 128 0 []) = false ∧ a.mapBad x 128 512 0 = none ∧ b.err = 0 ∧
    a.portWaits 1 (mapRanges x 128 512 0) = false ∧ mapRanges x 128 512 0 = [] ∧ (nextOf (exec .lineRender a)).foot.staged.length = 1 ∧
    (renderArray [line]).foot.staged = [line] ∧ (renderArray [line]).stripeOf 3 = some x ∧ line.line < (renderArray [line]).shotsBegun + 2 ∧
    (renderArray [line]).binBytes 0 + sumN ([planeForm (planeEntries 1 0 line.t)].map Plane.size) = 0 ∧
    ((nextOf (exec (.lineCommit true) (renderArray [line]))).foot.store.map (·.line)) = [1] ∧
    dark.line < (renderArray [dark]).shotsBegun + 2 ∧
    (nextOf (exec (.lineCommit true) (renderArray [dark]))).foot.store = [⟨1, [.blank]⟩] := by decide +kernel

/-! ### Registers, time and clocks -/

/-- The hypotheses of ReservedOffsetsReadZeroAndRefuseWrites at the ends of its ranges. -/
theorem witness_reserved :
    let s := inMode 1
    (s.storesOk && s.boundsOk) = true ∧ s.masterUp .h0 = true ∧ s.raisesQuietly srcAccess = true ∧ s.reach .h0 0x7FFFFC = .reserved ∧
    s.reach .h3 0 = .ok ∧ s.reach .h3 8 = .reserved ∧ s.dom.main = true ∧
    (nextOf (exec (.registerWrite .h3 8 1#32) s)).flt.log.length = 1 ∧
    (nextOf (exec (.badAccess .h0 0xFFFFFC 4 .read) s)).out = [.readValue .h0 0xFFFFFC 0#32] ∧
    (nextOf (exec (.registerWrite .h0 0xB40000 1#32) s)).flt.log.length = 1 ∧ s.serves rGlbCfg = true ∧ accessForm (rGlbCfg + 2) 4 = false ∧
    s.serves (rGlbCfg + 2) = true ∧ (nextOf (exec (.badAccess .h0 (rGlbCfg + 2) 4 .read) s)).out = [.readError .h0 (rGlbCfg + 2)] ∧
    (nextOf (exec (.badAccess .h0 (rGlbCfg + 2) 4 (.write [1#8])) s)).flt.log.length = 1 := by decide +kernel

/-- The hypotheses of RegistersTakeWritesByType, for a register read at COMMIT edges and for one that is not. -/
theorem witness_register_writes :
    let s := inMode 1
    (s.storesOk && s.boundsOk) = true ∧ s.reaches .h0 rEscSdly = true ∧ (regAt rEscSdly).isSome = true ∧ s.locked rEscSdly = false ∧
    appliedRegs.contains rEscSdly = true ∧ (nextOf (exec (.registerWrite .h0 rEscSdly 5#32) s)).ap rEscSdly = 5 ∧
    s.reaches .h0 rBmhLevels = true ∧ (regAt rBmhLevels).isSome = true ∧ appliedRegs.contains rBmhLevels = false ∧
    (nextOf (exec (.registerWrite .h0 rBmhLevels 0x1234#32) s)).rd rBmhLevels = 0x1234 ∧
    s.setsNow rEscSdly = [] ∧ s.setsNow rBmhLevels = [] ∧ s.reaches .h0 rGlbLock = true ∧ s.flag rGlbLock 0 = false ∧
    (nextOf (exec (.glbLockWrite .h0 3#32) s)).rd rGlbLock = 3 := by decide +kernel

/-- The hypotheses of PeakAndBeamWritesTakeEffect. -/
theorem witness_peaks :
    let s := inMode 1
    let v := 0x80000000#32
    (s.storesOk && s.boundsOk) = true ∧ s.reaches .h0 rRasFpPeak = true ∧ s.reaches .h0 rEscSlipPeak = true ∧ s.reaches .h0 rPadTjPeak = true ∧
    s.reaches .h0 rRlePool = true ∧ bitAt v.toNat 31 = true ∧ s.reaches .h0 rDosProbeSel = true ∧ s.reaches .h0 rBalCfg = true ∧ s.mode = 1 ∧
    s.reaches .h0 (rBalSpare 0) = true ∧ s.flag (rBalSpare 0) 31 = false ∧ s.laneSpared 0 = false ∧ s.reaches .h0 (rBalSpare 3) = true ∧
    s.touch.spareRival 0 0 = false ∧ s.setsNow rBalCut = [] ∧ s.reaches .h0 rBalCut = true ∧ (nextOf (exec (.balSpareWrite .h0 0 v) s)).fld (rBalSpare 0) 29 2 = 1 ∧
    (nextOf (exec (.balCfgWrite .h0 3#32) s)).bal.rateBusy = true ∧
    (nextOf (exec (.balCfgWrite .h0 v) s)).out = [.idleBlocks (List.range 68) idleBlock] ∧
    (nextOf (exec (.balCfgWrite .h0 0#32) (s.setFlag rBalCfg 31 true))).out = [.txOff] ∧ s.scnPort = false ∧ s.dom.main = true ∧
    (nextOf (exec (.balCutClear .h0 2#32) (s.setFld rBalCut 0 16 3))).flag rBalCut 1 = false := by decide +kernel

/-- The hypotheses of TimekeepersCountExactly, at the last nanosecond of a second, and at the greatest increment. -/
theorem witness_timekeepers :
    let s : State := { inMode 1 with tim := { TimState.reset with ns := 999999999, sub := 2 ^ 40 - 1, incrNext := some incrMax } }
    let c : State := { State.reset with tim := { TimState.reset with cNs := 999999999, cFrac := 65535 } }
    let pk := pkt 0x72 .h1 (leBytes 6 incrMin ++ zeros 2)
    (s.storesOk && s.boundsOk) = true ∧ s.reaches .h0 rTimNowSecLo = true ∧ s.reaches .h0 rTimNowSecHi = true ∧ s.reaches .h0 rTimNowNs = true ∧
    s.reaches .h0 rTimNowFrac = true ∧ (nextOf (exec (.timNowSecLoRead .h0) s)).shadow .h0 = (0, 999999999, 65535) ∧ s.dom.main = true ∧ s.flt.inj = [] ∧
    s.tim.incrNext.getD s.tim.incr ≤ incrMax ∧ (nextOf (exec .timekeeperTick s)).tim.sec = 1 ∧
    (c.storesOk && c.boundsOk) = true ∧ c.dom.main = false ∧ s.tim.ppsLow = 0 ∧
    (nextOf (exec .timekeeperTick (s.setFld (rClkPll 5) 30 2 2))).esc.base = 163840#64 ∧ (nextOf (exec .crystalEdge c)).tim.cSec = 1 ∧
    (s.setFlag rTimStat 30 true).flag rTimStat 30 = true ∧ (asked s pk).awaits pk = true ∧
    (asked s pk).mayDecide pk ⟨0x72, [.h1], modesRun, [⟨0x20, 6, fun v => decide (incrMin ≤ v) && decide (v ≤ incrMax)⟩,
      ⟨0x26, 1, fun v => v == 0⟩, ⟨0x27, 1, fun v => v == 0⟩]⟩ = true ∧
    (nextOf (exec (.timeIncr pk) (asked s pk))).tim.incrNext = some incrMin ∧ s.reaches .h0 rTimIncrHi = true := by decide +kernel

/-- The hypotheses of StepsOfTimeAreKeyedAndApplied: the least and the greatest offsets that its clauses take. -/
theorem witness_time_steps :
    let s := inMode 1
    let half : State := { s with tim := { s.tim with key := .half .h0 } }
    let armed : State := { s with tim := { s.tim with key := .armed .h0 0 } }
    let set := ((s.setFlag rTimStat 31 true).setFld rTimJmax 0 30 5).wr rTimStepNs 5
    let back : State := { set with tim := { set.tim with ns := 5, step := some ⟨-5, .h0, false, none, 5⟩ } }
    let far : State := { set.wr rTimStepNs 6 with tim := { set.tim with step := some ⟨6, .h0, false, none, 6⟩ } }
    let pk := pkt 0x71 .h1 (leBytes 8 0 ++ leBytes 4 5 ++ zeros 4)
    let sp := asked set pk
    (s.storesOk && s.boundsOk) = true ∧ s.reaches .h0 rTimKey = true ∧ (nextOf (exec (.timKeyWrite .h0 0x5A#32) s)).tim.key = .half .h0 ∧
    half.tim.key = .half .h0 ∧ (nextOf (exec (.timKeyWrite .h0 0xA5#32) half)).tim.key = .armed .h0 0 ∧
    armed.tim.key = .armed .h0 0 ∧ (nextOf (exec .keyExpiry armed)).tim.key = .idle ∧
    s.reaches .h0 rTimStepNs = true ∧ s.flag rTimStat 28 = false ∧ s.tim.step = none ∧ (nextOf (exec (.timStepNsWrite .h0 7#32) s)).tim.step.isSome = true ∧
    (sp.storesOk && sp.boundsOk) = true ∧ sp.awaits pk = true ∧
    sp.mayDecide pk ⟨0x71, [.h1], [1], [anyField 0x20 8, anyField 0x28 4, ⟨0x2C, 1, fun v => decide (v < 2)⟩]⟩ = true ∧
    (5 : Int).natAbs ≤ min 999999999 (sp.fld rTimJmax 0 30) ∧ sp.tim.step = none ∧ sp.flag rTimStat 28 = false ∧ (nextOf (exec (.timeStep pk) sp)).tim.step.isSome = true ∧
    (back.storesOk && back.boundsOk) = true ∧ back.run.cur = none ∧ (nextOf (exec .stepApply back)).tim.ns = 0 ∧
    (far.storesOk && far.boundsOk) = true ∧ far.flag rTimStat 31 = true ∧
    min 999999999 (far.fld rTimJmax 0 30) < (6 : Int).natAbs ∧ (nextOf (exec .stepApply far)).fld rTimStat 26 2 = 2 := by decide +kernel

/-- The hypotheses of ClocksLockCoastAndRestart. -/
theorem witness_clocks :
    let st := fun (g n : Nat) => (inMode 1).setFld (rClkPll g) 30 2 n
    let v : State := stepState 1 (some toCheck) .validating 0 |>.setFlag rClkSsc 30 true
    let o := (((inMode 1).setFlag (rClkOut 0) 22 true).setFlag (rClkOut 3) 31 true).setFld (rClkOut 3) 28 3 5
    ((st 5 1).storesOk && (st 5 1).boundsOk) = true ∧ (st 5 1).clkState 5 = 1 ∧ (nextOf (exec (.lockWaitExpiry 5) (st 5 1))).clkState 5 = 2 ∧
    (st 1 2).clkState 1 = 2 ∧ (st 1 2).raisesQuietly (srcClkCoast 1) = true ∧ (nextOf (exec (.lossOfReference 1) (st 1 2))).clkState 1 = 3 ∧
    (st 1 3).clkState 1 = 3 ∧ (nextOf (exec (.coastEnd 1) (st 1 3))).clkState 1 = 2 ∧ (st 1 3).clkWaits 1 = false ∧ (st 1 3).mayRaise srcCoastLimit = true ∧ (st 1 3).coastEnds 1 = false ∧
    ((st 1 2).recOf (srcClkCoast 1)).cond = false ∧ ((nextOf (exec (.clkCoastLimit 1) (st 1 3))).recOf srcCoastLimit).state = 1 ∧
    (v.storesOk && v.boundsOk) = true ∧ v.run.cur = some ⟨some toCheck, 0, 0, .validating, [], 0, false⟩ ∧ toCheck.target ∈ [2, 3, 4] ∧
    v.flag rClkSsc 30 = true ∧ (nextOf (exec .sscStop v)).flag rClkSsc 30 = false ∧
    (o.storesOk && o.boundsOk) = true ∧ o.dom.main = true ∧ o.flag (rClkOut 0) 22 = true ∧ o.fld (rClkOut 0) 28 3 ≠ 5 ∧
    (nextOf (exec (.syncInRise 15) o)).clk.restarts = [1, 0, 0, 0] ∧ o.flag (rClkOut 3) 31 = true ∧ o.fld (rClkOut 3) 28 3 = 5 ∧
    (nextOf (exec .ppsEdge o)).out = [.pps 3 true] ∧
    ({ st 1 3 with clk := { (st 1 3).clk with gens := (st 1 3).clk.gens.set 1 ⟨0, some 0, true⟩ } } : State).clkWaits 1 = true := by decide +kernel

/-! ### DMA and the run-length engines -/

/-- Channel 4, of master H1, set up to copy 64 bytes from 0x1000 to 0x2000 in state `st`, with both ends in space `sp`. -/
def copying (st sp : Nat) : State :=
  ((((inMode 1).wr (rDmaCnt01 4) 63).wr (rDmaSrcLo 4) 0x1000).wr (rDmaDstLo 4) 0x2000).wr (rDmaDctl 4) (2 ^ 30 * sp + 2 ^ 28 * sp) |>.wr (rDmaSs0 4) 1
    |>.wr (rDmaDs0 4) 1 |>.setFld (rDmaCtl 4) 4 4 8 |>.setFld (rDmaStat 4) 30 2 st

/-- Channel 4 of a state, as given. -/
def withChan (s : State) (c : DmaChan) : State := { s with dma := { s.dma with chans := s.dma.chans.set 4 c } }

/-- The hypotheses of DmaChannelsStartStopAndHalt: channel 4 in each of its states, H0 that a field
of 7 does not name, and a pulse of source 63 with and without a sink. -/
theorem witness_dma_commands :
    let ev := (inMode 1).wr (rDmaEvmSel 2) 0x8000003F
    let one : DmaChan := ⟨0, [], [], 0, 0, 0, some (5000, true), false⟩
    let pulsed : State := { withChan (copying 1 0) one with tim := { TimState.reset with elapsed := 5001 } }
    let bad := (copying 2 0).setFld (rDmaStat 4) 24 4 6
    let other := (copying 0 0).setFld (rDmaCtl 4) 4 4 7
    let f := fun (s : State) (m : Master) => (s.storesOk && s.boundsOk) && s.reaches m (rDmaCtl 4) && s.dmaNamed m 4
    f (copying 0 0) .h1 = true ∧ (copying 0 0).dmaState 4 = 0 ∧ (copying 0 0).badSetup 4 = false ∧
    (nextOf (exec (.dmaGo .h1 4) (copying 0 0))).dmaState 4 = 1 ∧
    f (copying 1 0) .h1 = true ∧ (copying 1 0).dmaState 4 = 1 ∧ (nextOf (exec (.dmaGo .h1 4) (copying 1 0))).flag (rDmaStat 4) 29 = true ∧
    f (copying 2 0) .h1 = true ∧ (copying 2 0).dmaState 4 = 2 ∧ (nextOf (exec (.dmaResume .h1 4) (copying 2 0))).dmaState 4 = 1 ∧
    (nextOf (exec (.dmaAbort .h1 4) (copying 2 0))).dmaState 4 = 0 ∧
    (other.storesOk && other.boundsOk && other.reaches .h0 (rDmaCtl 4) && !other.dmaNamed .h0 4 && other.raisesQuietly srcAccess &&
      (nextOf (exec (.dmaGo .h0 4) other)).dmaState 4 == 0) = true ∧
    ev.reaches .h0 rDmaEvmSw = true ∧ ev.flag (rDmaEvmSel 2) 31 = true ∧ ev.fld (rDmaEvmSel 2) 0 6 = 63 ∧
    (nextOf (exec (.dmaEvmSw .h0 1#32) ev)).dma.pulses = [63] ∧ (nextOf (exec (.dmaEvmSw .h0 1#32) (inMode 1))).dma.pulses = [] ∧
    ((copying 1 0).dmaChan 4).began = none ∧ (pulsed.dmaChan 4).began = some (5000, true) ∧ pulsed.onCoreClock 5000 = true ∧
    f pulsed .h1 = true ∧ (nextOf (exec (.dmaGo .h1 4) pulsed)).flag (rDmaStat 4) 29 = false ∧
    ((copying 2 0).dmaChan 4).reload = false ∧ (copying 2 0).fld (rDmaStat 4) 24 4 ≠ 6 ∧ f bad .h1 = true ∧ bad.fld (rDmaStat 4) 24 4 = 6 ∧
    bad.badSetup 4 = false ∧ (nextOf (exec (.dmaResume .h1 4) bad)).dmaState 4 = 1 ∧
    (copying 1 0).raisesQuietly (srcDmaBusErr 4) = true ∧ (copying 1 0).raisesQuietly (srcMem 1 0) = true ∧ 64 < (copying 1 0).jsSize ∧
    (nextOf (exec (.dmaHalt 4 false 1 127) (copying 1 0))).ddr.bad = [64] ∧
    (let e : State := { inMode 1 with dma := { DmaState.reset with fault := true } }
     (e.storesOk && e.boundsOk) = true ∧ e.raisesQuietly (srcDmaBusErr 1) = true ∧ (nextOf (exec (.dmaHalt 1 false 1 0) e)).dma.fault = false) ∧
    (nextOf (exec (.dmaHalt 4 true 5 (2 ^ 64 - 1)) (copying 1 0))).rd (rDmaErraHi 4) = 0xFFFFFFFF := by decide +kernel

set_option maxRecDepth 20000 in
/-- The hypotheses of DmaChannelsMoveTheirBytes: bursts of 64 bytes in both spaces, a descriptor that is done with and without a chain, and a
pulse that starts the channel. -/
theorem witness_dma_bursts :
    let r := copying 1 0
    let h := copying 1 1
    let full : DmaChan := ⟨64, [], List.replicate 64 7#8, 0, 0, 0, none, false⟩
    let r := withChan r ⟨0, [], [], 0, 64, 0, none, false⟩
    let h := withChan h ⟨0, [], [], 0, 64, 0, none, false⟩
    let w := withChan r full
    let wh := withChan h full
    let d := withChan r ⟨64, [], [], 64, 0, 0, none, false⟩
    let ch := (d.setFlag (rDmaDctl 4) 24 true).wr (rDmaNextLo 4) 0x3000
    let ev : State := { (copying 0 0).wr (rDmaEvmSel 4) 0x80000003 with dma := { DmaState.reset with pulses := [3] } }
    (r.storesOk && r.boundsOk) = true ∧ r.dmaState 4 = 1 ∧ r.dmaTurn 4 = true ∧ h.dmaTurn 4 = true ∧ w.dmaTurn 4 = true ∧ wh.dmaTurn 4 = true ∧
    r.creditNow 4 = 64 ∧ h.creditNow 4 = 64 ∧ r.portWaits 2 [(0x1000, 64)] = false ∧ w.portWaits 2 [(0x2000, 64)] = false ∧ r.dma.chans.length = 12 ∧ (r.dmaChan 4).buf = [] ∧ r.dmaIn 4 = 64 ∧
    burstLen (r.srcAddr 4) (r.srcFits 4) 0 64 = 64 ∧ r.espMode 4 = 0 ∧ r.flag (rDmaDctl 4) 23 = false ∧ r.fld (rDmaDctl 4) 30 2 = 0 ∧
    r.badBlock 0x1000 64 = none ∧ r.errBlocks 0x1000 64 = [] ∧ ((nextOf (exec (.dmaBurst 4 (.bytes []) []) r)).dmaChan 4).buf.length = 64 ∧
    (h.storesOk && h.boundsOk) = true ∧ burstLen (h.srcAddr 4) (h.srcFits 4) 0 64 = 64 ∧ h.fld (rDmaDctl 4) 30 2 = 1 ∧
    (nextOf (exec (.dmaBurst 4 (.bytes (List.replicate 64 5#8)) []) h)).dmaChan 4 = ⟨64, [], List.replicate 64 5#8, 0, 0, 0, none, false⟩ ∧
    (w.storesOk && w.boundsOk) = true ∧ burstLen (w.dstAddr 4) (w.dstFits 4) 0 (w.dmaOut 4) = 64 ∧ w.fld (rDmaDctl 4) 28 2 = 0 ∧
    w.writeBad 4 0 0x2000 64 = none ∧ w.errBlocks 0x2000 64 = [] ∧ storeGet byteDefault (nextOf (exec (.dmaBurst 4 (.bytes []) []) w)).mem 0x203F = 7#8 ∧
    (wh.storesOk && wh.boundsOk) = true ∧ burstLen (wh.dstAddr 4) (wh.dstFits 4) 0 (wh.dmaOut 4) = 64 ∧ wh.fld (rDmaDctl 4) 28 2 = 1 ∧
    storeGet byteDefault (nextOf (exec (.dmaBurst 4 (.bytes []) []) wh)).hostMem 0x2000 = 7#8 ∧
    (d.storesOk && d.boundsOk) = true ∧ d.dmaIn 4 ≤ (d.dmaChan 4).read ∧ d.dmaOut 4 ≤ (d.dmaChan 4).wrote ∧ d.flag (rDmaDctl 4) 25 = false ∧
    d.flag (rDmaStat 4) 29 = false ∧ d.flag (rDmaDctl 4) 24 = false ∧ (nextOf (exec (.descriptorDone 4) d)).dmaState 4 = 0 ∧
    (ch.storesOk && ch.boundsOk) = true ∧ ch.flag (rDmaDctl 4) 24 = true ∧ 0x3000 + 64 ≤ ch.jsSize ∧ ch.badBlock 0x3000 64 = none ∧
    ch.errBlocks 0x3000 64 = [] ∧ ch.chainWaits 4 = false ∧ ch.raisesQuietly (srcDmaBusErr 4) = true ∧
    (nextOf (exec (.descriptorDone 4) ch)).dmaState 4 = 1 ∧
    (ev.storesOk && ev.boundsOk) = true ∧ 3 ∈ ev.dma.pulses ∧ ev.flag (rDmaEvmSel 4) 31 = true ∧ ev.fld (rDmaEvmSel 4) 0 6 = 3 ∧
    (List.range 17).all (fun k => k == 4 || !ev.flag (rDmaEvmSel k) 31) = true ∧ ev.dmaState 4 = 0 ∧ ev.badSetup 4 = false ∧ (ev.dmaChan 4).began = none ∧
    (nextOf (exec (.eventPulse 3) ev)).dmaState 4 = 1 := by decide +kernel

/-- The hypotheses of SerpentineRunsReverse: a run of 2 elements of 2 bytes, and a run of 4,096 and of 4,097 bytes. -/
theorem witness_serpentine :
    let s := ((inMode 1).wr (rDmaEsp 4) 3).wr (rDmaCnt01 4) 4095
    let u := s.wr (rDmaCnt01 4) 4096
    let run := [1#8, 2#8, 3#8, 4#8]
    run.length = 2 * 2 ∧ espRun 3 2 2 0 false 1 run = [3#8, 4#8, 1#8, 2#8] ∧ espRun 3 2 2 0 false 0 run = run ∧
    s.espMode 4 = 3 ∧ s.dmaN0 4 * s.dmaEs 4 = 4096 ∧ s.badSetup 4 = false ∧ u.dmaN0 4 * u.dmaEs 4 = 4097 ∧ u.badSetup 4 = true := by
  decide +kernel

/-- The hypotheses of EnginesEncodeAndVerify: a COMPRESS of 64 bytes just below the area of the part, one under way, one that ends in code of 2 bytes
and one whose code is as long as its input, a tile of 3 pixels, and a snapshot that has waited. -/
theorem witness_engines :
    let pk := pkt 0x94 .h0 (leBytes 8 0x1000 ++ leBytes 8 (2 ^ 36 - 2 ^ 26 - 64) ++ leBytes 4 64 ++ zeros 4)
    let s := asked (holding (inMode 1) 0x1000 (List.replicate 64 7#8)) pk
    let under := fun (c : Compress) => ({ decided (holding (inMode 1) 0x1000 (List.replicate 64 7#8)) pk with rle := ⟨[], [], [c]⟩ } : State)
    let c : Compress := ⟨pk, 1, 0x1000, 0x2000, 64, 0, false, true⟩
    let d : Compress := { c with fin := true, taken := 64 }
    let short : Compress := { c with fin := true, len := 2, taken := 2 }
    let tile : State := { inMode 1 with
      rle := ⟨[], [⟨0, 0, 0, 3, [128#8, 5#8]⟩], []⟩
      foot := { FootState.reset with bins := [⟨0, [], [], 0, 0⟩] } }
    let x : Snapshot := ⟨[], [], false, [1#8], false, 0⟩
    let snap : State := { inMode 1 with rle := ⟨[⟨15, 0⟩], [], []⟩, snap := { SnapState.reset with entries := List.replicate 15 none ++ [some x] } }
    (s.storesOk && s.boundsOk) = true ∧ s.dom.main = true ∧ s.awaits pk = true ∧
    s.mayDecide pk ⟨0x94, fn01, modesRun, [anyField 0x20 8, anyField 0x28 8, anyField 0x30 4]⟩ = true ∧
    s.compressBad 0x1000 (2 ^ 36 - 2 ^ 26 - 64) 64 = none ∧ s.notCovered 0x1000 64 = none ∧ s.destRefused (2 ^ 36 - 2 ^ 26 - 64) (blocks64 64) = none ∧
    (nextOf (exec (.compress ⟨pk, true⟩) s)).rle.comps.length = 1 ∧
    ((under c).storesOk && (under c).boundsOk) = true ∧ (under c).rle.comps.find? (fun c => c.eng == 1 && !c.fin) = some c ∧
    (under c).portWaits 3 [(0x1000, 64)] = false ∧ tile.foot.handle = 0 ∧
    (nextOf (exec (.rle1Item true) (under c))).rle.comps = [{ c with taken := 64, fin := true }] ∧
    (tile.storesOk && tile.boundsOk) = true ∧ rleDecode [128#8, 5#8] 3 = some [5#8, 5#8, 5#8] ∧ lastRun130 [128#8, 5#8] = false ∧
    (nextOf (exec (.rle1Item true) tile)).rle.tiles = [] ∧
    ((under d).rle.comps.find? (fun c => c.fin || c.eng == 0) == some d && (under d).awaits pk && (under d).badBlock 0x1000 64 == none &&
      rleEncode ((under d).jsRead 0x1000 64) == [189#8, 7#8] && !lastRun130 [189#8, 7#8] &&
      !(under d).portWaits 3 [(0x2000, 64)] && (under d).errBlocks 0x1000 64 == [] && ((under d).destRefused 0x2000 64).isNone &&
      reply (exec .compressDone (under d)) == [(0, 0, 2)]) = true ∧
    (under short).rle.comps.find? (fun c => c.fin || c.eng == 0) = some short ∧ (under short).badBlock 0x1000 2 = none ∧
    (rleEncode ((under short).jsRead 0x1000 2)).length = 3 ∧ reply (exec .compressDone (under short)) = [(0x30, 0, 2)] ∧
    snap.ties (fun c => match c with | .rle1Item _ => true | _ => false) = false ∧
    ((under { c with eng := 0 }).portWaits 3 [(0x1000, 64), (0x2000, 64)] = false ∧
      (nextOf (exec .compressDone (under { c with eng := 0 }))).rd (rRleCnt 0) = 1) ∧
    (snap.storesOk && snap.boundsOk) = true ∧ snap.snap.entries[15]? = some (some x) ∧ snap.raisesQuietly srcSnapRaw = true ∧
    (nextOf (exec .snapshotWaitExpiry snap)).snap.entries[15]? = some (some { x with raw := true, code := [] }) := by decide +kernel

/-! ### Images, domains and resets -/

/-- The public key of the private key 7: an uncompressed point of P-384. -/
def keyPoint : List Byte :=
  beBytes 97 0x04283c1d7365ce4788f29f8ebf234edffead6fe997fbea5ffa2d58cc9dfa7b1c508b05526f55b9ebb2040f05b48fb6d0e19475c99061e41b88ba52efdb8c1690471a61d867ed799729d9c92cd01dbd225630d84ede32a78f9e64664cdac512ef8c

/-- An image whose only section is its key, signed with the private key 7: it authenticates, and no section that a load needs is there. -/
def keyImage : List Byte :=
  leBytes 4 0x46435A4E ++ leBytes 4 1 ++ leBytes 4 240 ++ leBytes 4 0x01020304 ++ leBytes 4 0x10000 ++ zeros 12 ++ leBytes 4 1 ++ leBytes 4 44 ++
    leBytes 4 97 ++ keyPoint ++ zeros 3 ++
    beBytes 96 0x11de24a2c251c777573cac5ea025e467f208e51dbff98fc54f6661cbe56583b037882f4a1ca297e60abcdbc3836d84bc5618f2c08a1636ac8a84fc0d5432b0937b13467dcb9c3400e5b1c608bf277d79200cdd5a49e4002b8ac3c1f91a62e780

/-- A part whose key slot 0 is fused with that key, its always-on domain without power. -/
def fused : State :=
  { State.reset with dom := { Domain.reset with
      aon := false
      otp := ⟨beBytes 48 0xd7759d5965e5bc63e87c3ce582bb36d7158df6f777e3c85fa24e0a3257e5dfba87102d8c8d17e34ee3d254bec43db915, false⟩ ::
        List.replicate 2 ⟨zeros 48, false⟩ } }

set_option maxRecDepth 100000 in
/-- The image authenticates with its key fused and neither with one bit of it changed nor with its slot revoked, as R31 has it; the signature was
made outside the model. -/
theorem test_image_authenticates :
    let revoked : State := { fused with dom := { fused.dom with otp := fused.dom.otp.map (fun o => { o with revoked := true }) } }
    fused.authentic keyImage = true ∧ fused.authentic (keyImage.set 12 5#8) = false ∧ revoked.authentic keyImage = false := by
  decide +kernel

/-- STANDBY with an image kept, rail 0 in use, and the AOC awake: as a part sleeps. -/
def asleep : State :=
  let s : State := { State.reset with dom := { Domain.reset with imageOk := true, booted := true } }
  s.setFlag (rPwrRcfg 0) 31 true

set_option maxRecDepth 100000 in
/-- The hypotheses of DomainsPowerUpAndWake. -/
theorem witness_domains :
    let fl : Flash := ⟨keyImage, []⟩
    let kept : State := { asleep with dom := { asleep.dom with wakeKept := true } }
    let down : State := { inMode 1 with pwr := { PwrState.reset with downCause := 1 } }
    let one : State := { asleep with pwr := { PwrState.reset with steps := 1 } }
    let up := (List.range 6).foldl (fun s g => s.setFld (rClkPll g) 30 2 2) ((one.setFld (rPwrRstat 0) 29 3 5).setFld rPwrSeq 30 2 1)
    (fused.storesOk && fused.boundsOk) = true ∧ fused.dom.aon = false ∧ (fused.aonFresh true).pickImage ⟨[], zeros 240⟩ = none ∧
    (fused.aonFresh true).pickImage fl = some (false, keyImage) ∧ bitAt (getU keyImage 6 2) 0 = false ∧
    (asleep.storesOk && asleep.boundsOk) = true ∧ asleep.mayWake = true ∧ asleep.railUsed 0 = true ∧
    (nextOf (exec (.wake .wakeN) asleep)).railState 0 = 1 ∧
    (kept.storesOk && kept.boundsOk) = true ∧ kept.mayWake = true ∧ kept.dom.wakeKept = true ∧
    (down.storesOk && down.boundsOk) = true ∧ down.mayWake = false ∧ down.dom.aon = true ∧ down.goingDown = true ∧
    (inMode 1).goingDown = false ∧ (inMode 1).mode = 1 ∧
    (up.storesOk && up.boundsOk) = true ∧ up.dom.main = false ∧ up.awake = true ∧ up.ownGood = true ∧ up.clocksLocked = true ∧
    up.dom.resetting ≠ 2 ∧ (nextOf (exec .mainUp up)).dom.main = true := by decide +kernel

/-- The sections of an image to be loaded: a rail table without rails, a clock plan without entries, a training table, a binding table whose
channels are off, and nothing in the sections whose format no rule gives. -/
def wholeImage : List Byte :=
  leBytes 4 0x46435A4E ++ leBytes 4 1 ++ leBytes 4 5412 ++ leBytes 4 0 ++ leBytes 4 0xB0000 ++ zeros 12 ++
  ([(0x01, 164, 0), (0x10, 164, 0), (0x11, 164, 0), (0x12, 164, 0), (0x13, 164, 480), (0x15, 164, 0), (0x16, 644, 4416), (0x17, 5060, 192),
    (0x19, 164, 32), (0x1A, 164, 0), (0x1B, 164, 0)].map (fun x : Nat × Nat × Nat => leBytes 4 x.1 ++ leBytes 4 x.2.1 ++ leBytes 4 x.2.2)).flatten ++
  zeros 480 ++ leBytes 4 1 ++ leBytes 4 1 ++ zeros 4408 ++ (List.replicate 48 (leBytes 4 0x01200000)).flatten ++ zeros 160

/-- The part after MAIN_UP and before the load, with the digest of an image kept. -/
def booting (digest : List Byte) : State :=
  { State.reset with dom := { Domain.reset with
      main := true, mainUp := true, perst := true, link := true, imageOk := true, booted := true, digest := digest } }

/-- The loaders of the sections whose formats the spec gives, for an image without the optional ones, of an empty roster,
and of no DMA channel's master. -/
def plainLoaders : List Loader :=
  [fun s => .ok { s with dom := { s.dom with peers := some (Config.pciePeers []) } }, requiredSection wholeImage 0x12 loadPlan, requiredSection wholeImage 0x13 (loadRails wholeImage), requiredSection wholeImage 0x16 loadTrain,
   requiredSection wholeImage 0x17 loadBind, requiredSection wholeImage 0x19 loadTime,
   fun s => .ok { s with net := { s.net with roster := [] } },
   fun s => .ok ((List.range 8).foldl (fun t i => t.setFld (rDmaCtl (i + 4)) 4 4 15) s)]

/-- The fault records after a load that ends well. -/
def recsAfter (r : Except LoadError State) : Option (List FaultRec) :=
  match r with
  | .ok u => some u.flt.recs
  | .error _ => none

/-- The part before the load, with a record that a power-down kept. -/
def carrying (s : State) : State :=
  { s with flt := { s.flt with recs := [⟨srcPwr 2 0, 2, false, false, false, 3, 1, 0, 0, true, false, 0⟩] } }

/-- The SHA-384 digest of the image's signed bytes, computed outside the model. -/
def wholeDigest : List Byte :=
  beBytes 48 0xa595e4700fde86ec8cf386c3094d8dba171972ae8e06339a0d63b79c695a4105c8ba168b8a136e0e8e30cf8305a1be62

set_option maxRecDepth 100000 in
/-- The model's SHA-384 over 42 blocks gives that digest. -/
theorem test_sha384_of_an_image : sha384 (signedBytes wholeImage) = wholeDigest := by decide +kernel

set_option maxRecDepth 100000 in
/-- The sections with a format load, and keep a record that stands. -/
theorem plain_sections_load :
    let on (s : State) : State := ((s.setFld rPadFilt 0 24 0x0A0222).showImage wholeImage wholeDigest false false).pinnedClaims
    recsAfter (loadAll plainLoaders (on (booting wholeDigest))) = some [] ∧
    (recsAfter (loadAll plainLoaders (on (carrying (booting wholeDigest))))).map (·.any (fun r => r.state != 0 && r.carry)) = some true := by
  decide +kernel

set_option maxRecDepth 100000 in
/-- The hypotheses of LoadsAndResetsTakeEffect for a load that fits: they are met where each decoder of log entry 4 takes an empty section for
one that sets nothing and the image names no master of a DMA channel, which no proof can show of an opaque constant. -/
theorem witness_load (hp : Config.pcieFuncs [] = some []) (ha : Config.padWrites [] = some []) (hr : Config.sectionRoster [] = some [])
    (hf : Config.firmwareOk [] = true) (hc : Config.sectionClaims [] = some [])
    (hm : ∀ i, Config.dmaMaster wholeImage i = 15) :
    let s := booting wholeDigest
    (s.storesOk && s.boundsOk) = true ∧ s.dom.main = true ∧ s.dom.cfgDone = false ∧
    imageIn (if s.dom.slotB then (⟨wholeImage, []⟩ : Flash).slotB else (⟨wholeImage, []⟩ : Flash).slotA) = some wholeImage ∧
    sha384 (signedBytes wholeImage) = s.dom.digest ∧
    recsAfter (((s.setFld rPadFilt 0 24 0x0A0222).showImage wholeImage s.dom.digest s.dom.slotB false).loadImage wholeImage) = some [] ∧
    let c := carrying s
    (c.storesOk && c.boundsOk) = true ∧ c.dom.main = true ∧ c.dom.cfgDone = false ∧
    (recsAfter (((c.setFld rPadFilt 0 24 0x0A0222).showImage wholeImage c.dom.digest c.dom.slotB false).loadImage wholeImage)).map
      (·.any (fun r => r.state != 0 && r.carry)) = some true := by
  have e : ∀ t ∈ [0x10, 0x11, 0x15, 0x1A, 0x1B], sectionOf wholeImage t = some [] := by decide +kernel
  have n : ∀ t ∈ [0x14, 0x18, 0x1C], sectionOf wholeImage t = none := by decide +kernel
  have d : directoryError wholeImage = none := by decide +kernel
  have l : ∀ s, loadAll (imageLoaders wholeImage) s = loadAll plainLoaders s := by
    intro s
    simp only [List.mem_cons, List.not_mem_nil, or_false, forall_eq_or_imp, forall_eq] at e n
    simp only [imageLoaders, plainLoaders, loadAll, requiredSection, optionalSection, e, n, loadPcie, hp, loadPads, ha, loadRoster, hr,
      loadFirmware, hf, loadDmaMasters, hm, loadClaims, hc, List.zipIdx_nil, List.foldl_nil, List.length_nil, List.range_zero, loadEntries, List.filter_nil, if_true]
  refine ⟨by decide +kernel, rfl, rfl, by decide +kernel, test_sha384_of_an_image, ?_, by decide +kernel, rfl, rfl, ?_⟩
  all_goals
    rw [State.loadImage, d]
    simp only [l]
  · exact plain_sections_load.1
  · exact plain_sections_load.2

set_option maxRecDepth 100000 in
/-- The hypotheses of LoadsAndResetsTakeEffect but for a load that fits. -/
theorem witness_resets :
    let b := booting (sha384 (signedBytes keyImage))
    let s := inMode 1
    let h := inMode 5
    let w : State := { inMode 5 with dom := { (inMode 5).dom with resetting := 1 } }
    let a := (inMode 3).setFlag (rPwrRcfg 0) 30 true
    (b.storesOk && b.boundsOk) = true ∧ b.dom.cfgDone = false ∧ imageIn keyImage = some keyImage ∧
    (match ((b.setFld rPadFilt 0 24 0x0A0222).showImage keyImage b.dom.digest b.dom.slotB false).loadImage keyImage with | .ok _ => false | .error e => e == (0x10, none)) = true ∧
    b.flt.recs = [] ∧ b.raisesQuietly srcConfigLoad = true ∧ (nextOf (exec (.configLoad ⟨keyImage, []⟩) b)).flag rGlbCfg 31 = true ∧
    (s.storesOk && s.boundsOk) = true ∧ s.reaches .h1 rGlbReset = true ∧ s.mode = 1 ∧ h.mode = 5 ∧ s.dom.resetting = 0 ∧ s.seqPhase < 2 ∧
    s.dom.main = true ∧ (nextOf (exec (.warmReset .h1 0xC3#8) s)).dom.resetting = 2 ∧ (nextOf (exec (.warmReset .h1 0xC3#8) h)).dom.resetting = 2 ∧
    (nextOf (exec (.coldReset .h1 0xC3#8) s)).pwr.downCause = 4 ∧ s.reaches .h0 rGlbReset = true ∧ s.raisesQuietly srcAccess = true ∧
    ((nextOf (exec (.warmReset .h1 0xC2#8) s)).recOf srcAccess).state = 1 ∧ ((nextOf (exec (.coldReset .h0 0xC3#8) s)).recOf srcAccess).state = 1 ∧
    (w.storesOk && w.boundsOk) = true ∧ w.dom.resetting = 1 ∧ (nextOf (exec .warmResetWaitExpiry w)).dom.main = false ∧
    w.repliesTie = false ∧
    s.hvOff = true ∧ (nextOf (exec (.jtagInstruction (.load 0x03#8)) s)).out = [.scanPins (some [])] ∧
    (nextOf (exec (.jtagInstruction .reset) (nextOf (exec (.jtagInstruction (.load 0x05#8)) s)))).out = [.scanPins none, .pinsReturn] ∧
    (nextOf (exec (.jtagInstruction (.load 0x10#8)) s)).dbg.session = true ∧ s.dbg.ir = 0x01#8 ∧
    (nextOf (exec (.jtagInstruction (.scan (List.replicate 4 false))) s)).out = [.tdo [true, true, false, true]] ∧
    (nextOf (exec (.jtagInstruction (.scan [true, true])) { s with dbg := { s.dbg with ir := 0xFF#8 } })).out = [.tdo [false, true]] ∧
    (a.storesOk && a.boundsOk) = true ∧ a.raisesQuietly srcAccess = true ∧ (nextOf (exec (.jtagInstruction (.load 0x05#8)) a)).dbg.refused = true := by
  decide +kernel

/-- The hypotheses of LoadsAndResetsTakeEffect for a reply that falls on the clock at which the wait for it expires. -/
theorem witness_reset_wait_tie :
    let pk := pkt 0 .h0 []
    let s := onClockWith { oneHeld with dom := { oneHeld.dom with resetting := 1, waitFor := [pk] } } [.replyWrite 0 true]
    (s.storesOk && s.boundsOk) = true ∧ s.dom.resetting = 1 ∧ s.repliesTie = true := by decide +kernel

/-- The hypotheses of LoadsAndResetsTakeEffect for a scan of every boundary cell, however many there are. -/
theorem witness_sample :
    let s : State := { inMode 1 with dbg := { (inMode 1).dbg with ir := 0x02#8 } }
    (s.storesOk && s.boundsOk) = true ∧ s.dom.main = true ∧ s.dbg.ir = 0x02#8 ∧
    Config.scanCells ≤ (List.replicate Config.scanCells false).length :=
  ⟨by decide +kernel, by decide +kernel, rfl, by simp⟩

/-! ### Power -/

/-- SERVICE with rail n in use, in state `st`, its EN and PG as given. -/
def railIn (m n st : Nat) (en pg : Bool) : State :=
  ((((inMode m).setFlag (rPwrRcfg n) 31 true).setFld (rPwrRstat n) 29 3 st).setFlag rPwrEn n en).setFlag rPwrPg n pg

/-- The hypotheses of RailsStartAndFail, for rails 0 and 23. -/
theorem witness_rails :
    let s := (railIn 1 23 1 false false).setFlag rPwrSeq 28 false
    let p : State := { s with pwr := { s.pwr with steps := 63 } }
    let up := p.setFld rPwrSeq 30 2 1
    let fell := fun (m chat : Nat) =>
      let u := railIn m 23 3 true false
      ({ u with pwr := { u.pwr with rails := u.pwr.rails.set 23 ⟨false, false, true, chat, false, false⟩ } } : State)
    let inv := fun (s : State) => s.storesOk && s.boundsOk
    let fallIs := fun (c : Instr) => match c with | .pgFall rs => bitAt rs.toNat 23 | _ => false
    let riseIs := fun (c : Instr) => match c with | .pgRise m => m == 23 | _ => false
    let tied := onClockWith (railIn 1 23 4 true true) [.pgFall 0x800000#24]
    let late := onClockWith (railIn 1 23 3 true false) [.pgRise 23]
    inv s = true ∧ s.dom.aon = true ∧ s.seqPull = false ∧ s.seqPhase ≠ 1 ∧ (nextOf (exec .seqSyncRise s)).flag rPwrSeq 29 = true ∧
    inv up = true ∧ up.seqPhase = 1 ∧ up.pwr.steps < 64 ∧ (nextOf (exec .seqSyncRise up)).railState 23 = 2 ∧
    inv (railIn 1 23 2 false false) = true ∧ (railIn 1 23 2 false false).railState 23 = 2 ∧ (railIn 1 23 2 false false).seqPhase < 2 ∧
    (nextOf (exec (.railStart 23) (railIn 1 23 2 false false))).railEn 23 = true ∧
    inv (railIn 1 0 3 true false) = true ∧ ((railIn 1 0 3 true false).railRec 0).fell = false ∧
    (nextOf (exec (.pgRise 0) (railIn 1 0 3 true false))).railState 0 = 4 ∧ (railIn 1 0 5 true true).railState 0 ≠ 3 ∧
    inv (fell 1 2) = true ∧ ((fell 1 2).railRec 23).fell = true ∧ ((fell 1 2).railRec 23).chat + 1 ≤ (fell 1 2).fld (rPwrRtime 23) 4 4 ∧
    (nextOf (exec (.pgRise 23) (fell 1 2))).railState 23 = 4 ∧
    ((railIn 1 23 4 true true).waits fallIs) = false ∧ (nextOf (exec (.debounceDone 23) (railIn 1 23 4 true true))).railGood 23 = true ∧
    inv tied = true ∧ tied.railState 23 = 4 ∧ tied.ties fallIs = true ∧ (nextOf (exec (.debounceDone 23) tied)).railGood 23 = false ∧
    inv late = true ∧ late.railState 23 = 3 ∧ late.seqPhase < 2 ∧ late.ties riseIs = true ∧ (nextOf (exec (.pgtoExpiry 23) late)).railState 23 = 3 ∧
    (railIn 0 23 3 true false).waits riseIs = false ∧
    inv (railIn 0 23 3 true false) = true ∧ (railIn 0 23 3 true false).mode = 0 ∧ (railIn 0 23 3 true false).seqPhase < 2 ∧
    (railIn 0 23 3 true false).collects (srcPwr 0 23) = true ∧ (railIn 0 23 3 true false).pwr.downCause ≠ 4 ∧ (fell 0 3).collects (srcPwr 1 23) = true ∧ (railIn 0 23 3 true false).pairHeld (srcPwr 0 23) = false ∧
    (nextOf (exec (.pgtoExpiry 23) (railIn 0 23 3 true false))).railState 23 = 7 ∧
    inv (fell 0 3) = true ∧ (fell 0 3).pairHeld (srcPwr 1 23) = false ∧ (fell 0 3).fld (rPwrRtime 23) 4 4 < ((fell 0 3).railRec 23).chat + 1 ∧
    (nextOf (exec (.pgRise 23) (fell 0 3))).railState 23 = 7 := by decide +kernel

/-- The hypotheses of RailsStartAndFail for a fall of PG: of a rail that is off, of one that starts, and of a good one. -/
theorem witness_pg_falls :
    let rest := fun (s : State) => s.storesOk && s.boundsOk && decide (s.seqPhase < 2) && (List.range 8).all s.atRest &&
      !s.waits (fun c => match c with | .adcScan _ => true | .powerDownStart => true | .hold _ => true | _ => false)
    let off := railIn 1 23 0 false true
    let start := railIn 1 23 4 true true
    let good := railIn 1 0 5 true true
    rest off = true ∧ off.railPg 23 = true ∧ off.railEn 23 = false ∧ (nextOf (exec (.pgFall 0x800000#24) off)).railPg 23 = false ∧
    rest start = true ∧ start.railState 23 = 4 ∧ (nextOf (exec (.pgFall 0x800000#24) start)).railState 23 = 3 ∧
    rest good = true ∧ good.railUsed 0 = true ∧ good.railGood 0 = true ∧ good.railOwn 0 = false ∧ good.collects (srcPwr 2 0) = true ∧ good.pairHeld (srcPwr 2 0) = false ∧
    (nextOf (exec (.pgFall 1#24) good)).railEn 0 = false ∧ ((nextOf (exec (.pgFall 1#24) good)).recOf (srcPwr 2 0)).state = 1 := by
  decide +kernel

/-- A rail that is to be found off, read on channel `sense`, with the WAIT policy or without. -/
def fade (sense : Nat) (wait : Bool) : State :=
  let u := ((railIn 1 23 0 false false).setFld (rPwrRcfg 23) 16 5 sense).setFlag (rPwrRcfg 23) 28 wait
  { u with pwr := { u.pwr with rails := u.pwr.rails.set 23 ⟨false, false, false, 0, false, false⟩ } }

set_option maxRecDepth 20000 in
/-- The hypotheses of RailsGoDownIntoStandby for a rail that reads off, or whose discharge time runs out. -/
theorem witness_discharge :
    let offNow := fun (c : Instr) => match c with | .adcScan v => (fade 23 false).scanFindsOff 23 v | _ => false
    let low := onClockWith (fade 23 false) [.adcScan (List.replicate 24 0)]
    let down := (fade 23 false).setFld rPwrSeq 30 2 2
    let inv := fun (s : State) => s.storesOk && s.boundsOk
    inv (fade 23 false) = true ∧ 23 ∈ (fade 23 false).fading ∧ (fade 23 false).railSense 23 = some 23 ∧ 255 < (fade 23 false).fld (rPwrRoff 23) 0 12 ∧
    ((nextOf (exec (.adcScan (List.replicate 24 77972412)) (fade 23 false))).railRec 23).off = true ∧
    ((nextOf (exec (.adcScan (List.replicate 24 77972413)) (fade 23 false))).railRec 23).off = false ∧
    inv (fade 31 false) = true ∧ 23 ∈ (fade 31 false).fading ∧ (fade 31 false).railSense 23 = none ∧ ((fade 31 false).railRec 23).expired = false ∧
    ((nextOf (exec (.distoExpiry 23) (fade 31 false))).railRec 23).off = true ∧
    inv low = true ∧ 23 ∈ low.fading ∧ (low.railRec 23).expired = false ∧ low.ties offNow = true ∧
    ((nextOf (exec (.distoExpiry 23) low)).railRec 23).expired = false ∧
    (fade 23 false).waits offNow = false ∧ (fade 23 true).waits offNow = false ∧ 2 ≤ down.seqPhase ∧ inv down = true ∧ 23 ∈ down.fading ∧
    down.waits offNow = false ∧ down.railWaits 23 = false ∧ (down.railSense 23).isSome = true ∧ (down.railRec 23).expired = false ∧
    down.raisesQuietly (srcPwr 5 23) = true ∧ (nextOf (exec (.distoExpiry 23) down)).flag (rPwrRstat 23) 28 = true ∧
    (fade 23 false).railWaits 23 = false ∧ (fade 23 false).raisesQuietly (srcPwr 5 23) = true ∧
    ((nextOf (exec (.distoExpiry 23) (fade 23 false))).recOf (srcPwr 5 23)).state = 1 ∧
    inv (fade 23 true) = true ∧ 23 ∈ (fade 23 true).fading ∧ (fade 23 true).railWaits 23 = true ∧ (fade 23 true).collects (srcPwr 6 23) = true ∧ (fade 23 true).pairHeld (srcPwr 6 23) = false ∧
    ((nextOf (exec (.distoExpiry 23) (fade 23 true))).recOf (srcPwr 6 23)).state = 1 := by decide +kernel

set_option maxRecDepth 20000 in
/-- The hypotheses of RailsGoDownIntoStandby. -/
theorem witness_standby :
    let pk := pkt 0x05 .h0 []
    let a := asked (inMode 1) pk
    let d : State := { railIn 1 23 5 true true with pwr := { PwrState.reset with downCause := 1 } }
    let volts : List Int := List.replicate 24 1250000000
    let zone := (((inMode 1).setFld (rThmCfg 0) 0 5 23).setFlag (rThmCfg 0) 30 true)
    let last := (inMode 1).setFld rPwrSeq 30 2 2
    let inv := fun (s : State) => s.storesOk && s.boundsOk
    inv a = true ∧ a.awaits pk = true ∧ a.mayDecide pk ⟨0x05, fn01, [1], []⟩ = true ∧ a.pwr.downCause = 0 ∧ a.holdBehind (a.take pk) = false ∧ reply (exec (.standby pk) a) = [(0, 0, 0)] ∧
    inv d = true ∧ d.pwr.downCause ≠ 0 ∧ d.seqPhase < 2 ∧ d.standbyHeld = false ∧ d.thm.length ≤ 6 ∧
    (nextOf (exec .powerDownStart d)).seqPull = true ∧
    inv zone = true ∧ volts.length = 24 ∧ zone.dom.aon = true ∧ zone.seqPhase < 2 ∧ zone.pwr.discharging = none ∧ zone.fading = [] ∧
    zone.dom.main = true ∧ zone.zoneRun 0 = true ∧ zone.fld (rThmCfg 0) 0 5 = 23 ∧ ((nextOf (exec (.adcScan volts) zone)).zone 0).sum = 4095 ∧
    inv last = true ∧ last.seqPhase = 2 ∧ last.downTodo = [] ∧ (nextOf (exec .standbyEntry last)).mode = 0 := by decide +kernel

/-! ### Timing ports and the job store -/

/-- SERVICE with both timing ports up, port 0 in state `st`, and system 63 in the roster. -/
def onNet (st : PtpState) : State :=
  let port : PtpPort := { PtpPort.reset with link := true, state := st, awaitFollowUp := true, awaitResp := true }
  let s : State := { inMode 1 with net := { NetState.reset with roster := [63], ports := [port, { PtpPort.reset with link := true }] } }
  ((s.setFlag (rTimPcfg 0) 31 true).setFlag (rTimPcfg 1) 31 true).setFld rGlbCfg 16 6 5

/-- A heartbeat of system 63 after `hops` hops, from its mode and step 7. -/
def beat (hops : Nat) : List Byte :=
  hbFrame (leBytes 2 0x4E5A ++ leBytes 1 1 ++ leBytes 1 63 ++ leBytes 1 1 ++ leBytes 1 0 ++ leBytes 1 hops ++ leBytes 1 0 ++ leBytes 4 7 ++
    leBytes 4 9 ++ zeros 16 ++ zeros 8)

/-- The hypotheses of TimingPortsExchangeMessages; a heartbeat goes on at 14 hops and stops at 15. -/
theorem witness_timing_ports :
    let s := onNet .slave
    let u := onNet .uncalibrated
    let dup : State := { s with net := { s.net with dup := true } }
    let tied : State := { onClockWith dup [] with net := { dup.net with heardAt := [(5, 65536000)] } }
    let f := beat 14
    (s.storesOk && s.boundsOk) = true ∧ s.dom.main = true ∧ s.net.ports.length = 2 ∧ [0, 1].filter (fun p => s.portUp p) = [0, 1] ∧
    (nextOf (exec .heartbeatSend s)).out.length = 2 ∧
    s.portUp 0 = true ∧ s.portUp 1 = true ∧ f.length ≤ 1500 ∧ ((nextOf (exec (.heartbeatReceive 0 77 ⟨0x8100, f⟩) s)).port 0).discarded = 1 ∧
    ((nextOf (exec (.heartbeatReceive 0 77 ⟨0x88B5, f ++ zeros 1460⟩) s)).port 0).discarded = 1 ∧ getU f 0 2 = 0x4E5A ∧ getU f 0x28 4 = crc32c (slice f 0 0x28) ∧ getU f 2 1 = 1 ∧
    s.net.ports.any (fun x => x.mac == 77) = false ∧ s.net.recent = [] ∧ getU f 3 1 ≠ s.sysIdx ∧ s.net.roster.contains (getU f 3 1) = true ∧
    bitAt (getU f 5 1) 0 = false ∧ (nextOf (exec (.heartbeatReceive 0 77 ⟨0x88B5, f⟩) s)).out.length = 1 ∧
    (nextOf (exec (.heartbeatReceive 0 77 ⟨0x88B5, beat 15⟩) s)).out.length = 0 ∧ ((nextOf (exec (.heartbeatReceive 0 77 ⟨0x88B5, f⟩) s)).net.peers.map (·.step)) = [7] ∧
    s.net.peers = [] ∧ s.mayRaise srcHbLoss = true ∧ (s.recOf srcHbLoss).cond = false ∧ (s.recOf srcHbLoss).inj = false ∧
    (63 : Nat) ≠ s.sysIdx ∧ s.hbTies 63 = false ∧ dup.hbTies dup.sysIdx = false ∧ (tied.storesOk && tied.boundsOk) = true ∧ tied.net.dup = true ∧
    tied.hbTies tied.sysIdx = true ∧ (nextOf (exec .dupExpiry tied)).net.dup = true ∧
    ((nextOf (exec (.hbLoss 63) s)).recOf srcHbLoss).state = 1 ∧
    (dup.storesOk && dup.boundsOk) = true ∧ dup.net.dup = true ∧ (nextOf (exec .dupExpiry dup)).net.dup = false ∧
    s.flag (rTimPcfg 0) 31 = true ∧ (s.port 0).link = true ∧ ((nextOf (exec (.tpLinkChange 0 false) s)).port 0).state = .disabled ∧
    (s.port 0).state = .slave ∧ s.mayRaise (srcPtpTimeout 0) = true ∧
    (s.onCoreClock (s.port 0).annAt || s.onCoreClock (s.port 0).syncAt || s.ptpTies 0 .announce || s.ptpTies 0 .sync || s.ptpTies 0 .followUp) = false ∧
    ((nextOf (exec (.announceTimeout 0) u)).recOf (srcPtpTimeout 0)).state = 1 ∧
    (onNet .listening).portUp 0 = true ∧ (onNet .listening).onCoreClock ((onNet .listening).port 0).annAt = false ∧
    (onNet .listening).ptpTies 0 .announce = false ∧ bits ((onNet .listening).port 0).cfg 29 2 ≠ 2 ∧
    ((nextOf (exec (.announceTimeout 0) (onNet .listening))).port 0).state = .master ∧
    (s.port 0).awaitFollowUp = true ∧ s.mayRaise (srcPtpLoss 0) = true ∧
    ((nextOf (exec (.ptpMsgWaitExpiry 0 .followUp) s)).port 0).awaitFollowUp = false := by decide +kernel

/-- The hypotheses of TimingPortsExchangeMessages for PTP messages, of an end-to-end and of peer-to-peer ports. -/
theorem witness_ptp :
    let s := onNet .slave
    let clock : PtpClock := ⟨128, 0xF8FEFFFF, 128, 9, 0, 9, 37⟩
    let msg : PtpKind → Bool → PtpMsg := fun k one => ⟨k, 0, 2 ^ 24, 0, one, clock⟩
    let p2p : State := { s with net := { s.net with ports := [{ s.port 0 with cfg := 2 ^ 28 + 2 ^ 27 }, s.port 1] } }
    let slaveOnly : State := { s with net := { s.net with ports := [{ s.port 0 with cfg := 2 ^ 30 }, s.port 1] } }
    let stamped : State := { s with net := { s.net with ports :=
      [{ s.port 0 with syncTx := some 5, reqRx := some 7 }, { s.port 1 with cfg := 2 ^ 28, reqRx := some 7, respTx := some 9 }] } }
    let got := fun (t : State) (k : PtpKind) (one : Bool) => (nextOf (exec (.ptpMessageReceive 0 15 (msg k one)) t)).port 0
    let rx := (s.stamp 15 : Int) - psTo16 (signed 24 (s.rd (rTimIgl 0)))
    let tx := (s.stamp 0 : Int) + psTo16 (signed 24 (s.rd (rTimEgl 0)))
    let tx1 := (s.stamp 0 : Int) + psTo16 (signed 24 (s.rd (rTimEgl 1)))
    let sent := fun (p : Fin 2) (k : PtpKind) => ((nextOf (exec (.ptpMessageSend p 0 k) stamped)).out.length, (nextOf (exec (.ptpMessageSend p 0 k) stamped)).port p)
    (got s .management false).mgmt = 1 ∧ (s.port 0).hears .sync = true ∧ (s.port 0).hears .pdelayReq = false ∧ (got s .pdelayReq true).rxFrames = 1 ∧
    (got s .delayReq true).reqRx.isSome = true ∧ (s.port 0).awaitResp = true ∧ (got s .delayResp true).pathDelay = 2 ^ 23 ∧
    (got p2p .pdelayReq true).reqRx.isSome = true ∧ (got p2p .pdelayResp true).pathDelay = floorDiv rx 2 ∧ (s.port 0).best = none ∧
    (got s .announce true).best = some clock ∧ (got slaveOnly .announce true).state = .slave ∧
    (nextOf (exec (.ptpMessageReceive 0 15 (msg .announce true)) slaveOnly)).net.utcOffset = 37 ∧ clockBetter clock { clock with prio1 := 129, identity := 8 } = true ∧
    (got s .sync true).offset = rx - 2 ^ 24 ∧
    sent 0 .sync = (1, { stamped.port 0 with syncTx := some tx }) ∧ sent 0 .followUp = (1, { stamped.port 0 with syncTx := none }) ∧
    (sent 0 .delayReq).1 = 1 ∧ sent 0 .delayResp = (1, { stamped.port 0 with reqRx := none }) ∧ (sent 0 .announce).1 = 1 ∧
    (sent 1 .pdelayReq).1 = 1 ∧ sent 1 .pdelayResp = (1, { stamped.port 1 with reqRx := none, respTx := some tx1 }) ∧
    sent 1 .pdelayRespFollowUp = (1, { stamped.port 1 with respTx := none }) ∧ (sent 0 .management).1 = 0 := by decide +kernel

/-- SERVICE with every channel of the job store in state `st`, filled, two ranks each. -/
def storeIn (st : Nat) : State :=
  let s : State := { inMode 1 with ddr := { DdrState.reset with train := leBytes 4 1 ++ leBytes 4 1 ++ zeros 250 ++ [80#8] ++ zeros 4157, filled := true } }
  ([0, 1, 2, 3].foldl (fun t c => t.setFld rMemStat (2 * c) 2 st) s).setFlag rMemCfg 5 true

set_option maxRecDepth 20000 in
/-- The hypotheses of JobStoreControllerKeepsTheStore, with the scrub at its last block, and 86 and 83 degrees. -/
theorem witness_job_store :
    let found : List DimmFound := List.replicate 4 ⟨true, true, false, false, false, 0, true⟩
    let b := (storeIn 0).setFlag rMemCfg 5 false
    let f := storeIn 2
    let r := storeIn 3
    let owing : State := { r with ddr := { r.ddr with owed := [(7, 2)] } }
    let last : State := { r with ddr := { r.ddr with scrub := 2 ^ 36 - 64 } }
    let next : State := { r with ddr := { r.ddr with scrub := 2 ^ 36 - 128 } }
    let at0 := fun (a : Nat) => pkt 0xA0 .h1 (leBytes 1 3 ++ leBytes 1 0xA7 ++ zeros 6 ++ leBytes 8 a)
    let eye := asked (r.setFlag rMemStat 31 true) (at0 (2 ^ 36 - 67108864 - 2112))
    let done : State := { decided (r.setFlag rMemStat 31 true) (at0 0) with ddr := { r.ddr with eye := [⟨at0 0, 3, 0xA7, 0⟩] } }
    let hit : List (Nat × Nat) := [(2 ^ 34 - 16, 17)]
    let inv := fun (s : State) => s.storesOk && s.boundsOk
    let spec := fun (s : State) => (⟨0xA0, [.h1, .h2], [1], [⟨0x20, 1, fun v => decide (v < 4)⟩, ⟨0x21, 1, s.laneOk⟩,
      ⟨0x28, 8, fun v => v == 0 || (v % 64 == 0 && decide (v + 2112 ≤ s.jsSize))⟩]⟩ : OpSpec)
    inv b = true ∧ b.dom.cfgDone = true ∧ b.ddr.train ≠ [] ∧ b.memAll 0 = true ∧
    ([0, 1, 2, 3].all (fun c => dimmOk (found.getD c dimmNone) && dimmLike (found.getD c dimmNone) (found.getD 0 dimmNone) &&
      b.trainOk c (found.getD c dimmNone))) = true ∧ (nextOf (exec (.ddr5BringUp found) b)).memAll 2 = true ∧
    inv f = true ∧ f.memAll 2 = true ∧ (nextOf (exec .zeroFillDone f)).memReady = true ∧
    inv r = true ∧ r.memCh 3 ≠ 0 ∧ r.flag rMemCfg 5 = true ∧ storeWf posDefault owing.ddr.owed = true ∧ r.owed 3 1 = 0 ∧ owing.owed 3 1 = 2 ∧
    r.portUrgent 0 0xFFFF = true ∧ (nextOf (exec (.refreshDue 3 1 (none, none)) owing)).out = [.refresh 3 1 3] ∧
    (nextOf (exec (.refreshDue 3 1 (some 0xFFFF, none)) r)).owed 3 1 = 1 ∧ (nextOf (exec (.refreshDue 3 1 (none, some 0xFFFF)) owing)).out = [.refresh 3 1 3] ∧
    r.ddr.filled = true ∧ last.portWaits 6 [(last.ddr.scrub, 64)] = false ∧ next.portWaits 6 [(next.ddr.scrub, 64)] = false ∧
    last.errBlocks last.ddr.scrub 64 = [] ∧ next.errBlocks next.ddr.scrub 64 = [] ∧ last.ddr.bad.contains last.ddr.scrub = false ∧ last.jsSize ≤ last.ddr.scrub + 64 ∧ next.ddr.scrub + 64 < next.jsSize ∧
    (nextOf (exec (.scrubRead [] false) last)).ddr.passes = 1 ∧ (nextOf (exec (.scrubRead [] false) next)).ddr.scrub = 2 ^ 36 - 64 ∧
    (((last.newErrs hit).portServed 6).readBlocks last.ddr.scrub 64).ddr.bad = [2 ^ 36 - 64] ∧
    (((last.newErrs hit).portServed 6).readBlocks last.ddr.scrub 64).mayRaise (srcMem 1 (bits last.ddr.scrub 9 2)) = true ∧
    (nextOf (exec (.scrubRead hit false) last)).ddr.bad = [2 ^ 36 - 64] ∧
    (nextOf (exec (.scrubRead [(2 ^ 34 - 16, 15)] false) last)).rd (rMemCnt 0) = 1 ∧
    r.tTrain 3 = 80 ∧ (nextOf (exec (.dimmTempRead 3 (some 86)) r)).flag rMemStat 11 = true ∧
    (nextOf (exec (.dimmTempRead 3 (some 83)) r)).fld (rMemTemp 3) 0 8 = 83 ∧
    r.mayRaise (srcMem 7 3) = true ∧ ((nextOf (exec (.alertN 3) r)).recOf (srcMem 7 3)).state = 1 ∧
    inv eye = true ∧ eye.awaits (at0 (2 ^ 36 - 67108864 - 2112)) = true ∧ eye.mayDecide (at0 (2 ^ 36 - 67108864 - 2112)) (spec eye) = true ∧ eye.memReady = true ∧
    eye.destRefused (2 ^ 36 - 67108864 - 2112) 2112 = none ∧ (nextOf (exec (.eyeScan (at0 (2 ^ 36 - 67108864 - 2112))) eye)).ddr.eye.length = 1 ∧
    inv done = true ∧ done.awaits (at0 0) = true ∧ reply (exec (.eyeScanDone ⟨[]⟩) done) = [(0, 0, 0)] := by decide +kernel

/-! ### Axes and heaters -/

/-- A profile of an axis: EN, no rail, from 100 to 1,000 microsteps a second. -/
def aProfile : List Byte :=
  leBytes 4 (2 ^ 31 + 31 * 2 ^ 20) ++ leBytes 4 100 ++ leBytes 4 1000 ++ leBytes 4 500 ++ leBytes 4 500 ++ leBytes 4 500 ++ zeros 8 ++ leBytes 4 100 ++ zeros 28

/-- SERVICE with that profile in axis 7, and the axis as given. -/
def axisIn (x : Axis) : State :=
  let s := (List.range 10).foldl (fun t i => t.wr (rMotCfg 7 + 4 * i) (profileWord aProfile i)) (inMode 1)
  { s with mot := s.mot.set 7 x }

set_option maxRecDepth 20000 in
/-- The hypotheses of AxesTakeTheirCommands for axis 7. -/
theorem witness_axis_commands :
    let inv := fun (s : State) => s.storesOk && s.boundsOk
    let r := axisIn Axis.reset
    let may := fun (s : State) (pk : Packet) (o : OpSpec) => inv (asked s pk) && (asked s pk).awaits pk && (asked s pk).mayDecide pk o &&
      decide ((asked s pk).mot.length = 8)
    let cfg := pkt 0x50 .h0 (leBytes 8 7 ++ aProfile)
    let move := fun (op : Nat) (fn : Master) (n k : Nat) => pkt op fn (leBytes 4 7 ++ leBytes 4 n ++ leBytes 8 k)
    let stop := fun (op : Nat) (fn : Master) => pkt op fn (leBytes 8 7)
    let home := fun (m : Nat) => pkt 0x54 .h0 (leBytes 8 (7 + 256 * m))
    let aMove : OpSpec := ⟨0x51, fn01, modesRun, fAxisMove⟩
    let aStop : OpSpec := ⟨0x52, fnAll, modesAny, fByte 8⟩
    let aHome : OpSpec := ⟨0x54, fn01, modesRun, [⟨0x20, 1, fun v => decide (v < 8)⟩, ⟨0x21, 1, fun v => decide (v < 3)⟩]⟩
    let going := axisIn { Axis.reset with run := .trap 9 false, v2 := 1000000, dir := true }
    let kept := ((axisIn Axis.reset).setFlag (rMotStat 7) 28 true).wr (rMotRemain 7) 5
    let runs := fun (s : State) (i : Instr) => ((nextOf (exec i s)).axis 7).run
    let steps := (((axisIn Axis.reset).setFlag (rMotCfg 7) 30 true).setFld (rPadGpioCfg 23) 28 4 3).setFld (rPadGpioCfg 31) 28 4 4
    may r cfg ⟨0x50, fn01, [1], fAxisConfig cfg⟩ = true ∧
    slice cfg.bytes 0x28 64 = aProfile ∧ ((asked r cfg).axisConfig 2 7 aProfile).isSome = true ∧ reply (exec (.axisConfig cfg) (asked r cfg)) = [(0, 0, 0)] ∧
    r.axisEn 7 = true ∧ r.atRest 7 = true ∧ r.axisRailLow 7 = false ∧ r.limitIn 7 true = false ∧ r.limitIn 7 false = false ∧
    may r (move 0x51 .h0 3 0) aMove = true ∧ runs (asked r (move 0x51 .h0 3 0)) (.axisMove (move 0x51 .h0 3 0)) = .trap 3 false ∧
    may r (move 0x51 .h0 (2 ^ 32 - 3) 1) aMove = true ∧ runs (asked r (move 0x51 .h0 (2 ^ 32 - 3) 1)) (.axisMove (move 0x51 .h0 (2 ^ 32 - 3) 1)) = .trap 3 false ∧
    may r (move 0x51 .h0 0 1) aMove = true ∧ reply (exec (.axisMove (move 0x51 .h0 0 1)) (asked r (move 0x51 .h0 0 1))) = [(0, 0, 0)] ∧
    may r (move 0x51 .h0 6 2) aMove = true ∧ reply (exec (.axisMove (move 0x51 .h0 6 2)) (asked r (move 0x51 .h0 6 2))) = [(0, 0, 6)] ∧
    may steps (move 0x51 .h0 0 3) aMove = true ∧ steps.padsAssigned 7 = true ∧ steps.flag (rMotCfg 7) 30 = true ∧
    runs (asked steps (move 0x51 .h0 0 3)) (.axisMove (move 0x51 .h0 0 3)) = .interp [] 0 false ∧
    may r (move 0x87 .h3 3 0) (fxSpec 0x87 fAxisMove) = true ∧
    may r (stop 0x52 .h0) aStop = true ∧ reply (exec (.axisStop (stop 0x52 .h0)) (asked r (stop 0x52 .h0))) = [(0, 0, 0)] ∧
    may going (stop 0x52 .h0) aStop = true ∧ min 9 (brakeDist 1000000 (going.vs2 7) (going.fld (rMotDec 7) 0 31)) = 9 ∧
    runs (asked going (stop 0x52 .h0)) (.axisStop (stop 0x52 .h0)) = .trap 9 true ∧ may going (stop 0x88 .h3) (fxSpec 0x88 (fByte 8)) = true ∧
    may kept (stop 0x53 .h0) ⟨0x53, fn01, modesRun, fByte 8⟩ = true ∧ kept.flag (rMotStat 7) 28 = true ∧ signed 32 (kept.rd (rMotRemain 7)) = 5 ∧
    runs (asked kept (stop 0x53 .h0)) (.axisResume (stop 0x53 .h0)) = .trap 5 false ∧
    may r (home 2) aHome = true ∧ may r (home 0) aHome = true ∧ r.flag (rMotStat 7) 23 = false ∧
    runs (asked r (home 0)) (.axisHome (home 0)) = .homeSeek 0 0 true 0 false ∧
    (List.range 8).all (fun b => !(going.axis b).failed) = true := by decide +kernel

/-- The hypotheses of AxesStepAndStop for axis 7. -/
theorem witness_axis_steps :
    let inv := fun (s : State) => s.storesOk && s.boundsOk && s.dom.main && decide (s.mot.length = 8)
    let rest := axisIn Axis.reset
    let trap := fun (r : Nat) => axisIn { Axis.reset with run := .trap r false, v2 := 10000, dir := true }
    let jerk := axisIn { Axis.reset with run := .jerk 2 true false false 0 false, v2 := 10000, dir := true }
    let follow := axisIn { Axis.reset with run := .interp [] 0 false }
    let lag := (axisIn { Axis.reset with lagN := 256 }).setFlag (rMotCfg 7) 28 true
    let seek := axisIn { Axis.reset with run := .homeSeek 1 4 true 0 false, v2 := 1000000 }
    let jseek := (axisIn { Axis.reset with run := .homeSeek 0 4 true 0 false, v2 := 10000, table := [10000] }).setFlag (rMotCfg 7) 29 true
    let braking := (axisIn { Axis.reset with run := .homeBrake 0 1, v2 := 10000, home := 5 }).wr (rMotPos 7) 40
    let pins : State := { trap 2 with dbg := { JtagState.reset with ir := 0x03#8 } }
    let pos := fun (i : Instr) (s : State) => (nextOf (exec i s)).axisPos 7
    inv (trap 2) = true ∧ (trap 2).flag (rMotCfg 7) 28 = false ∧ pos (.microstep 7) (trap 2) = 1 ∧ pos (.microstep 7) (trap 1) = 1 ∧
    (nextOf (exec (.microstep 7) (trap 1))).atRest 7 = true ∧ inv jerk = true ∧ pos (.microstep 7) jerk = 1 ∧
    inv rest = true ∧ (rest.axis 7).run = .rest ∧ inv follow = true ∧
    (nextOf (exec (.coarseStepEdge 7 true 1000) follow)).atRest 7 = false ∧
    inv lag = true ∧ lag.flag (rMotCfg 7) 28 = true ∧ (lag.axis 7).lagN ≠ 0 ∧ (nextOf (exec (.loadfbPulse 7) lag)).fld (rMotStat 7) 8 8 = 255 ∧
    rest.flag (rMotStat 7) 25 = false ∧ rest.movingIn 7 true = false ∧ rest.raisesQuietly (srcMot 1 7) = true ∧ follow.limitIn 7 true = false ∧
    ((nextOf (exec (.holddlyExpiry 7) rest)).axis 7).held = true ∧
    ((nextOf (exec (.limitActive 7 true true) rest)).recOf (srcMot 1 7)).state = 1 ∧
    (trap 9).movingIn 7 true = true ∧ (trap 9).mayRaise (srcMot 1 7) = true ∧
    (nextOf (exec (.limitActive 7 true true) (trap 9))).atRest 7 = true ∧
    inv seek = true ∧ 0 < brakeDist (seek.axis 7).v2 (seek.vs2 7) (seek.fld (rMotDec 7) 0 31) ∧
    (nextOf (exec (.homeEdge 7 true) seek)).flag (rMotStat 7) 23 = true ∧
    inv braking = true ∧ braking.flag (rMotStat 7) 28 = false ∧ braking.flag (rMotStat 7) 23 = false ∧ braking.flag (rMotCfg 7) 28 = false ∧
    ((nextOf (exec (.homeEdge 7 false) (braking.setFlag (rMotStat 7) 23 true))).axis 7).home = 40 ∧
    (nextOf (exec (.microstep 7) braking)).axisPos 7 = 34 ∧ (nextOf (exec (.microstep 7) braking)).flag (rMotStat 7) 26 = true ∧
    (trap 2).scanDrives = false ∧ pins.scanDrives = true ∧ inv pins = true ∧ (nextOf (exec (.microstep 7) pins)).out = [] ∧
    inv jseek = true ∧ jseek.flag (rMotCfg 7) 29 = true ∧ ((nextOf (exec (.homeEdge 7 true) jseek)).axis 7).run = .homeBrake 0 1 := by decide +kernel

/-- The hypotheses of HeatersRegulate for zone 5; without a rail named, at a temperature at and above its limit, and with a bad sensor. -/
theorem witness_heaters :
    let inv := fun (s : State) => s.storesOk && s.boundsOk && decide (s.thm.length = 6)
    let set := fun (op : Nat) (fn : Master) (en : Nat) => pkt op fn (leBytes 2 5 ++ leBytes 2 100 ++ leBytes 4 en)
    let has := ((inMode 1).setFld (rThmCfg 5) 0 5 23).setFld (rThmCfg 5) 20 5 31
    let may := fun (s : State) (pk : Packet) (o : OpSpec) => inv (asked s pk) && (asked s pk).awaits pk && (asked s pk).mayDecide pk o
    let spec : OpSpec := ⟨0x62, fn01, modesRun, fHeaterSet⟩
    let zone := fun (bad : Bool) (top : Nat) =>
      let u := ((has.setFlag (rThmCfg 5) 30 true).setFld (rThmSp 5) 0 16 50).setFld (rThmSp 5) 16 16 top
      ({ u with thm := u.thm.set 5 { Zone.reset with sum := 2000, count := 2, sense := bad } } : State)
    may has (set 0x62 .h0 0) spec = true ∧ reply (exec (.heaterSet (set 0x62 .h0 0)) (asked has (set 0x62 .h0 0))) = [(0, 0, 0)] ∧
    may has (set 0x62 .h0 1) spec = true ∧ has.fld (rThmCfg 5) 0 5 < 24 ∧ has.zoneRail 5 = none ∧ (has.takeZoneTimer 2 5).isSome = true ∧
    (nextOf (exec (.heaterSet (set 0x62 .h0 1)) (asked has (set 0x62 .h0 1)))).zoneRun 5 = true ∧
    may has (set 0x89 .h3 1) (fxSpec 0x89 fHeaterSet) = true ∧
    inv (zone false 0) = true ∧ (zone false 0).dom.main = true ∧ (zone false 0).zoneRun 5 = true ∧ ((zone false 0).zone 5).count ≠ 0 ∧
    (zone false 0).zoneTemp 5 1000 = 0 ∧ signed 16 ((zone false 0).fld (rThmSp 5) 16 16) = 0 ∧
    signed 16 ((zone false 0xFFFF).fld (rThmSp 5) 16 16) = -1 ∧
    ((nextOf (exec (.heaterControlPeriod 5) (zone false 0))).zone 5).count = 0 ∧
    (nextOf (exec (.heaterControlPeriod 5) (zone false 0))).flag (rThmStat 5) 28 = false ∧
    ((nextOf (exec (.heaterControlPeriod 5) (zone false 0xFFFF))).zone 5).duty = 0 ∧
    ((nextOf (exec (.heaterControlPeriod 5) (zone true 0))).zone 5).duty = 0 ∧ goesOn (exec (.pwmPeriod 5) (zone false 0)) = true := by
  decide +kernel

/-! ### Rules over the whole machine -/

/-- The hypotheses of StepsFailWithoutRailsAndClocks: rail 23 in use and not good; or the generator of SHOT coasting, or not locked; and a fall
exactly 1 ms before t_open, and just before that. -/
theorem witness_steps_fail :
    let s := queuedState 1 toCheck
    let rail := s.setFlag (rPwrRcfg 23) 31 true
    let coast := s.setFld (rClkPll 5) 30 2 3
    let at1 := fun (d : Nat) => queuedState 1 { toCheck with tOpen := s.now40 + 1000000 * 2 ^ 40 + d }
    s.dom.main = true ∧ s.dom.resetting ≠ 2 ∧ s.mode ≠ 0 ∧ s.mode ≠ 5 ∧ earliest s.run.queue = some toCheck ∧ s.run.cur = none ∧ toCheck.target ∈ [2, 3, 4] ∧
    rail.railUsed 23 = true ∧ rail.railGood 23 = false ∧ coast.clkState 5 = 3 ∧ s.clkState 5 < 2 ∧ earliest rail.run.queue = some toCheck ∧
    ((nextOf (exec .tOpenReached rail)).run.cur.map (·.phase)) = some .invalid ∧
    ((nextOf (exec .runSyncFall coast)).run.cur.map (·.phase)) = some .invalid ∧
    ((nextOf (exec .runSyncFall (at1 0))).run.cur.map (·.cmd)) = some (some { toCheck with tOpen := s.now40 + 1000000 * 2 ^ 40 }) ∧
    ((nextOf (exec .runSyncFall (at1 1))).run.cur.map (·.cmd)) = some none := by decide +kernel

/-- The hypotheses of FaultNFollowsTheRecords, PlaneLinesTakeEveryMthColumn, EveryStepKeepsTheInvariant and NoCommandTouchesTheQueue, and the
offsets at which OnlyAccessesBeyondBar0Stop divides. -/
theorem witness_whole_machine :
    let s := inMode 1
    let q : State := { s with pending := [.mainUp, .seqSyncRise] }
    let stops := fun (i : Instr) => match exec i s with | .fault .outsideBar0 => true | _ => false
    s.dom.aon = true ∧ s.faultNLow = false ∧ (nextOf (exec (.badAccess .h0 0xFFFFFC 4 (.write (zeros 4))) s)).faultNLow = false ∧
    (List.replicate 512 3).length = 512 * 1 ∧ (planeEntries 2 1 (List.range 1024))[511]? = some 1023 ∧
    (q.storesOk && q.boundsOk) = true ∧ goesOn (step q) = true ∧ (nextOf (step q)).pending = [.seqSyncRise] ∧
    (stops (.registerWrite .h0 0xFFFFFC 0#32), stops (.registerWrite .h0 0x1000000 0#32)) = (false, true) ∧
    (stops (.badAccess .h0 0xFFFFFF 1 .read), stops (.badAccess .h0 0x1000000 1 .read)) = (false, true) := by decide +kernel

/-! ### The spec's worked examples -/

/-- The two roundings of R8's worked case. -/
theorem test_roundings :
    shrRound (3 * 2 ^ 27) 28 = 2 ∧ roundHalfEven 3 2 = 2 ∧ roundHalfEven 5 2 = 2 ∧ shrRound (5 * 2 ^ 27) 28 = 3 := by decide +kernel

/-- The check value of CRC-32C over the digits 1 to 9, which its definition is published with. -/
theorem test_crc32c : crc32c ("123456789".toList.map (fun c => BitVec.ofNat 8 c.toNat)) = 0xE3069283 := by decide +kernel

/-- "Example: a shallow edge" (05): the coverages of pixels 0 and 1, and of the left edge alone. -/
theorem test_shallow_edge :
    let t := Prim.trap 0 960 0 0 100 1500 2
    coverage 640 0 0 0 t = 49540 ∧ coverage 640 0 0 1 t = 8487 ∧ edgeU 100 1500 0 960 640 = 67720533 := by decide +kernel

/-- The table of R106, and its tie. -/
theorem test_t_of_coverage :
    tOf (115076 * 307328) 31130 = (2003, false) ∧ tOf (65536 * 307328) 31130 = (1140, false) ∧ tOf (65536 * 640) 0x8000 = (2, false) := by
  decide +kernel

/-- Table 6-4: the shares of V1 to V6 and V9. -/
theorem test_hit_shares :
    hitShare 8160 32 5 0 0 = 255 ∧ hitShare 8160 31 0 1 0 = 263 ∧ hitShare 334 32 1 5 8 = 11 ∧ hitShare 5 32 0 0 0 = 0 ∧ hitShare 5 32 6 0 0 = 1 ∧
    hitShare 160 32 9 0 0 = 5 ∧ hitShare 65535 512 511 1 1 = 128 ∧ dither 1 0 31 = 17 ∧ dither 5 8 32 = 11 ∧ dither 1 1 512 = 386 := by
  decide +kernel

/-- Table 6-4: the values sent in V1, V3 to V8 and V11. -/
theorem test_sent_values :
    outValue 255 0x4000 0x4000 0 = 255 ∧ outValue 11 0x4CCD 0x3C00 (-2) = 10 ∧ outValue 0 0x4000 0x4000 5 = 0 ∧ outValue 1 0x4000 0x4000 5 = 6 ∧
    outValue 5 0x2000 0x4000 0 = 3 ∧ outValue 1 0x4000 0x4000 (-3) = 0 ∧ outValue 255 0x8000 0x4000 0 = 255 ∧
    outValue 255 0x4000 14973 0 = 233 := by decide +kernel

/-- "Example: one block heated" (06): the new value of the centre cell. -/
theorem test_heated_cell : (heatNext 64 30000000 110000).1 = 30080704 := by decide +kernel

/-- "A decision worked through" (08): Sv, Sy and the predicted time, 128,325 steps after the last sample. -/
theorem test_decision :
    let ys : List Int := [0, 819, 1638, 2458, 3277, 4096, 4915, 5734]
    let s := State.reset.wr rEscTs 6553600
    let u : State := { s with esc := { s.esc with samples := ys.reverse.map (fun y => ⟨y, 0, 0⟩) } }
    fitSv ys = 68811 ∧ fitSy ys = 68811 ∧ u.predict 16000 = some (640 * 128325) := by decide +kernel

/-- "A trapezoidal move worked through" (13): the first two intervals, the interval at cruise and the braking distance. -/
theorem test_trapezoid :
    interval 1000000 = 64000000 ∧ interval 1512000 = 52048004 ∧ interval (51200 * 51200) = 1250000 ∧
    brakeDist (51200 * 51200) 1000000 256000 = 5119 := by decide +kernel

/-- "Example: admitting one stripe" (03): the largest rate for 5,214 edges, and that 766,000 passes. -/
theorem test_edge_budget :
    let j := { scanJob with scan := false }
    let bin := zeros 400
    let busy := bin.take 0x38 ++ leBytes 4 5214 ++ bin.drop 0x3C
    ((List.range 64).map (binEdge busy)).foldl max 0 = 5214 ∧ edgeRefused j 800000 [(0, bin), (1, busy)] = some (1, 766871) ∧
    edgeRefused j 766000 [(0, bin), (1, busy)] = none := by decide +kernel

/-- Runs and literals (R209): 3 to 130 bytes in one run. -/
theorem test_run_lengths :
    rleEncode (List.replicate 130 9#8) = [255#8, 9#8] ∧ rleEncode [1#8, 2#8, 2#8] = [2#8, 1#8, 2#8, 2#8] ∧
    rleDecode [0#8, 4#8, 128#8, 5#8] 4 = some [4#8, 5#8, 5#8, 5#8] ∧ lastRun130 [255#8, 9#8] = true := by decide +kernel

/-- Table 18-6's trace, step 5: a write to a channel that names no master is ignored and raises ACCESS once. -/
theorem test_access_traced :
    let t := nextOf (exec (.registerWrite .h0 0x100200 0x70#32) (inMode 1))
    t.rd 0x100200 = (inMode 1).rd 0x100200 ∧ t.flt.log.map (fun e => (e.src, e.detail)) = [(srcAccess, 0x100200)] := by decide +kernel

/-! ### Ill-formed commands, each refused by its check -/

/-- A packet that the checks take. -/
theorem test_wf_packet : (pkt 0x00 .h0 []).wf = true ∧ (Instr.nop (pkt 0x00 .h0 [])).wf = true := by decide +kernel

/-- Packets of a bad length, of a queue or mailbox that does not exist, or of a master that cannot send them. -/
theorem test_wf_refuses_packets :
    let p := pkt 0x00 .h0 []
    (Instr.nop { p with bytes := p.bytes.take 28 }).wf = false ∧ (Instr.nop { p with bytes := p.bytes ++ zeros 996 }).wf = false ∧
    (Instr.nop { p with bytes := p.bytes ++ zeros 2 }).wf = false ∧ (Instr.nop { p with org := .queue 16 }).wf = false ∧
    (Instr.nop { p with fn := .m0 }).wf = false ∧ (Instr.nop { p with org := .shared 4 }).wf = false ∧
    (Instr.nop { p with org := .shared 0, fn := .load }).wf = false := by decide +kernel

/-- Register commands of the load, beyond BAR0, unaligned, or of a bad size. -/
theorem test_wf_refuses_accesses :
    (Instr.warmReset .load 0xC3#8).wf = false ∧ (Instr.registerWrite .h0 0x1000000 0#32).wf = false ∧
    (Instr.registerWrite .h0 0x2 0#32).wf = false ∧ (Instr.badAccess .h0 0x1000000 2 .read).wf = false ∧
    (Instr.badAccess .h0 0 0 .read).wf = false ∧ (Instr.badAccess .h0 0 65 .read).wf = false ∧ (Instr.badAccess .h0 0 8 (.write (zeros 7))).wf = false ∧ (Instr.registerWrite .h0 0x4 0#32).wf = true := by
  decide +kernel

/-- Sources that Table 15-1 does not list, and lists or numbers that an event cannot carry. -/
theorem test_wf_refuses_events :
    (Instr.faultRaise 0x7FF).wf = false ∧ (Instr.wireFault 0x7FF).wf = false ∧ (Instr.levelConditionEnd 0x7FF).wf = false ∧
    (Instr.injectionExpiry 0x7FF).wf = false ∧ (Instr.faultRaise srcAccess).wf = true ∧ (Instr.ddr5BringUp []).wf = false ∧
    (Instr.adcScan (List.replicate 23 0)).wf = false ∧ (Instr.readingDone []).wf = false ∧ (Instr.plinkFrame 0 (zeros 16)).wf = false ∧
    (Instr.heartbeatReceive 0 0 ⟨0x88B5, zeros 45⟩).wf = false ∧ (Instr.heartbeatReceive 0 (2 ^ 48) ⟨0x88B5, zeros 46⟩).wf = false ∧
    (Instr.heartbeatReceive 0 0 ⟨0x10000, zeros 46⟩).wf = false ∧ (Instr.heartbeatReceive 0 0 ⟨0x88F7, zeros 46⟩).wf = false ∧
    (Instr.heartbeatReceive 0 0 ⟨0x88B5, zeros 46⟩).wf = true ∧ (Instr.plinkFrame (2 ^ 64) (zeros 17)).wf = false ∧
    (Instr.encoderSample (2 ^ 64) 0 false).wf = false ∧ (Instr.sos0Edge (2 ^ 64)).wf = false ∧ (Instr.sos1Edge (2 ^ 64)).wf = false ∧
    (Instr.dmaHalt 0 false 1 (2 ^ 64)).wf = false := by decide +kernel

/-- Errors beyond the largest job store, of no bit, or beyond a beat's 40 bits. -/
theorem test_wf_refuses_errors :
    (Instr.scrubRead [(2 ^ 37, 1)] false).wf = false ∧ (Instr.binFetch [(0, 0)]).wf = false ∧
    (Instr.dmaBurst 4 (.bytes []) [(0, 2 ^ 40)]).wf = false ∧ (Instr.binFetch [(2 ^ 37 - 1, 2 ^ 40 - 1)]).wf = true := by decide +kernel

/-- No word spells a command, as no row of the table has bits. -/
theorem test_no_word_spells_a_command : decodeTableWord 8 0 = none ∧ State.reset.withFetchWord 8 0 = State.reset := by decide +kernel

end Sys2Proof.Tests
end

/-! The split of a line into plane-lines (R109): which column each entry holds, and which entry holds each column. -/

namespace Sys2Proof.Machine

@[simp] theorem length_planeEntries (m ph : Nat) (ts : List Nat) : (planeEntries m ph ts).length = 512 := by
  simp [planeEntries]

/-- Column n·M + φ lies in a line of 512·M pixels. -/
theorem column_lt_of_entry {m ph n : Nat} (hph : ph < m) (hn : n < 512) : n * m + ph < 512 * m :=
  calc n * m + ph < (n + 1) * m := by rw [Nat.succ_mul]; omega
    _ ≤ 512 * m := Nat.mul_le_mul_right m hn

/-- Where the column lies in the line, the default that `planeEntries` reads beyond it does not show. -/
theorem getElem?_planeEntries {m ph n : Nat} {ts : List Nat} (hn : n < 512) (hcol : n * m + ph < ts.length) :
    (planeEntries m ph ts)[n]? = ts[n * m + ph]? := by
  simp [planeEntries, hn, hcol]

/-- Column i lies in a plane-line of 512 entries, as entry i / M. -/
theorem entry_lt_of_column {m i : Nat} (hi : i < 512 * m) : i / m < 512 :=
  Nat.div_lt_of_lt_mul (Nat.mul_comm 512 m ▸ hi)

theorem getElem?_planeEntries_div_mod {m i : Nat} {ts : List Nat} (hlen : ts.length = 512 * m) (hi : i < 512 * m) :
    (planeEntries m (i % m) ts)[i / m]? = ts[i]? := by
  have hcol : i / m * m + i % m = i := Nat.div_add_mod' i m
  rw [getElem?_planeEntries (entry_lt_of_column hi) (by omega), hcol]

theorem planeEntries_one_zero {ts : List Nat} (hlen : ts.length = 512) : planeEntries 1 0 ts = ts := by
  refine List.ext_getElem?' fun n hn => ?_
  rw [length_planeEntries, hlen, Nat.max_self] at hn
  rw [getElem?_planeEntries hn (by omega), Nat.mul_one, Nat.add_zero]

/-- Settles O60: an entry's column lies in the line, and conversely column i is entry i / M of plane-line i mod M. -/
theorem planeLinesTakeEveryMthColumn : Obligations.PlaneLinesTakeEveryMthColumn := by
  unfold Obligations.PlaneLinesTakeEveryMthColumn
  intro m ts hm hlen
  refine ⟨fun ph hph => ⟨length_planeEntries m ph ts, fun n hn => ?_⟩, fun i hi => ?_, ?_⟩
  · exact getElem?_planeEntries hn (hlen ▸ column_lt_of_entry hph hn)
  · exact ⟨i % m, i / m, Nat.mod_lt i hm, entry_lt_of_column hi, (Nat.div_add_mod' i m).symm,
      getElem?_planeEntries_div_mod hlen hi⟩
  · rintro rfl
    exact planeEntries_one_zero hlen

end Sys2Proof.Machine

/-! The serpentine of the espalier (R232): a run as its elements, and the byte of an element after an odd and an even pass. -/

namespace Sys2Proof.Machine

/-! ### Blocks of one length, laid end to end -/

theorem length_flatten_of_forall_length {α : Type} {L : List (List α)} {n : Nat} (hL : ∀ b ∈ L, b.length = n) :
    L.flatten.length = L.length * n := by
  rw [List.length_flatten, List.sum_eq_card_nsmul _ n (by simpa using hL), List.length_map, smul_eq_mul]

/-- Byte k of block i stands at i·n + k. -/
theorem getElem?_flatten_of_forall_length {α : Type} {L : List (List α)} {n : Nat} (hL : ∀ b ∈ L, b.length = n)
    {i k : Nat} (hk : k < n) : L.flatten[i * n + k]? = L[i]?.bind (·[k]?) := by
  induction L generalizing i with
  | nil => simp
  | cons b L ih =>
    obtain ⟨hb, hL⟩ := List.forall_mem_cons.mp hL
    cases i with
    | zero => simp [List.getElem?_append_left, hb, hk]
    | succ i =>
      have hpos : (i + 1) * n + k - b.length = i * n + k := by rw [hb, Nat.succ_mul]; omega
      have hle : b.length ≤ (i + 1) * n + k := by rw [hb, Nat.succ_mul]; omega
      rw [List.flatten_cons, List.getElem?_append_right hle, hpos, ih hL, List.getElem?_cons_succ]

/-! ### The elements of a run -/

@[simp] theorem length_elems (n0 es : Nat) (run : List Byte) : (elems n0 es run).length = n0 := by
  simp [elems]

theorem getElem?_slice {bs : List Byte} {o n k : Nat} (hk : k < n) : (slice bs o n)[k]? = bs[o + k]? := by
  simp [slice, List.getElem?_take_of_lt hk]

theorem getElem?_elems {n0 es i : Nat} {run : List Byte} (hi : i < n0) :
    (elems n0 es run)[i]? = some (slice run (i * es) es) := by
  simp [elems, hi]

/-- Element i lies in its run, so that none is cut short. -/
theorem length_of_mem_elems {n0 es : Nat} {run : List Byte} (hlen : run.length = n0 * es) :
    ∀ e ∈ elems n0 es run, e.length = es := by
  intro e he
  obtain ⟨i, hi, rfl⟩ := List.mem_map.mp he
  have hend : (i + 1) * es ≤ n0 * es := Nat.mul_le_mul_right es (List.mem_range.mp hi)
  rw [Nat.succ_mul] at hend
  simp [slice]
  omega

theorem length_of_mem_reverse_elems {n0 es : Nat} {run : List Byte} (hlen : run.length = n0 * es) :
    ∀ e ∈ (elems n0 es run).reverse, e.length = es := fun e he =>
  length_of_mem_elems hlen e (List.mem_reverse.mp he)

/-! ### The two passes of MODE 3 -/

theorem espRun_serp_of_odd {i1 : Nat} (n0 es ilv : Nat) (split : Bool) (run : List Byte) (hi1 : i1 % 2 = 1) :
    espRun 3 n0 es ilv split i1 run = (elems n0 es run).reverse.flatten := by
  simp [espRun, hi1]

theorem espRun_serp_of_even {i1 : Nat} (n0 es ilv : Nat) (split : Bool) (run : List Byte) (hi1 : i1 % 2 = 0) :
    espRun 3 n0 es ilv split i1 run = run := by
  simp [espRun, hi1]

theorem getElem?_reverse_elems_flatten {n0 es i0 k : Nat} {run : List Byte} (hlen : run.length = n0 * es)
    (hi0 : i0 < n0) (hk : k < es) :
    (elems n0 es run).reverse.flatten[i0 * es + k]? = run[(n0 - 1 - i0) * es + k]? := by
  have hsrc : (elems n0 es run).reverse[i0]? = some (slice run ((n0 - 1 - i0) * es) es) := by
    rw [List.getElem?_reverse (by simpa using hi0), length_elems, getElem?_elems (by omega)]
  rw [getElem?_flatten_of_forall_length (length_of_mem_reverse_elems hlen) hk, hsrc, Option.bind_some, getElem?_slice hk]

theorem length_espRun_serp {n0 es ilv i1 : Nat} {split : Bool} {run : List Byte} (hlen : run.length = n0 * es) :
    (espRun 3 n0 es ilv split i1 run).length = run.length := by
  rcases Nat.mod_two_eq_zero_or_one i1 with heven | hodd
  · rw [espRun_serp_of_even (hi1 := heven)]
  · rw [espRun_serp_of_odd (hi1 := hodd), length_flatten_of_forall_length (length_of_mem_reverse_elems hlen),
      List.length_reverse, length_elems, hlen]

/-- In MODE 3 the run buffer's size is the only limit (R229). -/
theorem badSetup_iff_of_serp {s : State} {n : Nat} (hmode : s.espMode n = 3) :
    s.badSetup n = true ↔ 4096 < s.dmaN0 n * s.dmaEs n := by
  simp [State.badSetup, hmode]

/-- Settles O47: an odd pass lays the elements end to end in reverse, an even one returns its run. -/
theorem serpentineRunsReverse : Obligations.SerpentineRunsReverse := by
  unfold Obligations.SerpentineRunsReverse
  intro n0 es ilv split i1 run hlen
  refine ⟨fun hodd i0 k hi0 hk => ?_, espRun_serp_of_even n0 es ilv split run, length_espRun_serp hlen,
    fun s n => badSetup_iff_of_serp⟩
  rw [espRun_serp_of_odd n0 es ilv split run hodd]
  exact getElem?_reverse_elems_flatten hlen hi0 hk

end Sys2Proof.Machine

/-! Steps that open invalid (R278, R306): what a bad rail or an unlocked generator does to validation, and what a step that failed it looks
like. -/

namespace Sys2Proof.Machine

/-! ### What exposing needs -/

/-- R306: every rail in use is good. -/
theorem State.railGood_of_exposeOk {s : State} {target n : Nat} (hok : s.exposeOk target = true) (hn : n < 24) (hused : s.railUsed n = true) :
    s.railGood n = true := by
  simp only [State.exposeOk, Bool.and_eq_true, List.all_eq_true, rails, List.mem_range] at hok
  obtain ⟨⟨-, hrails⟩, -⟩ := hok
  simpa [hused] using hrails n hn

/-- R278: SHOT is locked, and LINK where it clocks the output port. -/
theorem State.clkState_of_exposeOk {s : State} {target g : Nat} (hok : s.exposeOk target = true) (hg : g = 5 ∨ (g = 3 ∧ s.scnPort = false)) :
    s.clkState g = 2 := by
  simp only [State.exposeOk, State.clkLocked, Bool.and_eq_true, Bool.or_eq_true, beq_iff_eq] at hok
  obtain ⟨⟨⟨⟨-, hshot⟩, hlink⟩, -⟩, -⟩ := hok
  obtain rfl | ⟨rfl, hport⟩ := hg
  · exact hshot
  · exact hlink.resolve_left (by simp [hport])

theorem State.exposeOk_eq_false_of_rail_or_clk {s : State}
    (hbad : (∃ n, n < 24 ∧ s.railUsed n = true ∧ s.railGood n = false) ∨
      (∃ g, (g = 5 ∨ (g = 3 ∧ s.scnPort = false)) ∧ (s.clkState g = 3 ∨ s.clkState g < 2))) (target : Nat) :
    s.exposeOk target = false := by
  refine Bool.eq_false_iff.mpr fun hok => ?_
  obtain ⟨n, hn, hused, hgood⟩ | ⟨g, hg, hclk⟩ := hbad
  · exact Bool.false_ne_true (hgood.symm.trans (State.railGood_of_exposeOk hok hn hused))
  · have hlocked := State.clkState_of_exposeOk hok hg
    omega

/-! ### Validation -/

/-- Only a mode change into SERVICE validates where nothing may be exposed: R43's reasons are 0x02 and 0x13. -/
theorem State.stepFails_of_exposeOk_eq_false {s : State} {c : StepCmd} (hbad : ∀ target, s.exposeOk target = false)
    (hc : c.handle ≠ 0 ∨ c.target ∈ [2, 3, 4]) : ∃ d, s.stepFails c = some d ∧ d ≠ 0 := by
  unfold State.stepFails
  by_cases hstripe : c.handle = 0
  · have htarget : c.target ≠ 1 := fun h => by simp [hstripe, h] at hc
    exact ⟨0x13, by simp [hstripe, htarget, hbad], by decide⟩
  · by_cases harm : s.armOk c.handle = true
    · exact ⟨0x13, by simp [hstripe, harm, hbad], by decide⟩
    · exact ⟨0x02, by simp [hstripe, harm], by decide⟩

/-! ### The step that opens -/

/-- A step that failed validation opens invalid and arms no stripe (R43, R67). -/
theorem State.openStep_of_stepFails {s : State} {c : StepCmd} {d : Nat} (hfails : s.stepFails c = some d) :
    s.openStep c = { s with run := { s.run with cur := some ⟨some c, s.now40, 0, .invalid, [], d, false⟩, pull := true, line := false,
                                                queue := s.run.queue.filter (fun k => !(k == c)) } } := by
  simp [State.openStep, hfails]

theorem exec_tOpenReached_of_earliest {s : State} {c : StepCmd} (hstandby : s.mode ≠ 0) (hhold : s.mode ≠ 5)
    (hnext : earliest s.run.queue = some c) (hcur : s.run.cur = none) : exec .tOpenReached s = .next (s.openStep c) := by
  change execTOpenReached s = _
  simp [execTOpenReached, hnext, hstandby, hhold, hcur]

/-- t_open is at most 1 ms ahead (R43). -/
theorem exec_runSyncFall_of_earliest {s : State} {c : StepCmd} (hmain : s.dom.main = true) (hreset : s.dom.resetting ≠ 2)
    (hstandby : s.mode ≠ 0) (hhold : s.mode ≠ 5) (hnext : earliest s.run.queue = some c) (hcur : s.run.cur = none)
    (hdue : c.tOpen ≤ s.now40 + 1000000 * 2 ^ 40) : exec .runSyncFall s = .next (s.openStep c) := by
  change execRunSyncFall s = _
  simp only [execRunSyncFall, hmain, hreset, hstandby, hhold, hcur, hnext, if_pos hdue]
  simp

/-! ### The step that stands invalid -/

/-- The part keeps the line pulled. -/
theorem exec_armDone_of_invalid {s : State} {o : OpenStep} (hcur : s.run.cur = some o) (hphase : o.phase = .invalid) :
    exec .armDone s = .next s := by
  change execArmDone s = _
  simp [execArmDone, hcur, hphase]

/-- The step is not armed by an edge either. -/
theorem exec_armedEdge_of_invalid {s : State} {o : OpenStep} (hcur : s.run.cur = some o) (hphase : o.phase = .invalid) :
    exec .armedEdge s = .next s := by
  change execArmedEdge s = _
  simp [execArmedEdge, hcur, hphase]

/-- Settles O58: both commands open the step of the earliest command, and validation of it fails without exposeOk. -/
theorem stepsFailWithoutRailsAndClocks : Obligations.StepsFailWithoutRailsAndClocks := by
  unfold Obligations.StepsFailWithoutRailsAndClocks
  intro s c hmain hreset hstandby hhold hnext hcur hc hbad fails
  obtain ⟨d, hfails, hd⟩ := State.stepFails_of_exposeOk_eq_false (State.exposeOk_eq_false_of_rail_or_clk hbad) hc
  have hopen := State.openStep_of_stepFails hfails
  have fails_of_opens : ∀ i, exec i s = .next (s.openStep c) → fails i := by
    intro i hi
    have ho : (s.openStep c).run.cur = some ⟨some c, s.now40, 0, .invalid, [], d, false⟩ := by rw [hopen]
    refine ⟨s.openStep c, _, hi, ho, rfl, rfl, hd, ?_, ?_, ?_, ?_, ?_, exec_armDone_of_invalid ho rfl, exec_armedEdge_of_invalid ho rfl⟩
    · rw [hopen]
    · rw [hopen]
    · simp [hopen]
    · rw [hopen]
    · rw [hopen]; rfl
  exact ⟨fails_of_opens _ (exec_tOpenReached_of_earliest hstandby hhold hnext hcur),
    fun hdue => fails_of_opens _ (exec_runSyncFall_of_earliest hmain hreset hstandby hhold hnext hcur hdue)⟩

end Sys2Proof.Machine

/-! FAULT_N (R336): what the pin says of the fault records. -/

namespace Sys2Proof.Machine

/-- A record is uncleared while its state is not 0. -/
theorem State.anySev_iff (s : State) (v : Nat) : s.anySev v = true ↔ ∃ r ∈ s.flt.recs, r.state ≠ 0 ∧ v ≤ r.eff := by
  simp only [State.anySev, List.any_eq_true, Bool.and_eq_true, decide_eq_true_eq]

/-- The pull-down that holds the pin low without power (R363) plays no part. -/
theorem State.faultNLow_of_aon {s : State} (haon : s.dom.aon = true) : s.faultNLow = s.anySev 1 := by
  simp [State.faultNLow, haon]

/-- Settles O59: with always-on power the pin is `anySev 1`, which reads the records alone and not the mode. -/
theorem faultNFollowsTheRecords : Obligations.FaultNFollowsTheRecords := by
  unfold Obligations.FaultNFollowsTheRecords
  intro s haon
  rw [State.faultNLow_of_aon haon]
  exact s.anySev_iff 1

end Sys2Proof.Machine
